-- ==== Sys2Proof/Word.lean ====
section
/-! DEFINITION. The word types of the FD7 and the plain container types of the model.
Nothing here is particular to one block: numbers of the register maps are `Nat`, patterns that the spec treats as
bits are bit vectors, and every table the spec keys by a number is a sorted list of key and value pairs. -/
namespace Sys2Proof

/-- One byte (R53: every multi-byte field is little-endian, so wider values are lists of these). -/
abbrev Byte := BitVec 8

/-- A byte string, lowest address first. -/
abbrev Bytes := List Byte

/-- An fp32 value as its binary32 pattern (R52). -/
abbrev F32 := BitVec 32

/-- A bf16 value as its pattern, the upper half of binary32 (R52). -/
abbrev BF16 := BitVec 16

/-- A sparse table: key and value pairs, keys strictly rising, no pair whose value is the table's default. -/
abbrev SMap (α : Type) := List (Nat × α)

end Sys2Proof
end

