-- ==== Sys2Proof/Syntax.lean ====
section
/-! DEFINITION. The commands of the module: one constructor of `Instr` per row of the table of operations and events.
The block has no encoding of its own; a command carries what the outside gives the step (a register value, bytes read
from host memory, raw telemetry codes, the completion time of an operation). -/
namespace Sys2Proof

/-- What a read of host memory returned by the time the step ends (R36, R411). -/
inductive HostRead where
  | data (bs : Bytes)
  | late
  | fail
  deriving DecidableEq, Repr

/-- Operation types of R220, in code order 0x01 to 0x0A. -/
inductive OpType where
  | tileMvm | residual | sizing | attnBlock | vector | kvAppend | exchange | sample | ctxSave | ctxRestore
  deriving DecidableEq, Repr

/-- The work of a VECTOR template: A4 quantisation of a block (R62, R71), a residual add, an embedding lookup, or a
plan function whose arithmetic the spec does not give (norms, activations, positional transforms). -/
inductive VecWork where
  | quantise (outliers : Nat) (precise : Bool)
  | add
  | embed
  | func (n outs : Nat)
  deriving DecidableEq, Repr

/-- The work of an EXCHANGE template (R220, R239, R265, R336). -/
inductive ExchWork where
  | copy                                   -- bytes between vats, stacks and scratchpads
  | handOver                               -- a chain's pairs handed to another accumulator tile (R195)
  | merge                                  -- attention partials merged on the hub (R264)
  | logits                                 -- logits to host memory (R301)
  | sendTo (member : Nat) (exch : Nat)     -- to another module (R49)
  | recvFrom (member : Nat) (exch : Nat)
  | setWrite (tiles : List Nat)            -- a turnover set's tiles into the arrays (R336)
  deriving DecidableEq, Repr

/-- One operation template of a plan's layer tables (R215, R220). Scratchpad places are byte offsets within the STAGE
region of the template's vat, but device addresses in an EXCHANGE; vector v of the batch uses the place at
`src + v * srcStride`. Output j of a tile pass is its j-th (matrix, head, N-block) in ascending order; with G groups of 8
vectors, the accumulator tile of output j and vector v is name j * G + v / 8 of `accWr` (R207). -/
structure Template where
  typ      : OpType := .vector
  unit     : Nat := 64                -- vat 0 to 63, 64 for the hub
  layer    : Nat := 0
  accRd    : List Nat := []           -- accumulator names read
  accWr    : List Nat := []
  kvMode   : Nat := 0                 -- 0 none, 1 read, 2 write, 3 both
  heads    : List Nat := []           -- KV heads: of each query head of an ATTN_BLOCK, or those of a KV_APPEND
  head     : Nat := 0                 -- output head of a SAMPLE, 0 the main one
  budget   : Nat := 0                 -- reference periods, fixed budget (R217)
  after    : List Nat := []           -- templates of the segment it waits for
  tiles    : List Nat := []           -- TILE_MVM, RESIDUAL: tile indices
  precise  : Bool := false            -- of a precise layer (R71)
  outliers : Nat := 0                 -- K of the layer (R202)
  src      : Nat := 0
  srcStride : Nat := 0
  src2     : Nat := 0                 -- second operand of an add, values of a KV_APPEND
  dst      : Nat := 0
  dstStride : Nat := 0
  count    : Nat := 0                 -- elements, or bytes of an EXCHANGE
  share    : Nat × Nat := (0, 1)      -- (i, n): it works on the vectors v with v mod n = i
  level    : Nat := 0                 -- ATTN_BLOCK: level of the nodes a vat merges by itself (R253, R264)
  matrix   : Nat := 0                 -- SIZING: matrix of the low-rank pair
  nBlocks  : List Nat := []           -- SIZING: N-block of each output
  last     : Bool := true             -- SIZING: low-rank terms and resolve follow the merges
  params   : Nat := 0                 -- VPARAM words a vector function takes, from word `dev` on
  bcast    : List Nat := []           -- further vats a VECTOR result is broadcast to
  dev      : Nat := 0                 -- device address of an EXCHANGE target
  vec      : VecWork := .add
  exch     : ExchWork := .copy
  release  : List Nat := []           -- names whose binding ends when it completes (R230)
  deriving DecidableEq, Repr

/-- A segment between segment points (R41, R217): its templates, the paths along which budgets add up, and its worst
budget. -/
structure Segment where
  ops   : List Template := []
  paths : List (List Nat) := []
  worst : Nat := 0                    -- reference periods
  deriving DecidableEq, Repr

/-- Per-layer KV constants of a plan (R84, R247, R250). -/
structure KvPlan where
  headroomK : BF16 := 0x3F80#16
  minK      : BF16 := 0x0080#16
  headroomV : BF16 := 0x3F80#16
  minV      : BF16 := 0x0080#16
  scaleMul  : F32 := 0#32             -- SM
  fp8       : Bool := false           -- ATTN_FMT
  deriving DecidableEq, Repr

/-- A model plan (R41, R215, R230, R337). Its byte format is the compiler's; here it is its content. -/
structure Plan where
  decode    : List Segment := []
  prefill   : List Segment := []
  ring      : List Segment := []      -- what a ring member that is not the tail runs for the tail's step (R267)
  batchMax  : Nat := 1
  segOpsMax : Nat := 0
  minPeriod : Nat := 5000
  canonical : Bool := false
  pinned    : List (Nat × Nat) := []  -- accumulator names pinned to a physical tile
  kv        : List KvPlan := []       -- per layer
  kBlocks   : List (Nat × Nat × Nat × Nat) := []   -- layer, matrix, input width, output width
  accSize   : Nat := 3584             -- SCR layout it needs, 4 KiB units (R205, R589)
  corrSize  : Nat := 1800
  stageSize : Nat := 760
  minVats   : Nat := 0
  cohortMax : Nat := 1
  deriving DecidableEq, Repr

/-- One PLACE entry (R320): member, vat, logical group and tile slot of a tile. -/
structure Place where
  tile    : Nat
  member  : Nat
  vat     : Nat
  logical : Nat
  slot    : Nat
  deriving DecidableEq, Repr

/-- A stuck bit found by the read-back of a written tile: tile slot, row, column 0 to 287, and the bit that stands. -/
structure StuckIn where
  tile : Nat
  row  : Nat
  col  : Nat
  held : Bool
  deriving DecidableEq, Repr

/-- A scoreboard operation named by a completion event: its deckle and number, the reference period at which it ends, and
faults the hardware found in it (a page is a stack page's device address over 65,536; an uncorrectable scratchpad, KV or
correction-store word, a scoreboard copy that differs, a web tag that fails; R209, R213, R233, R276, R418). -/
inductive OpFault where
  | none
  | scrCorrected (vat : Fin 64)
  | scrUncorr (vat : Fin 64) (firstVec : Nat)
  | corrStore
  | quireRead
  | kvEcc (session page : Nat)
  | memCorr (stack : Fin 8)
  | memUncorr (page : Nat)
  | sbDup
  | webForeign (addr tag : Nat)
  | tagParity (addr tag : Nat)
  | unmapped (addr : Nat)
  | stuck (cells : List (Nat × StuckIn))   -- read-back of a set write (R336): vat * 1536 + physical group, and the cell
  deriving DecidableEq, Repr

/-- The operation a completion event names. -/
structure OpRef where
  deckle : Fin 16
  seq    : Nat
  time   : Nat
  fault  : OpFault := .none
  deriving DecidableEq, Repr

/-- What the other end of an exchange with another module brings (R49, R239, R267): whether it has completed, the window it
gives the deckle (first and last reference period; none for one equal to this module's), and the tokens that the ring's tail
emitted. -/
structure PeerIn where
  done   : Bool := false
  window : Option (Nat × Nat) := none
  tokens : List Nat := []
  deriving DecidableEq, Repr

/-- A column whose converter did not read the exact count (R88): tile of the template, vector, column 0 to 271, plane, the
half of a plan-D split, and the 15-bit fine value the converter resolved (R121). -/
structure CodeFault where
  tile  : Nat
  vec   : Nat
  col   : Nat
  plane : Nat
  half  : Nat
  fine  : Nat
  deriving DecidableEq, Repr

/-- What the events of a RESIDUAL say of its passes: the columns misread, and the sampler's choices among them (R88, R198). -/
structure PassIn where
  faults  : List CodeFault := []
  sampled : List (Nat × Nat) := []
  deriving DecidableEq, Repr

/-- The completion message of an exchange's other end (R367, R385): when it came, and whether it says instead that the
transfer is foreign to the deckle there. -/
structure DoneIn where
  time    : Nat
  foreign : Bool := false
  deriving DecidableEq, Repr

/-- What one deckle's strobe reads returned (R34, R225, R296, R300). -/
structure RingIn where
  deckle  : Fin 16
  pi      : HostRead := .late
  ci      : HostRead := .late
  entries : List HostRead := []       -- entries from SQ_CI on, in order of slot
  trs     : List (Nat × HostRead) := []   -- token-ring CI words: session, word
  deriving DecidableEq, Repr

/-- One telemetry strobe: raw codes of channels 0 to 193 and counts 194 to 257, and the zero and span results of the
four converters: offset in 1/16 LSB, gain in 2^-16, worst deviation from the expected codes in LSB (R140 to R142). -/
structure StrobeIn where
  raw  : List Nat := []
  refs : List (Int × Int × Nat) := []
  deriving DecidableEq, Repr

/-- The 16 fine values of one column under one row pattern of a block (R146, R150): the slot's place in the pass, 0 to 3,
and the rows converted: 0 all of them, 1 and 2 the halves of a plan-D split. -/
structure LevelIn where
  pat   : Nat
  half  : Nat := 0
  fines : List Nat
  deriving DecidableEq, Repr

/-- One calibration block of a group (R149, R150, R170): the plan it ran under, the tile slot whose cells its rows drove,
which set of four row patterns of the CAL image it drove, and the fine values of each column it measured. -/
structure BlockIn where
  group : Nat
  plan  : Nat
  tile  : Nat := 0
  pats  : Nat := 0
  cols  : List (Nat × List LevelIn) := []
  deriving DecidableEq, Repr

/-- The measurements of one converter calibration (R154): per measurement, the sums of 2,048 fine values at levels 16
and 240. -/
abbrev ConvIn := List (Nat × Nat)

/-- A part of a ream or quire image as it arrives (R329, R330). -/
inductive ImagePart where
  | manifest (bs : HostRead)
  | chunk (typ : Nat) (bs : HostRead)                       -- bytes of a section other than TILES, PLAN and PLACE
  | tile (rec outs : HostRead)                              -- one tile record, and its WOUT entries (OUT_PTR)
  | plan (p : Plan) (bs : HostRead)                         -- the PLAN section's bytes and what they state
  | place (p : List Place) (bs : HostRead)
  | done                                                    -- the last byte has been taken
  | quire (d : Fin 16) (bs : HostRead)                                  -- a whole quire image
  | stream (port gen : Nat) (expect : Bytes) (chain : List Nat)   -- the head of a couching stream: port, GEN, EXPECT, chain (R331)
  | broken                                                  -- the stream ended early or was refused (R332)
  deriving DecidableEq, Repr

/-- Parsed constants of an image body, whose byte format the spec leaves to the image (R448, R465). -/
structure ThermConst where
  pFixed : Nat := 1800
  eConv  : Nat := 689
  vBias  : Nat := 0
  vStack : Nat := 0
  vOpt   : Nat := 0
  pHub   : Nat := 0
  eta    : Nat := 65536
  diodePoint : List Nat := []
  neighbours : List (List Nat) := []
  a : List (Bool × Nat × SMap Int) := []    -- conservative, TICK_PERIOD, entries of A in 2^-16
  b : List (Bool × Nat × SMap Int) := []
  c : List (Bool × Nat × SMap Int) := []
  g : List (Bool × Nat × SMap Int) := []
  deriving DecidableEq, Repr

/-- Parsed constants of a CAL body (R141, R150, R172, R176): telemetry corrections, ageing coefficients, the row patterns of
calibration in sets of four, and the patterns that initial calibration writes into the data and check columns. -/
structure CalConst where
  chOfs  : SMap Int := []
  chGain : SMap Int := []
  ageT   : Int := 0
  ageV   : Int := 0
  pats   : List (List (BitVec 256)) := []
  cells  : SMap (BitVec 256) := []
  deriving DecidableEq, Repr

/-- An image as it stands in a flash slot or arrives through the update engine: header and body bytes, and the parsed
constants of the kinds whose body states some. -/
structure ImageIn where
  bytes   : Bytes := []
  therm   : ThermConst := {}
  cal     : CalConst := {}
  classes : Nat := 0                  -- field-test classes a KRYTIK image defines
  deriving DecidableEq, Repr

/-- A configuration-space write that the model acts on (R392, R394, R405). -/
inductive ConfigField where
  | busMaster (on : Bool)
  | vfEnable (n : Fin 17)              -- VF Enable with NumVFs n, 0 for VF Enable clear
  | msixEnable (on : Bool)
  | functionMask (on : Bool)
  deriving DecidableEq, Repr

/-- What a failed host read was of (R411). -/
inductive ReadKind where
  | ring (d : Fin 16)
  | prompt (d : Fin 16) (session : Nat)
  | swapIn (session : Nat)
  | reamImage (slot : Fin 16)
  | quireImage (d slot : Fin 16)
  | reamDesc
  | quireDesc (d : Fin 16)
  | chainList (slot : Fin 16)
  | owner
  | token
  deriving DecidableEq, Repr

/-- The sequenced blocks of R504 and R505. -/
inductive SeqBlock where
  | vat (v : Fin 64)
  | sched
  | hub | sess | kv | strm | ream | err
  | cal
  | therm
  | felt (p : Fin 6)
  | test
  deriving DecidableEq, Repr

/-- A neighbour's answers in SESSION (R373): the results of its signatures and its configuration. -/
structure NeighIn where
  chainOk   : Bool
  sigOk     : Bool
  debugLocked : Bool
  digests   : List Bytes              -- its active image digests, kinds 1 to 7
  torusId   : Nat
  dims      : Nat × Nat × Nat
  period    : Nat
  proto     : Nat
  nodeId    : Nat
  pubKey    : Bytes                   -- its ephemeral ECDHE key
  transcript : Bytes                  -- SHA-384 of both ends' messages
  lower     : Bool                    -- its messages come first in the transcript: it takes the second key
  entropy   : Bool := true            -- this module's health tests pass
  deriving DecidableEq, Repr

/-- A frame as decoded by the port (R351 to R354): its header, payload and what FEC and the tag check found. -/
structure FrameIn where
  kind    : Nat
  vc      : Nat
  first   : Bool
  last    : Bool
  deckle  : Nat
  dest    : Nat
  src     : Nat
  seq     : Nat
  payload : Bytes
  ack     : Nat := 0                  -- frames of the other direction received in order
  replay  : Bool := false             -- the other end has discarded the frame after those
  errs    : List (Nat × Nat) := []    -- bytes of the 4,096 in error, each with the lane that carried it
  tagBad  : Bool := false             -- the GCM tag fails
  deriving DecidableEq, Repr

/-- A TIME frame (R368) with the time at which it was received, in 0.5 ns. -/
structure TimeIn where
  tick   : Nat
  epoch  : Nat
  digest : Nat
  err    : Int
  tThere : Int
  tHere  : Int
  deriving DecidableEq, Repr

/-- A membership entry on VC0 (R378). -/
structure MembIn where
  kind : Nat
  dim  : Nat
  node : Nat
  deriving DecidableEq, Repr

/-- The requester of an SPDM exchange (R427, R430). -/
inductive Requester where
  | pf
  | vf (n : Fin 16)
  | mgmt
  deriving DecidableEq, Repr

/-- IDE key management acts of R407 and R408. -/
inductive IdeAct where
  | program (linkStream : Bool)
  | go (linkStream : Bool)
  | stop (linkStream : Bool)
  deriving DecidableEq, Repr

/-- Test access port instructions of R531. -/
inductive TapInst where
  | bypass | idcode | samplePreload | extest | clamp | highz | scan
  deriving DecidableEq, Repr

/-- A result of a stress window (R518). -/
structure TestResult where
  cls     : Nat
  element : Nat
  pattern : Nat
  group   : Nat := 0xFFFF
  index   : Nat := 0
  row     : Nat := 0
  fails   : Nat := 1
  temp    : Nat := 0
  deriving DecidableEq, Repr

/-- What initial calibration measured on one group (R176): the converters' measurements, the calibration blocks in the order
run, and the stuck bits that the read-back of its writes found (R111): those of the reference columns, and those of the
tiles written when the vat is filled again (R548). -/
structure InitIn where
  group  : Nat
  convs  : List (Nat × ConvIn) := []
  blocks : List BlockIn := []
  stuck  : List StuckIn := []
  deriving DecidableEq, Repr

/-- The commands, one per row of the table. -/
inductive Instr where
  | vin64Loss
  | vin64Qualified
  | alwaysOnResetExit (refSel clock : Bool)
  | modResetN (longPulse refSel clock : Bool)
  | hostLinkDown (perst : Bool)
  | hostLinkUp
  | flrVf (n : Fin 16) (entropy : Bool)
  | flrPf (entropy : Bool)
  | d3hot (fn : Fin 17) (enter : Bool)
  | pwrOnBatt (level : Bool)
  | refLost
  | thermTrip (model : Bool) (index : Fin 512)
  | thermtripRelease
  | pstageFault
  | clkLock (v : Fin 64)
  | ideFail
  | bootDirectory (copy0 copy1 : Bytes)
  | bootImages (slots : List ImageIn)
  | bootIdentity (rec0 rec1 : Bytes) (entropy : Bool)
  | hostPortStart
  | linkTrained (ms : Nat)
  | tickBoundary (strobe : StrobeIn) (rings : List RingIn)
  | calibrationWindow (v : Fin 64) (blocks : List BlockIn)
  | evaluationPhase
  | intermediateStrobe (k : Fin 8) (strobe : StrobeIn)
  | allocationPhase
  | publicationPhase
  | selfStrobe (strobe : StrobeIn)
  | tickRunSet
  | tickRunClear
  | tickPeriod (value : Nat)
  | tileMvm (op : OpRef) (faults : List CodeFault) (sampled : List (Nat × Nat))
  | residual (op : OpRef) (found : PassIn)
  | sizing (op : OpRef)
  | attnBlock (op : OpRef)
  | vector (op : OpRef)
  | kvAppend (op : OpRef)
  | exchange (op : OpRef) (peer : PeerIn)
  | sample (op : OpRef)
  | ctxSave (op : OpRef)
  | ctxRestore (op : OpRef)
  | overrun (d : Fin 16) (seq : Nat)
  | openSession (d : Fin 16) (header history : HostRead)
  | prefill (d : Fin 16) (tokens : HostRead)
  | generate (d : Fin 16)
  | pause (d : Fin 16)
  | resume (d : Fin 16)
  | cancel (d : Fin 16)
  | checkpoint (d : Fin 16)
  | checkpointWrite (d : Fin 16) (session : Nat) (log : HostRead)
  | close (d : Fin 16)
  | setQuire (d : Fin 16)
  | ttlExpired (session : Nat)
  | swapOutComplete (session : Nat) (readBack : HostRead)
  | swapInComplete (session : Nat) (slots : List HostRead)
  | hostReadFail (what : ReadKind)
  | load (desc chain : HostRead)
  | reamImageData (slot : Fin 16) (part : ImagePart)
  | switch (desc : HostRead)
  | discard (desc : HostRead)
  | unload (desc : HostRead)
  | stuckExport (desc : HostRead)
  | couchRecv (desc : HostRead)
  | qload (d : Fin 16) (desc : HostRead)
  | qunload (d : Fin 16) (desc : HostRead)
  | rewriteComplete (slot : Fin 16) (stuck : List (Nat × Nat × List StuckIn))
  | drainLimitExpiry (slot : Fin 16) (d : Fin 16)
  | vatReplace (v : Fin 64)
  | spareRewriteDone (v : Fin 64) (group : Nat) (stuck : List StuckIn)
  | converterCalDone (v : Fin 64) (group : Nat) (conv : Fin 9) (meas : ConvIn)
  | fallbackStart (v : Fin 64)
  | fallbackEnd (v : Fin 64) (convs : List ConvIn) (blocks : List BlockIn)
  | marginWindowEnd
  | periodicReplan
  | replanCandidateEnd (v : Fin 64) (group : Nat)
  | replanReq (all : Bool) (v : Fin 64)
  | initCal (mask : Nat)
  | initCalDone (v : Fin 64) (groups : List InitIn)
  | marginRecordDue
  | recordWriteDone (ok : Bool)
  | recShut
  | refbufEn (v : Fin 64) (value : Bool)
  | refbufReady (v : Fin 64) (unsettled : List Nat)
  | corrData (v : Fin 64) (value : Option Nat)
  | histSel (value : Nat)
  | histData
  | scrData (v : Fin 64) (value : Option Nat)
  | seqFault (b : SeqBlock)
  | seqReloadDone (b : SeqBlock) (digestOk : Bool)
  | hubHang (refSel clock : Bool)
  | managementEvent
  | pageErrClear (page : Nat) (fn : Fin 17) (bits : Nat)
  | pageErrInj (page : Nat) (value : Nat)
  | pageLatch (page : Nat) (value : Nat)
  | vatRun (v : Fin 64)
  | vatDrain (v : Fin 64)
  | vatService (v : Fin 64)
  | deckOpen (d : Fin 16) (run : Bool) (entropy : Bool)
  | sqEn (d : Fin 16) (fn : Fin 17) (value : Bool)
  | cqEn (d : Fin 16) (fn : Fin 17) (value : Bool)
  | retirePage (stack : Fin 8) (page : Fin 1048576)
  | unretire (stack : Fin 8) (page : Fin 1048576)
  | registerWrite (fn : Fin 17) (offset size value : Nat)
  | pldmSettingWrite (coolant : Bool) (value : Nat)
  | portEn (p : Fin 6) (value : Bool)
  | laneDrain (p : Fin 6) (mask : Nat)
  | laneFail (p : Fin 6) (lane : Fin 32)
  | laneTestPass (p : Fin 6) (lane : Fin 32)
  | portTrained (p : Fin 6) (lanes : Nat)
  | linkSession (p : Fin 6) (neigh : NeighIn)
  | sessionRetry (p : Fin 6)
  | rekeyDue (p : Fin 6) (neigh : NeighIn)
  | rekeyFail (p : Fin 6)
  | frameReceive (p : Fin 6) (frame : FrameIn)
  | exchangeCompletion (d : Fin 16) (seq : Nat) (message : DoneIn)
  | timeFrame (p : Fin 6) (frame : TimeIn)
  | timeFrameMissing (p : Fin 6)
  | alignLost
  | autoRejoin (p : Fin 6)
  | firstAlignedStrobe (p : Fin 6) (present : List Nat) (down : List (Nat × Nat))
  | membershipProposal (p : Fin 6) (by_ number at_ : Nat) (entries : List MembIn)
  | leave
  | capWaitSignal (d : Fin 16) (seq : Nat)
  | setKey (cmd : HostRead)
  | clearKey (cmd : HostRead)
  | reqSigOn (cmd : HostRead)
  | reqSigOff (cmd : HostRead)
  | lock (cmd : HostRead)
  | unlock (cmd : HostRead)
  | chal
  | dbgToken (token : HostRead)
  | keyGen
  | getCertificate (req : Requester) (slot : Nat)
  | getMeasurements (req : Requester) (nonce : Bytes) (indices : List Nat)
  | keyExchange (req : Requester) (pubKey transcript : Bytes) (entropy : Bool)
  | ideKm (act : IdeAct)
  | entdaa (addr : Fin 128)
  | setdasa (static addr : Fin 128)
  | write
  | updWin (data : BitVec 64) (drained : Nat) (flashOk : Bool)
  | imageVerifyDone (img : ImageIn) (readBack : Bool)
  | activate
  | updCancel
  | queryDeviceIdentifiers
  | getFirmwareParameters
  | requestUpdate
  | passComponentTable (ids : List Nat)
  | updateComponent (kind len : Nat)
  | firmwareData (data : Bytes) (flashOk : Bool)
  | activateFirmware (selfContained : Bool)
  | getStatus
  | cancelUpdateComponent
  | cancelUpdate
  | start
  | abort
  | stressPhaseEnd (results : List TestResult) (groups : List InitIn)
  | vin64AlwaysOnLoss
  | perstNRelease
  | configurationWrite (fn : Fin 17) (field : ConfigField)
  | alwaysOnDomainFail
  | tapInstruction (inst : TapInst)
  | i3cHdrEntry
  | portLightReceived (p : Fin 6)
  | directoryWritten
  | checkpointWritten (session : Nat)
  deriving DecidableEq, Repr

end Sys2Proof
end

