-- ==== Sys2Proof/Config.lean ====
section
/-! DEFINITION. What the spec leaves open and the model leaves free: constants without a body, so that no proof can
see what they are. A statement that holds of the model holds for every value of them. -/
namespace Sys2Proof.Config

/-- Draw number `n` of the security block's random generator (R425): session keys, swap keys, nonces, signature
randomness. The counter `free.draw` of the state says which draw is next. -/
opaque drbg : Nat → BitVec 384

/-- Place number `n` that an allocation takes in a stack, as a page key (R257, R602: the spec does not say which of the
possible places is taken). The counter `free.page` of the state says which choice is next. -/
opaque pageChoice : Nat → Nat

/-- The sign and payload bits of a NaN that an invalid operation on these operands produces (R57 names no NaN). -/
opaque nanBits : BitVec 32 → BitVec 32 → BitVec 32

/-- Output `n` of a plan VECTOR operation whose arithmetic the spec does not give (norms, activation functions and
positional transforms; R220, R248): function number, inputs, output index. -/
opaque vectorFn : Nat → List (BitVec 32) → Nat → BitVec 32

/-- AGE_NOW after a tick strobe, in 1/16 count (R172 gives neither the normalisation's form nor the filter's): AGE_NOW
before it, whether a count had been taken before, the count, the vat's core voltage and hottest point, and the
coefficients of the CAL image. -/
opaque ageFilter : Nat → Bool → Nat → Nat → Int → Int → Int → Nat

end Sys2Proof.Config
end

