-- ==== Sys2Proof/Machine/Map.lean ====
section
/-! DEFINITION. Reading and writing the sparse tables of the state, and the bit-field and byte-order helpers of every
layout. One canonical form per table: keys strictly rising, no default value listed. -/
namespace Sys2Proof.Machine

/-- The value of key `k`; `d` is what an unlisted key reads as. -/
def get {α : Type} (d : α) : SMap α → Nat → α
  | [], _ => d
  | (i, v) :: r, k => if i = k then v else get d r k

/-- Remove key `k`. -/
def del {α : Type} : SMap α → Nat → SMap α
  | [], _ => []
  | (i, v) :: r, k => if i = k then del r k else (i, v) :: del r k

/-- Insert `v` at key `k`, in key order. -/
def ins {α : Type} : SMap α → Nat → α → SMap α
  | [], k, v => [(k, v)]
  | (i, w) :: r, k, v =>
    if i = k then (k, v) :: r else if k < i then (k, v) :: (i, w) :: r else (i, w) :: ins r k v

/-- Write `v` at key `k`; a default value leaves no pair behind, so equal tables are equal lists. -/
def put {α : Type} [DecidableEq α] (d : α) (m : SMap α) (k : Nat) (v : α) : SMap α :=
  if v = d then del m k else ins m k v

/-- Every key of the list lies above `n`. -/
def keysAbove {α : Type} (n : Nat) : SMap α → Bool
  | [] => true
  | (i, _) :: r => decide (n < i) && keysAbove i r

/-- The canonical form of a table whose default is `d`. -/
def wfMap {α : Type} [DecidableEq α] (d : α) : SMap α → Bool
  | [] => true
  | (i, v) :: r => decide (v ≠ d) && keysAbove i r && wfMap d r

/-- Bits `hi` down to `lo` of `w`. -/
def bits (w hi lo : Nat) : Nat := w / 2 ^ lo % 2 ^ (hi + 1 - lo)

/-- Bit `i` of `w`. -/
def bit (w i : Nat) : Bool := w / 2 ^ i % 2 == 1

/-- `w` with bits `hi` down to `lo` replaced by `v`. -/
def setBits (w hi lo v : Nat) : Nat :=
  w - bits w hi lo * 2 ^ lo + v % 2 ^ (hi + 1 - lo) * 2 ^ lo

/-- A flag as a bit. -/
def b2n (b : Bool) : Nat := if b then 1 else 0

/-- The little-endian value of a byte string (R53). -/
def leNat : Bytes → Nat
  | [] => 0
  | b :: r => b.toNat + 256 * leNat r

/-- `n` bytes of `v`, little-endian (R53). -/
def leBytes : Nat → Nat → Bytes
  | 0, _ => []
  | n + 1, v => BitVec.ofNat 8 v :: leBytes n (v / 256)

/-- The big-endian value of a byte string (hash and curve numbers). -/
def beNat (bs : Bytes) : Nat := bs.foldl (fun a b => a * 256 + b.toNat) 0

/-- `n` bytes of `v`, big-endian. -/
def beBytes (n v : Nat) : Bytes := (leBytes n v).reverse

/-- The `n` bytes at offset `o`; bytes past the end read 0. -/
def slice (bs : Bytes) (o n : Nat) : Bytes :=
  let r := (bs.drop o).take n
  r ++ List.replicate (n - r.length) 0#8

/-- The little-endian field of `n` bytes at offset `o`. -/
def field (bs : Bytes) (o n : Nat) : Nat := leNat (slice bs o n)

/-- Every byte of the string is zero. -/
def allZero (bs : Bytes) : Bool := bs.all (· == 0#8)

/-- The two's complement value of the low `n` bits of `v`. -/
def toSigned (n v : Nat) : Int :=
  let w := v % 2 ^ n
  if w < 2 ^ (n - 1) then (w : Int) else (w : Int) - (2 ^ n : Nat)

/-- The low `n` bits of the two's complement of `v`. -/
def ofSigned (n : Nat) (v : Int) : Nat := (v % ((2 ^ n : Nat) : Int)).toNat

/-- A counter of `n` bits that saturates. -/
def satAdd (n v k : Nat) : Nat := if v + k < 2 ^ n then v + k else 2 ^ n - 1

/-- Rounded-up division. -/
def ceilDiv (a b : Nat) : Nat := (a + b - 1) / b

/-- Clamp an integer into a range. -/
def clampInt (lo hi v : Int) : Int := if v < lo then lo else if hi < v then hi else v

/-- Integer division rounded to nearest, ties to even; `b` positive. -/
def divRne (a : Int) (b : Nat) : Int :=
  let q := a / (b : Int)
  let r := (a % (b : Int)).toNat
  if 2 * r < b then q else if b < 2 * r then q + 1 else if q % 2 = 0 then q else q + 1

/-- Element `i` of a list of numbers; 0 past the end. -/
def nth (l : List Nat) (i : Nat) : Nat := l.getD i 0

/-- Replace element `i`. -/
def setAt {α : Type} (l : List α) (i : Nat) (v : α) : List α := l.set i v

/-- The numbers whose bit is set in a mask of `n` bits, ascending. -/
def maskBits (n m : Nat) : List Nat := (List.range n).filter (fun i => bit m i)

/-- Sum of `f` over the numbers below `n`. -/
def sumTo (n : Nat) (f : Nat → Nat) : Nat := (List.range n).foldl (fun a i => a + f i) 0

/-- Insertion of `a` into a list sorted by `le`, after every element that does not come later. -/
def insertBy {α : Type} (le : α → α → Bool) (a : α) : List α → List α
  | [] => [a]
  | b :: r => if le b a then b :: insertBy le a r else a :: b :: r

/-- Stable sort by insertion. -/
def sortBy {α : Type} (le : α → α → Bool) (l : List α) : List α :=
  l.foldl (fun acc a => insertBy le a acc) []

end Sys2Proof.Machine
end

