-- ==== Sys2Proof/Machine/Float.lean ====
section
/-! DEFINITION. The floating-point rules of R52 to R58: bf16, fp16, fp8 E4M3 and fp32 on their patterns. Every result is
computed exactly as an integer significand and a power of two and rounded once; subnormals are flushed (R55). -/
namespace Sys2Proof.Machine

/-- An unpacked number: `num neg m e` is ± m · 2^e, and a significand of 0 is a signed zero. -/
inductive FVal where
  | nan
  | inf (neg : Bool)
  | num (neg : Bool) (m : Nat) (e : Int)
  deriving DecidableEq, Repr

/-- The number of bits of `m`. -/
def bitLen (m : Nat) : Nat := if m = 0 then 0 else Nat.log2 m + 1

/-- m · 2^(e − q) rounded to an integer, to nearest with ties to even. -/
def shiftRne (m : Nat) (e q : Int) : Nat :=
  if q ≤ e then m * 2 ^ (e - q).toNat
  else
    let k := (q - e).toNat
    let h := m / 2 ^ k
    let r := m % 2 ^ k
    if 2 * r < 2 ^ k then h else if 2 ^ k < 2 * r then h + 1 else if h % 2 = 0 then h else h + 1

/-- m · 2^(e − q) rounded up to an integer. -/
def shiftUp (m : Nat) (e q : Int) : Nat :=
  if q ≤ e then m * 2 ^ (e - q).toNat else ceilDiv m (2 ^ (q - e).toNat)

/-- Unpack an IEEE pattern of `ew` exponent bits and `fw` fraction bits; a subnormal input is a zero of its sign (R55). -/
def unpackIeee (ew fw : Nat) (w : Nat) : FVal :=
  let neg := bit w (ew + fw)
  let ex := bits w (ew + fw - 1) fw
  let fr := w % 2 ^ fw
  if ex = 2 ^ ew - 1 then (if fr = 0 then .inf neg else .nan)
  else if ex = 0 then .num neg 0 0
  else .num neg (2 ^ fw + fr) ((ex : Int) - ((2 ^ (ew - 1) - 1 : Nat) : Int) - (fw : Int))

/-- The sign bit at position `p`. -/
def signAt (p : Nat) (neg : Bool) : Nat := if neg then 2 ^ p else 0

/-- Pack a significand of exactly `fw + 1` bits with exponent `e` of its last bit: infinity above the range, zero below
the normal range (R55). -/
def packIeee (ew fw : Nat) (neg : Bool) (m : Nat) (e : Int) : Nat :=
  let ex := e + (fw : Int) + ((2 ^ (ew - 1) - 1 : Nat) : Int)
  if ex ≥ ((2 ^ ew - 1 : Nat) : Int) then signAt (ew + fw) neg + (2 ^ ew - 1) * 2 ^ fw
  else if ex ≤ 0 then signAt (ew + fw) neg
  else signAt (ew + fw) neg + ex.toNat * 2 ^ fw + (m - 2 ^ fw)

/-- Round ± m · 2^e to `fw + 1` bits with an unbounded exponent range, then pack: a conversion (R54, R55). `sh` is the
rounding of a shifted significand. -/
def convIeee (sh : Nat → Int → Int → Nat) (ew fw : Nat) (neg : Bool) (m : Nat) (e : Int) : Nat :=
  if m = 0 then signAt (ew + fw) neg
  else
    let q := e + (bitLen m : Int) - ((fw + 1 : Nat) : Int)
    let r := sh m e q
    if r = 2 ^ (fw + 1) then packIeee ew fw neg (2 ^ fw) (q + 1) else packIeee ew fw neg r q

/-- Round the exact result ± m · 2^e of an fp32 operation as IEEE 754 does, then flush a subnormal result (R55, R57). -/
def arith32 (neg : Bool) (m : Nat) (e : Int) : F32 :=
  if m = 0 then BitVec.ofNat 32 (signAt 31 neg)
  else
    let q0 := e + (bitLen m : Int) - 24
    let q := if q0 < -149 then -149 else q0
    let r := shiftRne m e q
    if r < 2 ^ 23 then BitVec.ofNat 32 (signAt 31 neg)
    else if r = 2 ^ 24 then BitVec.ofNat 32 (packIeee 8 23 neg (2 ^ 23) (q + 1))
    else BitVec.ofNat 32 (packIeee 8 23 neg r q)

/-- Unpack fp32. -/
def un32 (x : F32) : FVal := unpackIeee 8 23 x.toNat

/-- +0 in fp32. -/
def f32Zero : F32 := 0#32

/-- 1.0 in fp32. -/
def f32One : F32 := 0x3F800000#32

/-- The NaN of an invalid operation: quiet; its sign and payload are free (R57 names none). -/
def f32Nan (a b : F32) : F32 :=
  0x7FC00000#32 ||| ((Config.nanBits a b) &&& 0x803FFFFF#32)

/-- Infinity. -/
def f32Inf (neg : Bool) : F32 := if neg then 0xFF800000#32 else 0x7F800000#32

/-- A subnormal fp32 as a zero of its sign; every other pattern as it is (R55). -/
def f32Flush (a : F32) : F32 := if bits a.toNat 30 23 = 0 then a &&& 0x80000000#32 else a

/-- Negation of the pattern. -/
def f32Neg (a : F32) : F32 := a ^^^ 0x80000000#32

/-- Magnitude. -/
def f32Abs (a : F32) : F32 := a &&& 0x7FFFFFFF#32

/-- True of a number that is neither an infinity nor a NaN (R58). -/
def f32Finite (a : F32) : Bool := bits a.toNat 30 23 != 255

/-- True of a NaN. -/
def f32IsNan (a : F32) : Bool := bits a.toNat 30 23 == 255 && a.toNat % 2 ^ 23 != 0

/-- Exact sum of two signed significands. -/
def addExact (n1 : Bool) (m1 : Nat) (e1 : Int) (n2 : Bool) (m2 : Nat) (e2 : Int) : Int × Int :=
  let e := if e1 ≤ e2 then e1 else e2
  let v1 : Int := (m1 * 2 ^ (e1 - e).toNat : Nat)
  let v2 : Int := (m2 * 2 ^ (e2 - e).toNat : Nat)
  ((if n1 then -v1 else v1) + (if n2 then -v2 else v2), e)

/-- fp32 addition, round to nearest even (R57). -/
def f32Add (a b : F32) : F32 :=
  match un32 a, un32 b with
  | .nan, _ => f32Nan a b
  | _, .nan => f32Nan a b
  | .inf s, .inf t => if s = t then f32Inf s else f32Nan a b
  | .inf s, .num _ _ _ => f32Inf s
  | .num _ _ _, .inf t => f32Inf t
  | .num n1 m1 e1, .num n2 m2 e2 =>
    if m1 = 0 then
      (if m2 = 0 then BitVec.ofNat 32 (signAt 31 (n1 && n2)) else arith32 n2 m2 e2)
    else if m2 = 0 then arith32 n1 m1 e1
    else
      let (v, e) := addExact n1 m1 e1 n2 m2 e2
      if v = 0 then f32Zero else arith32 (decide (v < 0)) v.natAbs e

/-- fp32 subtraction. -/
def f32Sub (a b : F32) : F32 := if f32IsNan b then f32Nan a b else f32Add a (f32Neg b)

/-- fp32 multiplication. -/
def f32Mul (a b : F32) : F32 :=
  match un32 a, un32 b with
  | .nan, _ => f32Nan a b
  | _, .nan => f32Nan a b
  | .inf s, .inf t => f32Inf (s != t)
  | .inf s, .num t m _ => if m = 0 then f32Nan a b else f32Inf (s != t)
  | .num s m _, .inf t => if m = 0 then f32Nan a b else f32Inf (s != t)
  | .num n1 m1 e1, .num n2 m2 e2 => arith32 (n1 != n2) (m1 * m2) (e1 + e2)

/-- fp32 division: the quotient is taken to 60 bits and a sticky bit before the one rounding. -/
def f32Div (a b : F32) : F32 :=
  match un32 a, un32 b with
  | .nan, _ => f32Nan a b
  | _, .nan => f32Nan a b
  | .inf _, .inf _ => f32Nan a b
  | .inf s, .num t _ _ => f32Inf (s != t)
  | .num s _ _, .inf t => BitVec.ofNat 32 (signAt 31 (s != t))
  | .num n1 m1 e1, .num n2 m2 e2 =>
    if m2 = 0 then (if m1 = 0 then f32Nan a b else f32Inf (n1 != n2))
    else if m1 = 0 then BitVec.ofNat 32 (signAt 31 (n1 != n2))
    else
      let n := m1 * 2 ^ 60
      arith32 (n1 != n2) (2 * (n / m2) + (if n % m2 = 0 then 0 else 1)) (e1 - e2 - 61)

/-- The value of a finite fp32 scaled to an integer order key: comparisons of R62, R304; −0 equals +0. -/
def f32Key (a : F32) : Int :=
  let m : Int := (a.toNat % 2 ^ 31 : Nat)
  let m := if bits a.toNat 30 23 = 0 then 0 else m
  if bit a.toNat 31 then -m else m

/-- The maximum of R250: NaN when any operand is NaN, +0 for zeros of both signs. -/
def f32Max (a b : F32) : F32 :=
  if f32IsNan a ∨ f32IsNan b then f32Nan a b
  else if f32Key a = 0 ∧ f32Key b = 0 then
    (if bit a.toNat 31 ∧ bit b.toNat 31 then 0x80000000#32 else f32Zero)
  else if f32Key a < f32Key b then b else a

/-- An integer as fp32, round to nearest even. -/
def f32OfInt (v : Int) : F32 := arith32 (decide (v < 0)) v.natAbs 0

/-- fp32 multiplied by a power of two. -/
def f32Scale (a : F32) (k : Int) : F32 :=
  match un32 a with
  | .num n m e => arith32 n m (e + k)
  | _ => a

/-- rint: a finite fp32 to the nearest integer, ties to even (R62). -/
def f32Rint (a : F32) : Int :=
  match un32 a with
  | .num n m e =>
    let r : Int := (shiftRne m e 0 : Nat)
    if n then -r else r
  | _ => 0

/-- fp32 to bf16, to nearest even (R54). -/
def toBf16 (a : F32) : BF16 :=
  match un32 a with
  | .nan => BitVec.ofNat 16 ((f32Nan a a).toNat / 2 ^ 16)
  | .inf n => BitVec.ofNat 16 (signAt 15 n + 0x7F80)
  | .num n m e => BitVec.ofNat 16 (convIeee shiftRne 8 7 n m e)

/-- fp32 to bf16 rounded toward +∞, for a value of no sign (R54, R62). -/
def bf16Up (a : F32) : BF16 :=
  match un32 a with
  | .num false m e => BitVec.ofNat 16 (convIeee shiftUp 8 7 false m e)
  | _ => toBf16 a

/-- bf16 to fp32, exact; a subnormal is a zero of its sign (R55). -/
def ofBf16 (b : BF16) : F32 :=
  match unpackIeee 8 7 b.toNat with
  | .num n m _ => if m = 0 then BitVec.ofNat 32 (signAt 31 n) else BitVec.ofNat 32 (b.toNat * 2 ^ 16)
  | _ => BitVec.ofNat 32 (b.toNat * 2 ^ 16)

/-- True of a bf16 that is neither an infinity nor a NaN. -/
def bf16Finite (b : BF16) : Bool := bits b.toNat 14 7 != 255

/-- fp32 to fp16, saturating (R56). -/
def toF16 (a : F32) : BitVec 16 :=
  match un32 a with
  | .nan => BitVec.ofNat 16 ((f32Nan a a).toNat / 2 ^ 16 % 2 ^ 15 / 8 ||| 0x7E00)
  | .inf n => BitVec.ofNat 16 (signAt 15 n + 0x7BFF)
  | .num n m e =>
    let w := convIeee shiftRne 5 10 n m e
    if bits w 14 10 = 31 then BitVec.ofNat 16 (signAt 15 n + 0x7BFF) else BitVec.ofNat 16 w

/-- fp32 to fp8 E4M3: saturates at ±448 and flushes below 2^−6 (R55, R56). -/
def toFp8 (a : F32) : BitVec 8 :=
  match un32 a with
  | .nan => BitVec.ofNat 8 ((f32Nan a a).toNat / 2 ^ 24 ||| 0x7F)
  | .inf n => BitVec.ofNat 8 (signAt 7 n + 0x7E)
  | .num n m e =>
    if m = 0 then BitVec.ofNat 8 (signAt 7 n)
    else
      let q := e + (bitLen m : Int) - 4
      let r0 := shiftRne m e q
      let r := if r0 = 16 then 8 else r0
      let q := if r0 = 16 then q + 1 else q
      let ex := q + 3 + 7
      if ex ≤ 0 then BitVec.ofNat 8 (signAt 7 n)
      else if ex > 15 ∨ (ex = 15 ∧ r = 15) then BitVec.ofNat 8 (signAt 7 n + 0x7E)
      else BitVec.ofNat 8 (signAt 7 n + ex.toNat * 8 + (r - 8))

/-- fp8 E4M3 to fp32, exact (R52, R55). -/
def ofFp8 (b : BitVec 8) : F32 :=
  let w := b.toNat
  let n := bit w 7
  let ex := bits w 6 3
  if w % 128 = 127 then BitVec.ofNat 32 (signAt 31 n + 0x7FC00000)
  else if ex = 0 then BitVec.ofNat 32 (signAt 31 n)
  else arith32 n (8 + w % 8) ((ex : Int) - 10)

/-- ln 2 to 200 fraction bits. -/
def ln2Fix : Nat := 1113844574712631719546256151097547306333272293549090750737802

/-- Terms of the exponential series of `y` / 2^200: `t` is the last term, `k` the next index. -/
def expTerms (y : Nat) : Nat → Nat → Nat → Nat → Nat
  | 0, _, _, acc => acc
  | fuel + 1, k, t, acc =>
    let t' := t * y / 2 ^ 200 / k
    expTerms y fuel (k + 1) t' (acc + t')

/-- exp2u of R251: 2^x rounded to the nearest fp32, ties to even. -/
def exp2u (x : F32) : F32 :=
  match un32 x with
  | .nan => x
  | .inf n => if n then f32Zero else x
  | .num n m e =>
    if m = 0 then f32One
    else if e ≥ 8 ∨ (m * 2 ^ (e + 200).toNat) / 2 ^ 200 > 400 then (if n then f32Zero else f32Inf false)
    else
      let a : Nat := if e + 200 < 0 then 0 else m * 2 ^ (e + 200).toNat
      let v : Int := if n then -(a : Int) else (a : Int)
      let w : Int := v / ((2 ^ 200 : Nat) : Int)
      let f : Nat := (v % ((2 ^ 200 : Nat) : Int)).toNat
      if f = 0 then arith32 false 1 w
      else
        let y := f * ln2Fix / 2 ^ 200
        let r := expTerms y 60 1 (2 ^ 200) (2 ^ 200)
        arith32 false (2 * r + 1) (w - 201)

/-- Fraction bits of log2 by repeated squaring: `m` in [1, 2) with 250 fraction bits. -/
def logBits : Nat → Nat → Nat → Nat
  | 0, _, acc => acc
  | fuel + 1, m, acc =>
    let s := m * m / 2 ^ 250
    if s ≥ 2 ^ 251 then logBits fuel (s / 2) (2 * acc + 1) else logBits fuel s (2 * acc)

/-- log2u of R305: log2 x rounded to the nearest fp32, ties to even. -/
def log2u (x : F32) : F32 :=
  match un32 x with
  | .nan => x
  | .inf n => if n then f32Nan x x else x
  | .num n m e =>
    if m = 0 then f32Inf true
    else if n then f32Nan x x
    else
      let k : Int := e + (bitLen m : Int) - 1
      let m250 := m * 2 ^ (251 - bitLen m)
      if m250 = 2 ^ 250 then f32OfInt k
      else
        let f : Int := (logBits 120 m250 0 : Nat)
        let v : Int := k * ((2 ^ 120 : Nat) : Int) + f
        arith32 (decide (v < 0)) (2 * v + 1).natAbs (-121)

end Sys2Proof.Machine
end

