-- ==== Sys2Proof/Machine/Bursts.lean ====
section
/-! DEFINITION. Activation bursts and their quantiser (R62 to R71), compensated pairs (R192, R193) and exponent-banded
chunks (R187, R188). -/
namespace Sys2Proof.Machine

/-! ### The burst (R66 to R69) -/

/-- Bytes of a burst. -/
def burstLen : Nat := 160

/-- A4 code of channel `i`. -/
def bCode (b : Bytes) (i : Nat) : Nat := field b (i / 2) 1 / 16 ^ (i % 2) % 16

def bScale (b : Bytes) : BF16 := BitVec.ofNat 16 (field b 0x80 2)
def bOutCnt (b : Bytes) : Nat := field b 0x82 1
def bFlags (b : Bytes) : Nat := field b 0x83 1
def bZero (b : Bytes) : Bool := bit (bFlags b) 1
def bResidual (b : Bytes) : Bool := bit (bFlags b) 0

/-- Outlier entry `k`: channel and value. -/
def bOutlier (b : Bytes) (k : Nat) : Nat × BF16 := (field b (0x84 + 3 * k) 1, BitVec.ofNat 16 (field b (0x85 + 3 * k) 2))

/-- The valid outlier entries. -/
def bOutliers (b : Bytes) : List (Nat × BF16) := (List.range (bOutCnt b)).map (bOutlier b)

/-- The 256 codes. -/
def bCodes (b : Bytes) : List Nat := (List.range 256).map (bCode b)

/-- Each element of a list is less than the next. -/
def rising : List Nat → Bool
  | a :: b :: r => decide (a < b) && rising (b :: r)
  | _ => true

/-- The checks of R69 fail. -/
def burstBad (b : Bytes) : Bool :=
  let outs := bOutliers b
  decide (8 < bOutCnt b) || !rising (outs.map (fun o => o.1)) || outs.any (fun o => bCode b o.1 != 8) ||
  (bZero b != (bCodes b).all (· == 8)) || bFlags b / 8 != 0 || !bf16Finite (bScale b) ||
  outs.any (fun o => !bf16Finite o.2)

/-- Rows driven in input plane `i` (R108). -/
def activeRows (codes : List Nat) (i : Nat) : Nat := (codes.filter (fun c => bit c i)).length

/-- A burst from its fields. -/
def burstBytes (codes : List Nat) (scale : BF16) (outs : List (Nat × BF16)) (flags : Nat) : Bytes :=
  let body := (List.range 128).map (fun j => BitVec.ofNat 8 (nth codes (2 * j) + 16 * nth codes (2 * j + 1)))
  let ents := outs.foldr (fun o a => leBytes 1 o.1 ++ leBytes 2 o.2.toNat ++ a) []
  body ++ leBytes 2 scale.toNat ++ leBytes 1 outs.length ++ leBytes 1 flags ++ ents ++
    List.replicate (28 - ents.length) 0#8

/-! ### The quantiser (R62 to R65, R71) -/

/-- Element `i` of a list of fp32 values; +0 past the end. -/
def fAt (x : List F32) (i : Nat) : F32 := x.getD i f32Zero

/-- Channels that become outliers: the first `k` non-zero ones by magnitude, then by number; ascending. -/
def pickOutliers (x : List F32) (k : Nat) : List Nat :=
  let mag := fun i => f32Key (f32Abs (fAt x i))
  let cand := (List.range 256).filter (fun i => mag i != 0)
  let best := (sortBy (fun i j => decide (mag j < mag i) || (mag i == mag j && decide (i ≤ j))) cand).take k
  sortBy (fun i j => decide (i ≤ j)) best

/-- 7.0 in fp32. -/
def f32Seven : F32 := 0x40E00000#32

/-- clamp(rint(x / s), −8, 7); 0 for s = 0. -/
def quantStep (x s : F32) : Int := if f32Key s = 0 then 0 else clampInt (-8) 7 (f32Rint (f32Div x s))

/-- A quantised block: outliers, scale, first-pass codes less 8, and the values after extraction. -/
structure Quant where
  outs  : List (Nat × BF16)
  scale : BF16
  q1    : List Int
  x     : List F32
  deriving DecidableEq, Repr

/-- Quantise 256 fp32 values with at most `k` outliers; none for a NaN, an infinity, or an outlier beyond bf16 (R58). -/
def quantBlock (x : List F32) (k : Nat) : Option Quant :=
  if !(List.range 256).all (fun i => f32Finite (fAt x i)) then none
  else
    let chans := pickOutliers x k
    let outs := chans.map (fun i => (i, toBf16 (fAt x i)))
    if outs.any (fun o => !bf16Finite o.2) then none
    else
      let y := (List.range 256).map (fun i => if chans.contains i then f32Zero else fAt x i)
      let m := y.foldl (fun a v => if f32Key a < f32Key (f32Abs v) then f32Abs v else a) f32Zero
      let s := bf16Up (f32Div m f32Seven)
      some { outs, scale := s, q1 := y.map (fun v => quantStep v (ofBf16 s)), x := y }

/-- The first-pass burst. -/
def Quant.burst (q : Quant) : Bytes :=
  let codes := q.q1.map (fun v => (v + 8).toNat)
  burstBytes codes q.scale q.outs (2 * b2n (codes.all (· == 8)))

/-- The residual scale s · 2^−4. -/
def Quant.scale2 (q : Quant) : BF16 := toBf16 (f32Scale (ofBf16 q.scale) (-4))

/-- r / s2 of channel `i`, rounded but not clamped. -/
def Quant.rest (q : Quant) (i : Nat) : Int :=
  let s2 := ofBf16 q.scale2
  if f32Key s2 = 0 then 0
  else f32Rint (f32Div (f32Sub (fAt q.x i) (f32Mul (f32OfInt (q.q1.getD i 0)) (ofBf16 q.scale))) s2)

/-- The residual burst of a precise layer. -/
def Quant.residual (q : Quant) : Bytes :=
  let r := (List.range 256).map q.rest
  let codes := r.map (fun v => (clampInt (-8) 7 v + 8).toNat)
  burstBytes codes q.scale2 [] (1 + 2 * b2n (codes.all (· == 8)) + 4 * b2n (r.any (fun v => decide (7 < v))))

/-! ### Pairs (R192, R193) -/

/-- An accumulator element: running value and compensation. -/
abbrev AccPair := F32 × F32

/-- A new pair. -/
def pairZero : AccPair := (f32Zero, f32Zero)

/-- Add one fp32 term into a pair. A comparison with a NaN is false. -/
def pairAdd (p : AccPair) (y : F32) : AccPair :=
  let t := f32Add p.1 y
  let ge := !f32IsNan p.1 && !f32IsNan y && decide (f32Key (f32Abs y) ≤ f32Key (f32Abs p.1))
  let e := if ge then f32Add (f32Sub p.1 t) y else f32Add (f32Sub y t) p.1
  (t, f32Add p.2 e)

/-- Fold pair `q` into pair `p`. -/
def pairMerge (p q : AccPair) : AccPair :=
  let r := pairAdd p q.1
  (r.1, f32Add r.2 q.2)

/-- The element's final value. -/
def pairResolve (p : AccPair) : F32 := f32Add p.1 p.2

/-! ### Banded chunks (R187, R188) -/

/-- The split v = m · 2^q of a bf16 value; a zero or subnormal one gives m = 0. -/
def bfSplit (b : BF16) : Int × Int :=
  let e := bits b.toNat 14 7
  let m : Int := ((128 + b.toNat % 128 : Nat) : Int)
  if e = 0 then (0, 0) else (if bit b.toNat 15 then -m else m, (e : Int) - 134)

/-- A chunk of products being summed. -/
structure Chunk where
  sum  : Int
  qmin : Int
  qmax : Int
  n    : Nat
  deriving DecidableEq, Repr

/-- The fp32 term a chunk emits. -/
def emitTerm (c : Chunk) (scale : F32) : F32 := f32Mul (f32Scale (f32OfInt c.sum) c.qmin) scale

/-- Take one product into an open chunk. -/
def chunkTake (c : Chunk) (m q w : Int) : Chunk :=
  let lo := min c.qmin q
  let base := c.sum * (2 ^ (c.qmin - lo).toNat : Nat)
  { sum := base + m * w * (2 ^ (q - lo).toNat : Nat), qmin := lo, qmax := max c.qmax q, n := c.n + 1 }

/-- The terms of `band_sum`, in emission order. -/
def bandTerms (scale : F32) : Option Chunk → List (Int × Int × Int) → List F32
  | none, [] => []
  | some c, [] => [emitTerm c scale]
  | o, (m, q, w) :: r =>
    if m = 0 ∨ w = 0 then bandTerms scale o r
    else
      let fresh : Chunk := { sum := m * w, qmin := q, qmax := q, n := 1 }
      match o with
      | none => bandTerms scale (some fresh) r
      | some c =>
        if c.n = 32 ∨ 11 < max c.qmax q - min c.qmin q then emitTerm c scale :: bandTerms scale (some fresh) r
        else bandTerms scale (some (chunkTake c m q w)) r

/-- Add the terms of `band_sum` into a pair. -/
def bandSum (p : AccPair) (terms : List (Int × Int × Int)) (scale : F32) : AccPair :=
  (bandTerms scale none terms).foldl pairAdd p

end Sys2Proof.Machine
end

