-- ==== Sys2Proof/Machine/Operands.lean ====
section
/-! DEFINITION. The operand layouts that commands carry as bytes: submission entries and the fields of each command
(R224, R284), descriptors, records and images of the other chapters. -/
namespace Sys2Proof.Machine

/-! ### Submission entries (R224, R284) -/

def eCode (e : Bytes) : Nat := field e 0 1
def eIrq (e : Bytes) : Bool := bit (field e 1 1) 0
def eSession (e : Bytes) : Nat := field e 4 4
def eTag (e : Bytes) : Nat := field e 8 8

/-- OPEN. -/
def oSeed (e : Bytes) : Nat := field e 0x10 8
def oMaxLen (e : Bytes) : Nat := field e 0x18 4
def oKvFmt (e : Bytes) : Nat := field e 0x1C 1
def oPriority (e : Bytes) : Nat := field e 0x1D 1
def oModel (e : Bytes) : Nat := field e 0x1E 2
def oQuire (e : Bytes) : Nat := field e 0x20 2
def oChunkLog2 (e : Bytes) : Nat := field e 0x22 1
def oMember (e : Bytes) : Nat := field e 0x23 1
def oHistAddr (e : Bytes) : Nat := field e 0x28 8
def oCkptAddr (e : Bytes) : Nat := field e 0x30 8

/-- PREFILL. -/
def pTokensAddr (e : Bytes) : Nat := field e 0x10 8
def pCount (e : Bytes) : Nat := field e 0x18 4

/-- GENERATE. -/
def gRing (e : Bytes) : Nat := field e 0x10 8 / 64 * 64
def gRingLog2 (e : Bytes) : Nat := field e 0x10 8 % 64
def gMaxTokens (e : Bytes) : Nat := field e 0x18 4
def gDrafts (e : Bytes) : Nat := field e 0x1C 1
def gSample (e : Bytes) : Bool := bit (field e 0x1D 1) 0
def gIrqTokens (e : Bytes) : Bool := bit (field e 0x1D 1) 1
def gTopK (e : Bytes) : Nat := field e 0x1E 2
def gInvT (e : Bytes) : F32 := BitVec.ofNat 32 (field e 0x20 4)
def gTopP (e : Bytes) : F32 := BitVec.ofNat 32 (field e 0x24 4)
/-- The stop tokens; 0xFFFF_FFFF marks an unused entry. -/
def gStops (e : Bytes) : List Nat :=
  [field e 0x28 4, field e 0x2C 4, field e 0x30 4, field e 0x34 4].filter (· != 0xFFFFFFFF)
def gLogits (e : Bytes) : Nat := field e 0x38 8

/-- PAUSE: ticks to live; 0 stands for 2^32. -/
def pauseTtl (e : Bytes) : Nat := if field e 0x10 4 = 0 then 2 ^ 32 else field e 0x10 4
/-- CANCEL. -/
def cancelTag (e : Bytes) : Nat := field e 0x10 8
/-- CHECKPOINT. -/
def cpAddr (e : Bytes) : Nat := field e 0x10 8
def cpSize (e : Bytes) : Nat := field e 0x18 4
def cpSnapshot (e : Bytes) : Bool := bit (field e 0x1C 1) 0
/-- SET_QUIRE. -/
def sqQuire (e : Bytes) : Nat := field e 0x10 2

/-! ### Checkpoint header (R509) -/

def ckMagic (h : Bytes) : Nat := field h 0x00 4
def ckVersion (h : Bytes) : Nat := field h 0x04 2
def ckFlags (h : Bytes) : Nat := field h 0x06 2
def ckSeed (h : Bytes) : Nat := field h 0x08 8
def ckGen (h : Bytes) : Nat := field h 0x10 8
def ckMaxLen (h : Bytes) : Nat := field h 0x48 4
def ckCommit (h : Bytes) : Nat := field h 0x4C 4
def ckFmt (h : Bytes) : Nat := field h 0x55 1
def ckPriority (h : Bytes) : Nat := field h 0x56 1
def ckChunk (h : Bytes) : Nat := field h 0x57 1
def ckQuire (h : Bytes) : Nat := field h 0x58 2
def ckSnapSeq (h : Bytes) : Nat := field h 0x68 8
def ckHistOff (h : Bytes) : Nat := field h 0xA8 4
def ckHistCnt (h : Bytes) : Nat := field h 0xAC 4
def ckHeadCrc (h : Bytes) : Nat := field h 0xF8 4

/-! ### Ream and quire descriptors (R327) -/

def dOp (b : Bytes) : Nat := field b 0x00 1
def dSlot (b : Bytes) : Nat := field b 0x01 1
def dDeckles (b : Bytes) : Nat := field b 0x02 2
def dSource (b : Bytes) : Nat := field b 0x04 1
def dInPort (b : Bytes) : Nat := field b 0x05 1
def dMember (b : Bytes) : Nat := field b 0x06 2
def dGen (b : Bytes) : Nat := field b 0x08 8
def dAddr (b : Bytes) : Nat := field b 0x10 8
def dLen (b : Bytes) : Nat := field b 0x18 8
def dExpect (b : Bytes) : Bytes := slice b 0x20 48
def dChainAddr (b : Bytes) : Nat := field b 0x50 8
def dChainLen (b : Bytes) : Nat := field b 0x58 4
def dStatus (b : Bytes) : Nat := field b 0x60 8

/-! ### Ream manifest (R318, R319) -/

def mImageLen (b : Bytes) : Nat := field b 0x008 8
def mSectCnt (b : Bytes) : Nat := field b 0x006 2
def mIfl (b : Bytes) : Nat := field b 0x020 4
def mModules (b : Bytes) : Nat := field b 0x024 2
def mFlags (b : Bytes) : Nat := field b 0x026 2
def mTileCnt (b : Bytes) : Nat := field b 0x028 4
def mLayers (b : Bytes) : Nat := field b 0x02C 2
def mExtraHeads (b : Bytes) : Nat := field b 0x02E 1
def mKvHeads (b : Bytes) : Nat := field b 0x02F 1
def mWidth (b : Bytes) : Nat := field b 0x030 4
def mVocab (b : Bytes) : Nat := field b 0x034 4
def mSig (b : Bytes) : Bytes := slice b 0xF00 96
def mKeySlot (b : Bytes) : Nat := field b 0xF60 1
/-- Section entry `i` of a manifest. -/
def mSection (b : Bytes) (i : Nat) : Bytes := slice b (0x100 + 80 * i) 80

/-! ### Tile records (R74, R75, R78) -/

/-- Bytes of a tile record. -/
def tileBytes : Nat := 8960

def tFlags (b : Bytes) : Nat := field b 0x02 2
def tIndex (b : Bytes) : Nat := field b 0x04 4
def tLayer (b : Bytes) : Nat := field b 0x08 2
def tMatrix (b : Bytes) : Nat := field b 0x0A 1
def tKBlock (b : Bytes) : Nat := field b 0x0C 2
def tNBlock (b : Bytes) : Nat := field b 0x0E 2
def tRows (b : Bytes) : Nat := field b 0x10 2
def tNeurons (b : Bytes) : Nat := field b 0x12 1
def tHead (b : Bytes) : Nat := field b 0x13 1
/-- W4 code of row `r`, neuron `n`. -/
def tCode (b : Bytes) (r n : Nat) : Nat := field b (0x40 + 32 * r + n / 2) 1 / 16 ^ (n % 2) % 16
/-- Check code of row `r`, group `g`. -/
def tCheck (b : Bytes) (r g : Nat) : Nat := field b (0x2040 + 2 * r) 2 / 4 ^ g % 4
/-- Output scale of neuron `n`. -/
def tScale (b : Bytes) (n : Nat) : BF16 := BitVec.ofNat 16 (field b (0x2240 + 2 * n) 2)
def tOutCount (b : Bytes) : Nat := field b 0x22C8 2
def tOutCrc (b : Bytes) : Nat := field b 0x22CC 4
def tGroupStart (b : Bytes) (g : Nat) : Nat := field b (0x22D0 + g) 1

end Sys2Proof.Machine
end

