-- ==== Sys2Proof/Machine/Crypto.lean ====
section
/-! DEFINITION. The checks and ciphers that the spec names by standard: CRC-32C (R75), SHA-384, HMAC and HKDF with
SHA-384 (R374, R421), AES-256-GCM (R271, R353) and ECDSA P-384 verification (R322, R420). They are the public
standards' functions, on byte strings; nothing in them is particular to the FD7. -/
namespace Sys2Proof.Machine

/-- One bit of the reflected CRC-32C. -/
def crcBit (c : Nat) : Nat := if c % 2 = 1 then (c / 2) ^^^ 0x82F63B78 else c / 2

/-- CRC-32C register after one byte. -/
def crcByte (c : Nat) (b : Byte) : Nat :=
  crcBit (crcBit (crcBit (crcBit (crcBit (crcBit (crcBit (crcBit (c ^^^ b.toNat))))))))

/-- CRC-32C of a byte string (R75). -/
def crc32c (bs : Bytes) : Nat := bs.foldl crcByte 0xFFFFFFFF ^^^ 0xFFFFFFFF

/-- The eight 64-bit words of a 512-bit number, highest first. -/
def eightWords (n : Nat) : List Nat := (List.range 8).map (fun i => n / 2 ^ (64 * (7 - i)) % 2 ^ 64)

/-- The round constants of SHA-384, eight to a number: word t is the first 64 fractional bits of the cube root of prime t. -/
def shaRoots : List Nat := [
  0x428a2f98d728ae227137449123ef65cdb5c0fbcfec4d3b2fe9b5dba58189dbbc3956c25bf348b53859f111f1b605d019923f82a4af194f9bab1c5ed5da6d8118,
  0xd807aa98a303024212835b0145706fbe243185be4ee4b28c550c7dc3d5ffb4e272be5d74f27b896f80deb1fe3b1696b19bdc06a725c71235c19bf174cf692694,
  0xe49b69c19ef14ad2efbe4786384f25e30fc19dc68b8cd5b5240ca1cc77ac9c652de92c6f592b02754a7484aa6ea6e4835cb0a9dcbd41fbd476f988da831153b5,
  0x983e5152ee66dfaba831c66d2db43210b00327c898fb213fbf597fc7beef0ee4c6e00bf33da88fc2d5a79147930aa72506ca6351e003826f142929670a0e6e70,
  0x27b70a8546d22ffc2e1b21385c26c9264d2c6dfc5ac42aed53380d139d95b3df650a73548baf63de766a0abb3c77b2a881c2c92e47edaee692722c851482353b,
  0xa2bfe8a14cf10364a81a664bbc423001c24b8b70d0f89791c76c51a30654be30d192e819d6ef5218d69906245565a910f40e35855771202a106aa07032bbd1b8,
  0x19a4c116b8d2d0c81e376c085141ab532748774cdf8eeb9934b0bcb5e19b48a8391c0cb3c5c95a634ed8aa4ae3418acb5b9cca4f7763e373682e6ff3d6b2b8a3,
  0x748f82ee5defb2fc78a5636f43172f6084c87814a1f0ab728cc702081a6439ec90befffa23631e28a4506cebde82bde9bef9a3f7b2c67915c67178f2e372532b,
  0xca273eceea26619cd186b8c721c0c207eada7dd6cde0eb1ef57d4f7fee6ed17806f067aa72176fba0a637dc5a2c898a6113f9804bef90dae1b710b35131c471b,
  0x28db77f523047d8432caab7b40c724933c9ebe0a15c9bebc431d67c49c100d4c4cc5d4becb3e42b6597f299cfc657e2a5fcb6fab3ad6faec6c44198c4a475817]

/-- The round constants, one word each. -/
def shaK : List Nat := shaRoots.flatMap eightWords

/-- Initial hash words of SHA-384: the first 64 fractional bits of the square roots of primes 9 to 16. -/
def shaInit : List Nat := eightWords
  0xcbbb9d5dc1059ed8629a292a367cd5079159015a3070dd17152fecd8f70e593967332667ffc00b318eb44a8768581511db0c2e0d64f98fa747b5481dbefa4fa4

/-- Words of the hash are 64 bits. -/
def w64 (n : Nat) : Nat := n % 2 ^ 64

/-- Rotate a 64-bit word right. -/
def rotr64 (x k : Nat) : Nat := x / 2 ^ k + x % 2 ^ k * 2 ^ (64 - k)

/-- The message schedule, newest word first, grown by `fuel` words. -/
def shaSched : Nat → List Nat → List Nat
  | 0, w => w
  | n + 1, w =>
    let a := nth w 1
    let b := nth w 14
    let s1 := rotr64 a 19 ^^^ rotr64 a 61 ^^^ (a / 2 ^ 6)
    let s0 := rotr64 b 1 ^^^ rotr64 b 8 ^^^ (b / 2 ^ 7)
    shaSched n (w64 (nth w 15 + s0 + nth w 6 + s1) :: w)

/-- One round on the eight working words. -/
def shaRound (v : List Nat) (kw : Nat) : List Nat :=
  match v with
  | [a, b, c, d, e, f, g, h] =>
    let s1 := rotr64 e 14 ^^^ rotr64 e 18 ^^^ rotr64 e 41
    let ch := (e &&& f) ^^^ ((2 ^ 64 - 1 - e) &&& g)
    let t1 := h + s1 + ch + kw
    let s0 := rotr64 a 28 ^^^ rotr64 a 34 ^^^ rotr64 a 39
    let mj := (a &&& b) ^^^ (a &&& c) ^^^ (b &&& c)
    [w64 (t1 + s0 + mj), a, b, c, w64 (d + t1), e, f, g]
  | _ => v

/-- Big-endian words of `n` bytes each. -/
def beWords (n : Nat) : Nat → Bytes → List Nat
  | 0, _ => []
  | k + 1, bs => beNat (bs.take n) :: beWords n k (bs.drop n)

/-- One 128-byte block. -/
def shaBlock (h : List Nat) (blk : Bytes) : List Nat :=
  let w := (shaSched 64 (beWords 8 16 blk).reverse).reverse
  let v := (List.zipWith (· + ·) shaK w).foldl shaRound h
  List.zipWith (fun a b => w64 (a + b)) h v

/-- `k` whole blocks. -/
def shaBlocks : Nat → List Nat → Bytes → List Nat
  | 0, h, _ => h
  | k + 1, h, bs => shaBlocks k (shaBlock h (bs.take 128)) (bs.drop 128)

/-- A hash in progress: the chaining words, the bytes of the block not yet full, and the count of bytes taken. -/
structure Hash where
  words : List Nat
  tail  : Bytes
  count : Nat
  deriving DecidableEq, Repr

/-- A fresh SHA-384. -/
def shaStart : Hash := { words := shaInit, tail := [], count := 0 }

/-- Take more bytes. -/
def shaTake (h : Hash) (bs : Bytes) : Hash :=
  let all := h.tail ++ bs
  let k := all.length / 128
  { words := shaBlocks k h.words (all.take (128 * k)), tail := all.drop (128 * k), count := h.count + bs.length }

/-- The 48-byte digest. -/
def shaEnd (h : Hash) : Bytes :=
  let pad := (239 - h.tail.length % 128) % 128
  let bs := h.tail ++ 0x80#8 :: List.replicate pad 0#8 ++ beBytes 16 (8 * h.count)
  ((shaBlocks (bs.length / 128) h.words bs).take 6).flatMap (beBytes 8)

/-- SHA-384 of a byte string. -/
def sha384 (bs : Bytes) : Bytes := shaEnd (shaTake shaStart bs)

/-- XOR every byte of a padded key with `p`. -/
def hmacPad (key : Bytes) (p : Byte) : Bytes :=
  let k := if key.length > 128 then sha384 key else key
  (slice k 0 128).map (· ^^^ p)

/-- HMAC-SHA-384. -/
def hmac384 (key msg : Bytes) : Bytes :=
  sha384 (hmacPad key 0x5C#8 ++ sha384 (hmacPad key 0x36#8 ++ msg))

/-- The ASCII bytes of a string. -/
def ascii (s : String) : Bytes := s.toList.map (fun c => BitVec.ofNat 8 c.toNat)

/-- Output blocks of the HKDF expansion. -/
def hkdfBlocks (prk info : Bytes) : Nat → Nat → Bytes → Bytes
  | 0, _, _ => []
  | n + 1, i, prev =>
    let t := hmac384 prk (prev ++ info ++ [BitVec.ofNat 8 i])
    t ++ hkdfBlocks prk info n (i + 1) t

/-- HKDF-SHA-384 (RFC 5869): `len` bytes. -/
def hkdf384 (ikm salt info : Bytes) (len : Nat) : Bytes :=
  (hkdfBlocks (hmac384 salt ikm) info (ceilDiv len 48) 1 []).take len

/-- Multiplication in the field of AES. -/
def gfMul : Nat → Nat → Nat → Nat → Nat
  | 0, _, _, acc => acc
  | n + 1, a, b, acc =>
    gfMul n (if a ≥ 128 then (2 * a) % 256 ^^^ 0x1B else 2 * a) (b / 2) (if b % 2 = 1 then acc ^^^ a else acc)

/-- Repeated field product: x^(2^k) chains give the inverse x^254. -/
def gfInv : Nat → Nat → Nat → Nat
  | 0, _, acc => acc
  | n + 1, sq, acc =>
    let s := gfMul 8 sq sq 0
    gfInv n s (gfMul 8 acc s 0)

/-- The AES substitution of one byte. -/
def aesSub (x : Nat) : Nat :=
  let v := gfInv 7 x 1
  let r := fun k => (v * 2 ^ k + v / 2 ^ (8 - k)) % 256
  v ^^^ r 1 ^^^ r 2 ^^^ r 3 ^^^ r 4 ^^^ 0x63

/-- Key expansion of AES-256, words of four bytes, newest first. -/
def aesExpand : Nat → Nat → Nat → List (List Nat) → List (List Nat)
  | 0, _, _, w => w
  | n + 1, i, rc, w =>
    let t := w.getD 0 []
    let t' :=
      if i % 8 = 0 then
        let u := (t.drop 1 ++ t.take 1).map aesSub
        (nth u 0 ^^^ rc) :: u.drop 1
      else if i % 8 = 4 then t.map aesSub else t
    let v := List.zipWith (· ^^^ ·) (w.getD 7 []) t'
    aesExpand n (i + 1) (if i % 8 = 0 then gfMul 8 rc 2 0 else rc) (v :: w)

/-- Split a list into `n` pieces of `k`. -/
def pieces {α : Type} (k : Nat) : Nat → List α → List (List α)
  | 0, _ => []
  | n + 1, l => l.take k :: pieces k n (l.drop k)

/-- The fifteen round keys of a 32-byte key. -/
def aesKeys (key : Bytes) : List (List Nat) :=
  let w0 := (pieces 4 8 (key.map BitVec.toNat)).reverse
  (pieces 4 15 (aesExpand 52 8 1 w0).reverse).map (fun q => q.flatten)

/-- Move the rows of the state. -/
def aesShift (s : List Nat) : List Nat :=
  (List.range 16).map (fun i => nth s ((i + 4 * (i % 4)) % 16))

/-- Mix one column. -/
def aesMix (c : List Nat) : List Nat :=
  (List.range 4).map (fun i =>
    gfMul 8 (nth c i) 2 0 ^^^ gfMul 8 (nth c ((i + 1) % 4)) 3 0 ^^^ nth c ((i + 2) % 4) ^^^ nth c ((i + 3) % 4))

/-- The rounds after the first key. -/
def aesRounds : List (List Nat) → List Nat → List Nat
  | [], s => s
  | [k], s => List.zipWith (· ^^^ ·) k (aesShift (s.map aesSub))
  | k :: r, s =>
    let m := ((pieces 4 4 (aesShift (s.map aesSub))).map aesMix).flatten
    aesRounds r (List.zipWith (· ^^^ ·) k m)

/-- AES-256 on one block, with expanded keys. -/
def aesBlock (ks : List (List Nat)) (blk : Nat) : Nat :=
  let s := (beBytes 16 blk).map BitVec.toNat
  let out := aesRounds (ks.drop 1) (List.zipWith (· ^^^ ·) (ks.getD 0 []) s)
  out.foldl (fun a b => a * 256 + b) 0

/-- Carry-less product in the field of GCM, bit by bit from the top of `x`. -/
def gcmMul : Nat → Nat → Nat → Nat → Nat
  | 0, _, _, z => z
  | n + 1, x, v, z =>
    gcmMul n x (if v % 2 = 1 then (v / 2) ^^^ (0xE1 * 2 ^ 120) else v / 2) (if bit x n then z ^^^ v else z)

/-- GHASH over whole blocks. -/
def ghash (h : Nat) (blocks : List Nat) : Nat := blocks.foldl (fun y b => gcmMul 128 (y ^^^ b) h 0) 0

/-- The 16-byte blocks of a string, the last one padded with zeros. -/
def gcmBlocks (bs : Bytes) : List Nat :=
  (pieces 16 (ceilDiv bs.length 16) bs).map (fun p => beNat (slice p 0 16))

/-- The counter-mode stream applied to the data. -/
def gcmStream (ks : List (List Nat)) (iv : Nat) : Nat → Nat → Bytes → Bytes
  | 0, _, _ => []
  | n + 1, i, bs =>
    let k := beBytes 16 (aesBlock ks (iv * 2 ^ 32 + i))
    List.zipWith (· ^^^ ·) (bs.take 16) k ++ gcmStream ks iv n (i + 1) (bs.drop 16)

/-- The GCM tag of a ciphertext. -/
def gcmTag (ks : List (List Nat)) (iv : Nat) (aad ct : Bytes) : Bytes :=
  let h := aesBlock ks 0
  let len := aad.length * 8 * 2 ^ 64 + ct.length * 8
  beBytes 16 (ghash h (gcmBlocks aad ++ gcmBlocks ct ++ [len]) ^^^ aesBlock ks (iv * 2 ^ 32 + 1))

/-- AES-256-GCM encryption: ciphertext and tag; `iv` is the 96-bit nonce as a number. -/
def gcmSeal (key : Bytes) (iv : Nat) (aad pt : Bytes) : Bytes × Bytes :=
  let ks := aesKeys key
  let ct := gcmStream ks iv (ceilDiv pt.length 16) 2 pt
  (ct, gcmTag ks iv aad ct)

/-- AES-256-GCM decryption: none when the tag fails. -/
def gcmOpen (key : Bytes) (iv : Nat) (aad ct tag : Bytes) : Option Bytes :=
  let ks := aesKeys key
  if gcmTag ks iv aad ct = tag then some (gcmStream ks iv (ceilDiv ct.length 16) 2 ct) else none

/-- The field prime of P-384. -/
def p384P : Nat := 2 ^ 384 - 2 ^ 128 - 2 ^ 96 + 2 ^ 32 - 1

/-- The group order of P-384. -/
def p384N : Nat :=
  0xFFFFFFFFFFFFFFFFFFFFFFFFFFFFFFFFFFFFFFFFFFFFFFFFC7634D81F4372DDF581A0DB248B0A77AECEC196ACCC52973

/-- The base point of P-384. -/
def p384G : Nat × Nat :=
  (0xAA87CA22BE8B05378EB1C71EF320AD746E1D3B628BA79B9859F741E082542A385502F25DBF55296C3A545E3872760AB7,
   0x3617DE4A96262C6F5D9E98BF9292DC29F8F41DBD289A147CE9DA3113B5F0B8C00A60B1CE1D7E819D7A431D7C90EA0E5F)

/-- The constant b of P-384. -/
def p384B : Nat :=
  0xB3312FA7E23EE7E4988E056BE3F82D19181D9C6EFE8141120314088F5013875AC656398D8A2ED19D2A85C8EDD3EC2AEF

/-- a · b modulo `m`. -/
def mulMod (m a b : Nat) : Nat := Nat.mod (Nat.mul a b) m

/-- a − b modulo `m`, for b ≤ m. -/
def subMod (m a b : Nat) : Nat := Nat.mod (Nat.add a (Nat.sub m b)) m

/-- Modular power, `n` exponent bits from the top. -/
def powMod (m b e : Nat) : Nat → Nat → Nat
  | 0, acc => acc
  | n + 1, acc =>
    let s := mulMod m acc acc
    powMod m b e n (if bit e n then mulMod m s b else s)

/-- Modular inverse in a prime field. -/
def invMod (m a : Nat) : Nat := powMod m (a % m) (m - 2) 384 1

/-- Twice a point (x / z², y / z³) in projective coordinates; z = 0 is the point at infinity. -/
def jacDouble (x y z : Nat) : Nat × Nat × Nat :=
  let m := p384P
  let g := mulMod m y y
  let b := mulMod m x g
  let zz := mulMod m z z
  let a := mulMod m (Nat.mul 3 (subMod m x zz)) (Nat.add x zz)
  let x3 := subMod m (mulMod m a a) (mulMod m 8 b)
  (x3, subMod m (mulMod m a (subMod m (Nat.mul 4 b) x3)) (mulMod m 8 (mulMod m g g)), mulMod m (Nat.mul 2 y) z)

/-- Sum of a projective point and the point (px, py). -/
def jacAdd (x y z px py : Nat) : Nat × Nat × Nat :=
  let m := p384P
  if z = 0 then (px, py, 1)
  else
    let zz := mulMod m z z
    let h := subMod m (mulMod m px zz) x
    let r := subMod m (mulMod m py (mulMod m zz z)) y
    if h = 0 then (if r = 0 then jacDouble x y z else (1, 1, 0))
    else
      let hh := mulMod m h h
      let h3 := mulMod m hh h
      let v := mulMod m x hh
      let x3 := subMod m (subMod m (mulMod m r r) h3) (mulMod m 2 v)
      (x3, subMod m (mulMod m r (subMod m v x3)) (mulMod m y h3), mulMod m z h)

/-- Sum of scalar multiples (k, px, py) in projective coordinates, `n` bits from the top. -/
def jacSum (ts : List (Nat × Nat × Nat)) : Nat → Nat × Nat × Nat → Nat × Nat × Nat
  | 0, acc => acc
  | n + 1, (x, y, z) =>
    jacSum ts n (ts.foldl (fun a t => if bit t.1 n then jacAdd a.1 a.2.1 a.2.2 t.2.1 t.2.2 else a)
      (if z = 0 then (1, 1, 0) else jacDouble x y z))

/-- Sum of scalar multiples of points of P-384; `none` is the point at infinity. -/
def ecSum (ts : List (Nat × Nat × Nat)) : Option (Nat × Nat) :=
  let m := p384P
  let (x, y, z) := jacSum ts 384 (1, 1, 0)
  if z = 0 then none
  else
    let i := invMod m z
    let ii := i * i % m
    some (x * ii % m, y * (ii * i % m) % m)

/-- Scalar multiple of a point of P-384. -/
def ecMul (k : Nat) (p : Nat × Nat) : Option (Nat × Nat) := ecSum [(k, p.1 % p384P, p.2 % p384P)]

/-- ECDSA P-384 with SHA-384: a 96-byte public key x ∥ y, a 96-byte signature r ∥ s, both big-endian. -/
def ecdsaVerify (key digest sig : Bytes) : Bool :=
  let x := beNat (slice key 0 48)
  let y := beNat (slice key 48 48)
  let r := beNat (slice sig 0 48)
  let s := beNat (slice sig 48 48)
  let n := p384N
  let onCurve := decide (x < p384P) && decide (y < p384P) &&
    (y * y) % p384P == (x * x * x + (p384P - 3) * x + p384B) % p384P
  if onCurve && decide (0 < r) && decide (r < n) && decide (0 < s) && decide (s < n) then
    let w := invMod n s
    let z := beNat (slice digest 0 48)
    match ecSum [(z * w % n, p384G), (r * w % n, x, y)] with
    | none => false
    | some (x3, _) => x3 % n == r
  else false

/-- The public key x ∥ y of a private scalar. -/
def ecPublic (d : Nat) : Bytes :=
  match ecMul (d % p384N) p384G with
  | none => List.replicate 96 0#8
  | some (x, y) => beBytes 48 x ++ beBytes 48 y

/-- An ECDSA P-384 signature r ∥ s with the per-signature number `k`. -/
def ecdsaSign (d k : Nat) (digest : Bytes) : Bytes :=
  let n := p384N
  match ecMul (k % n) p384G with
  | none => List.replicate 96 0#8
  | some (x, _) =>
    let r := x % n
    beBytes 48 r ++ beBytes 48 (invMod n (k % n) * (beNat (slice digest 0 48) + r * d) % n)

/-- The x coordinate of a shared point (ECDHE P-384). -/
def ecdhShared (d : Nat) (key : Bytes) : Bytes :=
  match ecMul (d % p384N) (beNat (slice key 0 48), beNat (slice key 48 48)) with
  | none => List.replicate 48 0#8
  | some (x, _) => beBytes 48 x

end Sys2Proof.Machine
end

