-- ==== Sys2Proof/Machine/Parts.lean ====
section
/-! DEFINITION. The parts of the state, block by block, as plain records. Each field's docstring names the rule that
gives it; the reset value stands beside it. -/
namespace Sys2Proof.Machine

/-! ### Errors, captures and events (R494 to R503) -/

/-- One capture record of R495. -/
structure Capture where
  code      : Nat := 0       -- class, kind and block code (R22)
  multi     : Bool := false
  escalated : Bool := false
  injected  : Bool := false
  isModule  : Bool := false  -- MODULE: not reported against a deckle
  page      : Nat := 0       -- page index; PAGE is derived from it
  tick      : Nat := 0
  seq       : Nat := 0
  session   : Nat := 0xFFFFFFFF
  deckle    : Nat := 0xFF
  unit      : Nat := 0x40
  group     : Nat := 0xFFFF
  addr      : Nat := 0
  detail    : Nat := 0
  count     : Nat := 0       -- errors of the block since the capture, saturating
  deriving DecidableEq, Repr

/-- The common error and latch registers of one page (R494, R496, R497, R553, R557). -/
structure PageRegs where
  capture   : Option Capture := none
  wwr       : Bool := false          -- WRITE_WHILE_RUNNING
  corrected : Nat := 0               -- PAGE_ERR_CNT [63:32]
  others    : Nat := 0               -- PAGE_ERR_CNT [31:0]
  mask      : Nat := 1               -- PAGE_ERR_MASK
  inj       : Nat := 0               -- PAGE_ERR_INJ
  latchEn   : Bool := false          -- PAGE_LATCH.EN
  latchTick : Nat := 0               -- PAGE_LATCH.TARGET
  deriving DecidableEq, Repr

/-- A pending RWT shadow (R21, R556): page index, register field code, which copy of the field, and the
value. -/
structure Shadow where
  page  : Nat
  fld   : Nat
  copy  : Nat
  value : Nat
  deriving DecidableEq, Repr

/-- The aggregator and the always-on event queue (R498 to R502). -/
structure ErrState where
  pages     : SMap PageRegs := []     -- per page index
  history   : SMap Nat := []          -- last counted error tick + 1, per escalation unit (R498)
  events    : List Capture := []      -- management events queued, oldest first (R502)
  eventLost : Nat := 0                -- EVENT_LOST
  last16    : List Capture := []      -- the last 16 events above CORRECTED, oldest first
  sent      : List Capture := []      -- events sent to management, oldest first
  deriving DecidableEq, Repr

/-! ### Sessions and requests (R279 to R312) -/

/-- Session states of R282. -/
inductive SessState where
  | closed | opened | prefill | decode | paused | swapped
  deriving DecidableEq, Repr

/-- Kinds of a request held in a slot: active kinds of R281, and the waiting CHECKPOINT of R286. -/
inductive ReqKind where
  | prefill | generate | pause | checkpoint
  deriving DecidableEq, Repr

/-- A command as accepted from a submission ring (R224, R225): its 64-byte entry, the tick at whose boundary it was
accepted, and its ring index plus 1, which names it within its deckle. -/
structure Cmd where
  entry : Bytes := []
  tick  : Nat := 0
  id    : Nat := 0
  deriving DecidableEq, Repr

/-- A request in a slot (R281, R286): the command as accepted, and its progress. -/
structure Request where
  kind    : ReqKind := .generate
  cmd     : Cmd := {}
  ending  : Bool := false             -- slot state 3
  tokens  : List Nat := []            -- prompt tokens from position COMMIT_LEN on, the last one included (R288)
  logged  : Nat := 0                  -- position from which prompt tokens are not yet in the log (R299)
  remain  : Nat := 0                  -- REMAIN
  emitted : Nat := 0                  -- TR_COUNT: token records written by the request
  props   : List Nat := []            -- proposals of the previous step (R307)
  credit  : Nat := 0                  -- free token-ring slots known (R300)
  trCi    : Nat := 0                  -- last CI word read (R300)
  swapped : Bool := false             -- swapped out under pressure while active (R295)
  pin     : Option Nat := none        -- generation a DRAIN switch pinned the request to (R338)
  deriving DecidableEq, Repr

/-- What the hub holds of a swap image (R270 to R272): the host slots, the directory's tag and nonce counter. -/
structure SwapImage where
  seq     : Nat := 0                  -- SWAP_SEQ
  commit  : Nat := 0                  -- COMMIT_LEN at swap-out
  pages   : List Nat := []            -- saved page indices; bit 31 marks a context page
  slots   : List Nat := []            -- host slots: data slots in page order, then directory slots
  counters : List Nat := []           -- nonce counter of each data page
  tags    : List Bytes := []          -- GCM tag of each data page written so far
  dirCtr  : Nat := 0                  -- nonce counter of the directory
  dirTag  : Bytes := []               -- GCM tag of the directory
  deriving DecidableEq, Repr

/-- A swap in progress (SWAPPING): out under pressure, out for a pause, out as a snapshot, or in. -/
inductive SwapKind where
  | outPressure | outPause | snapshot | swapIn
  deriving DecidableEq, Repr

/-- One session of the table (R281), with the request slots and the swap records the hub keeps. -/
structure Session where
  state      : SessState := .closed
  int4       : Bool := false          -- KV_FMT
  ring       : Bool := false          -- RING
  chunkLog2  : Nat := 0               -- CHUNK_LOG2 (R265)
  member     : Nat := 0               -- MEMBER
  kvInvalid  : Bool := false
  hasPending : Bool := false
  swapping   : Option SwapKind := none
  swapLeft   : Nat := 0               -- pages still to move (R273)
  swapDone   : Bool := false          -- image complete; the region is released at the next boundary
  swappedOnce : Bool := false
  restarted  : Bool := false
  priority   : Nat := 0
  active     : Option Request := none
  waiting    : Option Request := none
  cancelPending : Bool := false
  cancelAt   : Nat := 0               -- tick whose boundary carries out the accepted CANCEL, CLOSE or PAUSE
  closePending : List Cmd := []       -- accepted CLOSEs, acting at the next boundary (R293)
  pausePending : Option Cmd := none   -- an accepted PAUSE, acting at the next boundary (R292)
  resumeReq  : Option Cmd := none     -- an accepted RESUME whose swap-in runs
  quire      : Nat := 0xFFFF
  model      : Nat := 0
  seed       : Nat := 0
  maxLen     : Nat := 0
  commitLen  : Nat := 0
  pendingTok : Nat := 0               -- PENDING
  ttl        : Nat := 0               -- ticks left of a paused session
  kvAddr     : Nat := 0               -- KV_ADDR
  resident   : Bool := false
  kvPages    : Nat := 0               -- region size in pages
  regStack   : Nat := 0               -- stack of the region
  regPages   : Nat := 0               -- first page of the region within its stack
  firstPos   : Nat := 0               -- FIRST_POS
  histAddr   : Nat := 0               -- HIST_ADDR
  lastStep   : Nat := 0               -- tick of the last completed step (R269)
  gen        : Nat := 0               -- generation of the last completed step (R509)
  genDigest  : Bytes := []            -- ream digest of that generation; empty before a step
  swapSeq    : Nat := 0
  image      : Option SwapImage := none
  openReq    : Option Cmd := none     -- an OPEN waiting for its region (R269, R285)
  commitDue  : Nat := 0               -- positions of completed chunks, committed in phase 5 (R288)
  ctxPages   : List Nat := []         -- stack pages of the context area (R210)
  deriving DecidableEq, Repr

/-! ### Rings, publication and the scheduler (R216 to R243, R295 to R302, R403, R404) -/

/-- One write of a publication unit (R404). -/
inductive PubWrite where
  | log (addr : Nat) (tokens : List Nat)
  | completion (tag session status flags command ended err tokens commit : Nat)
  | token (addr : Nat) (tok pos logprob flags accepted : Nat)
  | tokenPi (addr value : Nat)
  | quireStatus (addr : Nat) (data : Bytes)
  deriving DecidableEq, Repr

/-- A unit of publication: one request's writes in one tick, or a quire status record. -/
structure PubUnit where
  session : Nat := 0
  req     : Nat := 0                  -- the request's command number
  quire   : Bool := false
  irq     : Bool := false             -- IRQ: its completion record asks for a message
  irqTok  : Bool := false             -- IRQ_TOKENS: its token records do (R302)
  order   : Nat := 0                  -- order of finality within the deckle
  fresh   : Bool := true              -- not yet deferred (R576)
  writes  : List PubWrite := []
  deriving DecidableEq, Repr

/-- A posted write of the module into host memory, with its requester (0 the PF, n the VF n). -/
structure HostWrite where
  fn   : Nat
  addr : Nat
  data : Bytes
  relaxed : Bool := false
  deriving DecidableEq, Repr

/-- One vector of a step: a session, the query position, and the draft it carries. -/
structure VecRef where
  session : Nat
  pos     : Nat                       -- position of the query
  deriving DecidableEq, Repr

/-- A step of the scheduler: a decode batch or a prefill chunk (R218). -/
structure StepRec where
  id       : Nat := 0                 -- order of first admission within the deckle
  deckle   : Nat := 0
  prefill  : Bool := false
  sessions : List Nat := []           -- members, ascending order of joining
  bases    : List Nat := []           -- committed length of each member at the step's start
  counts   : List Nat := []           -- positions each member appends
  quires   : List Nat := []           -- quire of each member at admission (R291)
  slot     : Nat := 0                 -- ream slot
  gen      : Nat := 0                 -- generation pinned
  seg      : Nat := 0                 -- next segment to issue
  open_ops : Nat := 0                 -- operations admitted and not complete
  bind     : List (Nat × Nat × Nat) := []   -- accumulator name, vat, physical tile (R230)
  saved    : Bool := false            -- its tiles are saved in context areas (R210)
  restoring : Bool := false
  dead     : List Nat := []           -- sessions whose request has ended (R234, R293)
  samples  : List (Nat × Nat × Nat × Nat) := []   -- session, position, token, log-probability (R304, R305)
  props    : List (Nat × Nat × Nat × Option Nat) := []  -- session, position, output head, proposal (R307)
  toks     : List Nat := []           -- token at each vector's position
  nodes    : List (Nat × Nat × Nat × List F32) := []  -- vector, query head, node, partial m, l, o (R252, R253)
  savedNames : List (Nat × Nat × Nat) := []  -- names saved, with the vat and the tile they were on (R210)
  preempted : Bool := false           -- a prefill chunk pre-empted at a boundary (R219)
  serve    : Bool := false            -- run for the tail of a ring (R267)
  ringToks : List Nat := []           -- the tokens its tail emitted, in a step run for it
  deriving DecidableEq, Repr

/-- State of a scoreboard entry (R221). -/
inductive OpState where
  | waiting | running | complete | abandoned | failed
  deriving DecidableEq, Repr

/-- A scoreboard entry (R221). -/
structure OpRec where
  slotNo   : Nat := 0                 -- scoreboard entry number
  seq      : Nat := 0
  typ      : OpType := .vector
  deckle   : Nat := 0
  unit     : Nat := 64
  preempt  : Bool := false
  cross    : Bool := false
  canonical : Bool := false
  borrowed : Bool := false
  lender   : Nat := 0                 -- deckle in whose window it was admitted
  step     : Nat := 0                 -- step id
  plan     : Nat := 0                 -- PLAN_IDX
  layer    : Nat := 0
  segment  : Nat := 0
  accRd    : List Nat := []           -- physical tiles read: vat * 8192 + tile
  accWr    : List Nat := []           -- physical tiles written
  kvFirst  : Nat := 0
  kvCnt    : Nat := 0
  kvMode   : Nat := 0
  retry    : Nat := 0
  budget   : Nat := 0                 -- converter clocks
  start    : Nat := 0
  deadline : Nat := 0
  convs    : Nat := 0
  state    : OpState := .waiting
  deps     : List Nat := []           -- sequence numbers it depends on in the plan
  tmpl     : Option Template := none  -- none for CTX_SAVE and CTX_RESTORE
  reissue  : Bool := false            -- awaiting re-issue (R42)
  failed   : Bool := false            -- it failed, so its entry is free until the re-issue (R233, R234)
  stopTick : Nat := 0                 -- tick in which it was abandoned or failed
  owner    : Nat := 0                 -- OWNER
  attn     : List Nat := []           -- attention vats in RUN at its admission (R264)
  loads    : List (List (Option Nat)) := []   -- what its groups drive, slot by slot (R109)
  places   : List (Nat × Nat) := []   -- STAGE ranges it holds from admission to completion: address, bytes (R417)
  localDone : Bool := false           -- a cross-module exchange done at this end (R49)
  peerDone : Bool := false            -- its completion message has come (R367)
  peerWaits : Bool := false           -- its peer waits for the conversion cap (R460)
  deriving DecidableEq, Repr

/-- Bytes of an exchange that have arrived and are not committed: its deckle and EXCH_ID, the target, the bytes (R42,
R49). -/
structure Staged where
  deckle : Nat
  exch   : Nat
  addr   : Nat
  data   : Bytes
  deriving DecidableEq, Repr

/-- An operation running on a slot (R327, R328). -/
structure SlotOp where
  op      : Nat := 0
  fn      : Nat := 0                  -- 0 the PF, n the VF n (quire operations)
  desc    : Bytes := []
  moved   : Nat := 0                  -- image bytes read: how far into the image the stream has come
  hash    : Option Hash := none       -- digest of the section arriving
  secType : Nat := 0
  secPos  : Nat := 0
  chain   : List Nat := []            -- nodes still to be served by the stream
  held_   : Bytes := []               -- a quire image waiting for its base (R330)
  due     : Option Nat := none        -- tick from which a SWITCH or UNLOAD takes effect
  pages   : List Nat := []            -- pages of the quire image that is arriving (R330)
  begun   : Bool := false             -- the couching stream has begun (R332)
  expect  : Bytes := []               -- the expected digest that the stream carries (R331)
  unsent  : Bytes := []               -- stream bytes not yet forwarded: less than a 4 KiB unit
  deriving DecidableEq, Repr

/-- What the hub holds per deckle. -/
structure Deckle where
  opened    : Bool := false           -- PAGE_STS.STATE (R415)
  openReq   : Option (Bool × Bool) := none  -- a write of RUN waiting for the boundary, and whether keys can be drawn (R415, R425)
  seqNext   : Nat := 0                -- sequence counter (R229)
  sqCi      : Nat := 0                -- SQ_CI
  sqPi      : Nat := 0                -- the producer index last taken (R226)
  sqFails   : Nat := 0                -- consecutive failing reads (R411)
  cqOn      : Bool := false           -- CQ_EN as of the last strobe (R597)
  cqPi      : Nat := 0                -- completion records written
  cqCi      : Nat := 0                -- completion consumer index last read
  cqHeld    : Nat := 0                -- slots reserved for accepted commands (R296)
  accepted  : List Cmd := []     -- accepted, not yet carried out
  units     : List PubUnit := []      -- publication queue, in order (R404)
  tokCnt    : Nat := 0                -- TOK_CNT
  deferUnits : Nat := 0               -- DEFER_UNITS
  deferTicks : Nat := 0               -- DEFER_TICKS
  pubLast   : Nat := 0                -- PUB_LAST
  creditWait : Nat := 0               -- CREDIT_WAIT
  overruns  : Nat := 0                -- overruns of the deckle (R42)
  steps     : List StepRec := []      -- steps begun
  stepNext  : Nat := 0                -- next step id
  capLeft   : Nat := 0                -- remaining conversion cap of the tick (R240)
  swapKey   : Option (BitVec 384) := none  -- swap key (R423)
  wmKey     : Option (BitVec 384) := none  -- watermark key
  swapCtr   : Nat := 0                -- swap counter (R271)
  swapUsed  : SMap Nat := []          -- host swap slots in use: slot to session + 1
  snaps     : SMap SwapImage := []    -- snapshot entries per session index (R511)
  flrOpen   : Bool := false           -- tenant fields open after an FLR (R597)
  flrDue    : Option Bool := none     -- an FLR takes effect at the next boundary; whether new keys can be drawn (R410, R425)
  wmCount   : SMap Nat := []          -- tile passes counted in the run, per vat (R198)
  wmTaken   : SMap Nat := []          -- 1 when the run's pass has been chosen, per vat
  qops      : SMap SlotOp := []       -- quire operations running, per slot (R328, R330)
  deriving DecidableEq, Repr

/-- The scheduler and scoreboard. -/
structure Sched where
  ops      : List OpRec := []         -- scoreboard entries in use, in order of admission
  capNow   : Nat := 0                 -- CAP_NOW
  bound    : SMap Nat := []           -- physical accumulator tiles bound: vat * 8192 + tile to deckle + 1
  staged   : List Staged := []        -- exchange bytes that have arrived in this tick
  deriving DecidableEq, Repr

/-! ### The counting arrays, converters and margins (R89 to R179) -/

/-- Vat states of R30. -/
inductive VatState where
  | off | calibrating | idle | run | draining | service | retired
  deriving DecidableEq, Repr

/-- Tile group states of R92. -/
inductive GroupState where
  | inService | spare | recal | retired
  deriving DecidableEq, Repr

/-- Converter states of R127. -/
inductive ConvState where
  | serving | spareIdle | cal | suspect
  deriving DecidableEq, Repr

/-- One converter's correction word (R123); `covers` is the converter whose columns converter 8 serves. -/
structure Conv where
  state   : ConvState := .serving
  covers  : Option Nat := none
  gainTgt : Int := 0
  gain    : Int := 0
  ofsTgt  : Int := 0
  ofs     : Int := 0
  deriving DecidableEq, Repr

/-- One column's trim word (R124), with the proposal of the last calibration block (R157), in 1/64 LSB times 64. -/
structure Trim where
  target  : Int := 0
  applied : Int := 0
  lastAvg : Option Int := none
  deriving DecidableEq, Repr

/-- A stuck cell: the bit that stands in the cell and the bit the record asked for (R111, R112). -/
structure Stuck where
  row    : Nat
  col    : Nat
  held   : Bool
  wanted : Bool
  fresh  : Bool := true               -- found since the previous export (R345)
  deriving DecidableEq, Repr

/-- A tile as written into one of a group's four tile slots (R74, R80, R90, R99). -/
structure Tile where
  slot    : Nat := 0                  -- model slot of the ream
  gen     : Nat := 0                  -- generation of its image
  index   : Nat := 0                  -- TILE_INDEX
  layer   : Nat := 0
  matrix  : Nat := 0
  head    : Nat := 0
  kBlock  : Nat := 0
  nBlock  : Nat := 0
  validRows : Nat := 0
  validNeurons : Nat := 0
  rows    : List (BitVec 272) := []   -- stored bits: data columns 0 to 255, check columns 256 to 271
  sw      : List Int := []            -- SW(n)
  sc      : List Nat := []            -- SC(g)
  scales  : List BF16 := []
  outliers : List (Nat × Nat × Int) := []   -- row, neuron, δ, in the order of R79
  stuck   : List Stuck := []
  deriving DecidableEq, Repr

/-- The re-plan of a group (R170): the candidates left and the measured lows so far. -/
structure Replan where
  left    : List Nat                  -- candidate plans still to try, the running one first (codes of R175)
  lows    : List (Nat × Nat) := []    -- plan, lowest code seen
  low     : Option Nat := none        -- lowest code of the running candidate so far
  deriving DecidableEq, Repr

/-- One physical tile group (R91, R92, R177, R591). -/
structure Group where
  state    : GroupState := .inService
  retCause : Nat := 0
  logical  : Nat := 0x7FF             -- logical group served; 0x7FF for none
  homeVat  : Option Nat := none       -- BORROWED: the vat whose logical group it serves
  lent     : Option Nat := none       -- the logical group whose tiles a borrowed group of another vat serves for it (R343)
  modelSlot : Nat := 16               -- SLOT; 16 for none, which reads 0xF (R591)
  miscount : Nat := 0                 -- MISCOUNT_CNT
  tiles    : SMap Tile := []          -- tile slots 0 to 3
  convs    : SMap Conv := []
  trims    : SMap Trim := []
  refs     : Bool := false            -- the reference columns hold their fixed contents (R89, R90)
  refStuck : List StuckIn := []       -- stuck cells of the reference columns (R113)
  nextConv : Nat := 0                 -- next converter of the rolling cycle (R153)
  calTick  : Nat := 0                 -- tick + 1 in which its last rolling calibration ended (R153)
  checkCols : List Nat := []          -- columns that overflowed since their converter was last calibrated (R130)
  refFault : Bool := false            -- REF_FAULT (R135)
  plan     : Nat := 0                 -- serving plan, code of R175
  planNext : Option Nat := none       -- plan that takes effect at the next boundary (R167)
  replan   : Option Replan := none
  replanCnt : Nat := 0
  marginMin : Nat := 0
  measured : Bool := false            -- a margin has been measured in the current window
  marginLast : Nat := 0
  lastLow  : Nat := 0                 -- lowest code of the last measurement
  sigma    : Nat := 0
  valid    : Bool := false
  lowDone  : Bool := false            -- MARGIN_LOW already triggered in this window (R169)
  breach   : Bool := false            -- FLOOR_BREACH
  due      : Option Nat := none       -- FALLBACK_DUE: tick on which it became due
  inFall   : Bool := false            -- fall-back calibration is running
  rewriting : Bool := false           -- its tiles are being written
  readyNext : Option GroupState := none -- the state it enters at the next boundary (R114, R161)
  wmMiss   : Bool := false            -- a watermark mismatch since the last fall-back (R199)
  recalNext : Bool := false           -- it goes to RECAL in the next allocation phase (R199)
  slowAt   : Nat := 0                 -- SLOW_PPM at the last re-plan (R169)
  hist     : SMap Nat := []           -- bins of the current window
  histLast : SMap Nat := []           -- bins of the last complete window
  partialWin : Bool := false          -- the current window began before the last fall-back (R177)
  missAt   : List Nat := []           -- ticks of its MISCOUNT events in the last 2^24 ticks (R174)
  deriving DecidableEq, Repr

/-- One vat: state, counters of its five pages, buffers and monitors. -/
structure Vat where
  state     : VatState := .off
  runReq    : Bool := false           -- RUN requested, acting at the next boundary (R583)
  idleReq   : Bool := false           -- DRAIN requested
  serviceReq : Bool := false          -- SERVICE requested
  retCause  : Nat := 0                -- RET_CAUSE
  cntIn     : Nat := 0                -- IN_SERVICE, as of the last boundary
  cntSpare  : Nat := 0
  cntRetired : Nat := 0
  cntRecal  : Nat := 0
  zplane    : Nat := 0                -- ZPLANE_CNT
  surge     : Nat := 0                -- SURGE_CNT
  overruns  : Nat := 0                -- OVERRUN_CNT
  miscounts : Nat := 0                -- MISCOUNT_TOT
  repairs   : Nat := 0                -- REPAIR_CNT
  overRes   : Nat := 0                -- OVER_RES_CNT
  wmSamples : Nat := 0                -- WM_SAMPLES
  wmMismatch : Nat := 0               -- WM_MISMATCH
  sideMacs  : Nat := 0                -- SIDE_MACS
  blocks    : Nat := 0                -- BLOCK_CNT
  merges    : Nat := 0                -- MERGE_CNT
  kvBytes   : Nat := 0                -- KV_READ_BYTES
  ringParts : Nat := 0                -- RING_PARTIALS
  ovf       : Nat := 0                -- OVF_CNT
  refFaults : Nat := 0                -- REF_FAULT_CNT
  refEn     : Bool := false           -- REFBUF_EN
  refReady  : Bool := false           -- REFBUF_READY
  eccCorr   : Nat := 0                -- ECC_CORR_CNT
  eccUncorr : Nat := 0                -- ECC_UNCORR_CNT
  scrAddr   : Nat := 0                -- SCR_ADDR
  accBase   : Nat := 0
  accSize   : Nat := 3584
  corrBase  : Nat := 3584
  corrSize  : Nat := 1800
  stageBase : Nat := 5384
  stageSize : Nat := 760
  initFail  : Bool := false           -- INIT_FAIL
  ageBase   : Nat := 0                -- AGE_BASE, 1/16 count
  ageNow    : Nat := 0                -- AGE_NOW
  ageSeen   : Bool := false
  held      : SMap (List Int) := []   -- first-pass D1 of precise layers, per step, tile and vector (R72, R105)
  deriving DecidableEq, Repr

/-! ### Telemetry, power and heat (R136 to R143, R440 to R464) -/

/-- The latest value of a telemetry channel (R143). -/
structure Telem where
  valid  : Bool := false
  strobe : Nat := 0
  tick   : Nat := 0
  value  : Nat := 0
  deriving DecidableEq, Repr

/-- Correction and health of one telemetry converter (R141, R142). -/
structure TelemConv where
  tofs   : Int := 0                   -- TOFS, 1/16 telemetry LSB
  tgain  : Int := 0                   -- TGAIN, 2^-16
  bad    : Nat := 0                   -- consecutive tick-aligned sweeps more than 8 LSB off
  failed : Bool := false
  deriving DecidableEq, Repr

/-- The thermal model and the power controller. -/
structure Therm where
  telem   : SMap Telem := []
  tconv   : SMap TelemConv := []
  sweepOf : SMap Nat := []            -- failed converters' channels redistributed from this sweep on
  fast    : Bool := false             -- TELEM_RATE in force
  fastNext : Bool := false            -- rate decided for the next tick (R138)
  hotMid  : Bool := false             -- an intermediate evaluation found hi at or above 97 °C
  points  : SMap Int := []            -- T, 2^-16 of a temperature code
  hi      : Int := 0                  -- T_HI, 2^-16 of a temperature code
  hiPoint : Nat := 0
  hiTick  : Int := 0                  -- largest hi of the evaluations of the tick
  hiSeen  : Bool := false
  badRuns : SMap Nat := []            -- consecutive disagreeing evaluations of each diode
  excl    : List Nat := []            -- excluded diodes (R450)
  degradedSaid : Bool := false
  warn    : Bool := false
  throttle : Bool := false
  step    : Nat := 0                  -- STEP
  stepNext : Nat := 0                 -- the step decided for the next boundary
  since   : Nat := 4
  cool    : Nat := 0
  pSum    : Nat := 0                  -- sum of P_EST over the evaluations of the tick, 0.1 microwatt
  pCnt    : Nat := 0
  pEst    : Nat := 0                  -- P_EST, 1/4 W
  guardCnt : Nat := 0                 -- GUARD_CNT
  lastShut : Nat × Nat × Nat := (0, 0, 0)   -- LAST_SHUT: cause, index, tick
  stepSaid : Bool := false            -- the step in force changed; PF vector 3 is due in phase 5
  deriving DecidableEq, Repr

/-! ### Reams and quires (R315 to R345, R602, R603) -/

/-- Image states of R315. -/
inductive ImageState where
  | loading | ready | current | retiring
  deriving DecidableEq, Repr

/-- One section entry of a manifest (R319). -/
structure Section where
  typ    : Nat
  offset : Nat
  len    : Nat
  digest : Bytes
  deriving DecidableEq, Repr

/-- One ream image in the stacks. -/
structure Image where
  state    : ImageState := .loading
  gen      : Nat := 0
  digest   : Bytes := []              -- ream digest (R321), known once the manifest is in
  manifest : Bytes := []
  sections : List Section := []
  modules  : Nat := 1
  canonical : Bool := false
  turnover : Bool := false
  signed   : Bool := false
  tileCnt  : Nat := 0
  layers   : Nat := 0
  extraHeads : Nat := 0
  kvHeads  : Nat := 0
  width    : Nat := 0
  vocab    : Nat := 0
  mask     : Nat := 0                 -- deckle mask of its LOAD (R317)
  member   : Nat := 0
  plan     : Option Plan := none
  place    : List Place := []         -- PLACE entries
  tilesIn  : Nat := 0                 -- tile records taken
  tileInfo : SMap (Nat × Nat × Nat) := []   -- per tile: valid rows, valid neurons, outlier count
  pages    : List Nat := []           -- stack pages it owns: stack * 2^20 + page
  locOf    : SMap Nat := []           -- die * 2^40 + offset + 1 of each tile record kept
  outOf    : SMap Nat := []           -- the same for each tile's outlier entries
  secPages : SMap (List Nat) := []    -- pages of each section's bytes, in order, by section type
  dies     : SMap (List Nat × Nat) := []   -- per die: pages of its records in order, bytes used
  secDone  : List Nat := []           -- sections taken whole and checked
  rr       : Nat := 0                 -- next stack of the round-robin (R602)
  wout     : Bytes := []              -- weight-outlier bytes taken (R78)
  woutDue  : List (Nat × Bytes) := [] -- offset and entries of the tiles that came before those bytes
  deriving DecidableEq, Repr

/-- A model slot (R315 to R317). -/
structure Slot where
  retiring : Option Image := none
  current  : Option Image := none
  incoming : Option Image := none     -- LOADING or READY
  lastGen  : Nat := 0                 -- highest generation the slot has held, plus 1
  mask     : Nat := 0
  op       : Option SlotOp := none
  switchTick : Nat := 0               -- tick of the last switch
  drained  : List Nat := []           -- DRAIN deckles whose drain is still open
  rewriteDue : Bool := false          -- a rewrite waits for the conditions of R339
  rewriting : Bool := false
  rewriteEnd : Bool := false          -- complete; serves from the next boundary
  unplaced : Bool := false            -- NO_PLACE (R344)
  moving   : Bool := false            -- re-placement moves run (R343)
  members  : SMap Nat := []           -- member map (R386)
  deriving DecidableEq, Repr

/-- One low-rank pair of a quire (R325). -/
structure Pair where
  layer  : Nat
  matrix : Nat
  rank   : Nat
  k      : Nat
  n      : Nat
  u      : Bytes
  su     : List BF16
  v      : Bytes
  sv     : List BF16
  deriving DecidableEq, Repr

/-- A loaded quire image (R323 to R326). -/
structure Quire where
  deckle : Nat
  slot   : Nat
  index  : Nat
  base   : Bytes
  sparse : List (Nat × List (Nat × Nat × Int)) := []   -- tile, entries of row, neuron, Δ
  pairs  : List Pair := []
  pages  : List Nat := []
  deriving DecidableEq, Repr

/-! ### Felt links and the torus (R349 to R391) -/

/-- Port states of R372. -/
inductive PortState where
  | down | training | session | up | failed
  deriving DecidableEq, Repr

/-- A tick-aligned time measured on a port, in units of 0.5 ns (R368). -/
structure TimeInfo where
  tick   : Nat := 0                   -- local tick + 1 in which the last TIME frame arrived; 0 for none
  nTick  : Nat := 0                   -- the neighbour's tick number
  epoch  : Nat := 0
  digest : Nat := 0
  err    : Int := 0                   -- the neighbour's alignment error, ns
  tHere  : Int := 0                   -- our time for its last frame
  tThere : Int := 0                   -- its time for ours
  phi    : Int := 0                   -- 0.25 ns
  delta  : Int := 0                   -- 0.25 ns
  differ : Nat := 0                   -- consecutive ticks with a differing epoch or digest (R381)
  deriving DecidableEq, Repr

/-- A transfer arriving on a virtual channel (R367): where its next byte goes, and whether it is delivered. -/
structure Xfer where
  addr   : Nat
  ok     : Bool
  exch   : Nat := 0                   -- EXCH_ID
  deriving DecidableEq, Repr

/-- A routed frame as sent, oldest first (R351, R353, R365): its header and payload. -/
structure FrameOut where
  kind    : Nat := 1
  vc      : Nat
  first   : Bool
  last    : Bool
  deckle  : Nat
  dest    : Nat
  src     : Nat
  seq     : Nat
  payload : Bytes
  deriving DecidableEq, Repr

/-- What a port has sent of a link session (R373). -/
structure LinkHello where
  nonce  : Bytes
  node   : Nat
  torus  : Nat
  dims   : Nat × Nat × Nat
  period : Nat
  proto  : Nat
  pub    : Bytes
  sig    : Bytes
  deriving DecidableEq, Repr

/-- A TIME frame as sent (R368). -/
structure TimeOut where
  tick   : Nat
  epoch  : Nat
  digest : Nat
  err    : Int
  t      : Int
  deriving DecidableEq, Repr

/-- One felt port (R356, R372 to R376, R389). -/
structure Port where
  state    : PortState := .down
  enable   : Bool := false            -- PORT_EN
  mapped   : List Nat := []           -- lanes out by failure, or untrained
  drained  : List Nat := []           -- lanes out under LANE_DRAIN
  drainReg : Nat := 0                 -- LANE_DRAIN
  testing  : List Nat := []           -- drained lanes whose bit is clear: the test of R357 runs
  neighId  : Nat := 0
  fecCorr  : Nat := 0
  fecUncorr : Nat := 0
  retry    : Nat := 0
  authFail : Nat := 0
  authTick : Nat := 0                 -- tag failures of the current tick
  txFrames : Nat := 0
  rxFrames : Nat := 0
  fwdFrames : Nat := 0
  symLast  : SMap Nat := []           -- SYM_LAST per lane
  symNow   : SMap Nat := []           -- corrected symbols of the current tick per lane
  txSeq    : Nat := 0                 -- 64-bit sequence numbers of the session
  rxSeq    : Nat := 0
  key      : Option (Bytes × Nat × Bytes × Nat) := none  -- send key and salt, receive key and salt
  time     : TimeInfo := {}
  xfers    : SMap Xfer := []          -- transfers arriving: source * 8 + VC
  sent     : List FrameOut := []      -- frames sent: routed ones (R365), and withdrawals and requests to join on VC0
  unacked  : List FrameOut := []      -- the replay buffer (R354)
  hello    : Option LinkHello := none -- its part of the last link session
  timeOut  : Option TimeOut := none   -- the last TIME frame sent
  refused  : Bool := false            -- the session's checks failed; it waits 1 s (R373)
  deriving DecidableEq, Repr

/-- A membership entry (R378). -/
structure MembEntry where
  kind : Nat
  dim  : Nat
  node : Nat
  deriving DecidableEq, Repr

/-- A proposal received or made, for tick `at_` (R378, R379). -/
structure Proposal where
  by_    : Nat
  number : Nat
  at_    : Nat
  entries : List MembEntry
  deriving DecidableEq, Repr

/-- Membership and alignment of the module (R363, R368 to R371, R377 to R384). -/
structure Torus where
  member   : Nat := 0                 -- MEMBER
  present  : List Nat := []           -- presence table: node IDs present, ascending
  downLinks : List (Nat × Nat) := []  -- links down: dimension, node at the − end
  epoch    : Nat := 0
  root     : Nat := 0                 -- TIME_ROOT
  parent   : Option Nat := none       -- port toward the parent
  unreach  : Nat := 0                 -- UNREACH_CNT
  alignErr : Int := 0                 -- e, ns
  slip     : Int := 0                 -- SLIP
  slips    : List Int := []           -- slips of the last 64 ticks
  alignBad : Nat := 0                 -- consecutive ticks above 200 ns
  alignGood : Nat := 0                -- consecutive ticks within 100 ns with matching tables
  proposals : List Proposal := []
  nextProp : Nat := 0
  sent     : List Proposal := []      -- proposals put on VC0, newest first
  waiting  : Bool := false            -- RUN set on a joining module that waits for an aligned strobe
  deriving DecidableEq, Repr

/-! ### Host port (R392 to R413) -/

/-- One MSI-X table entry: address, data and mask (R581). -/
structure MsixEntry where
  addr   : Nat := 0
  data   : Nat := 0
  masked : Bool := true
  deriving DecidableEq, Repr

/-- One PCIe function: 0 the PF, n the VF n (R394, R410). -/
structure Func where
  busMaster : Bool := false
  msixEn    : Bool := false
  msixMask  : Bool := false           -- function mask
  d3        : Bool := false
  table     : SMap MsixEntry := []
  due       : List Nat := []          -- vectors with an event since the last message
  pendBits  : List Nat := []          -- pending bit array
  deriving DecidableEq, Repr

/-- The host port. -/
structure HostPort where
  started  : Bool := false            -- the boot engine has started the port (R530)
  perstN   : Bool := false            -- level of PERST_N
  linkUp   : Bool := false            -- DL_Active
  stopIssue : Bool := false           -- no further bus-master request (R408)
  vfs      : Nat := 0                 -- enabled virtual functions: VF 1 to this number (SR-IOV VF Enable, NumVFs)
  funcs    : SMap Func := []
  pfRecs   : List (Nat × Bytes) := []   -- ream status records due in phase 5 (R328)
  posted   : List HostWrite := []     -- every write issued into host memory, in order of issue
  ideLink  : Bool × Bool := (false, false)   -- Link IDE stream: keyed, Secure
  ideSel   : Bool × Bool := (false, false)   -- Selective IDE stream: keyed, Secure
  deriving DecidableEq, Repr

/-! ### Security block (R414 to R439) -/

/-- An SPDM session (R407, R423). -/
structure SpdmSession where
  keys : Bytes := []
  deriving DecidableEq, Repr

/-- The security block. -/
structure Sec where
  uds       : Bytes := List.replicate 32 0#8        -- UDS fuses
  vkeys     : List Bytes := [List.replicate 48 0#8, List.replicate 48 0#8, List.replicate 48 0#8,
                             List.replicate 48 0#8] -- VKEY_DIGEST slots
  revoked   : Nat := 0                -- VKEY_REVOKE
  lifecycle : Nat := 1                -- LIFECYCLE
  debugPerm : Bool := true            -- DEBUG_PERM
  serial    : Nat := 0
  romDigest : Bytes := List.replicate 48 0#8
  cert      : Bytes := []             -- vendor root and DeviceID certificates from flash (R422)
  devId     : Nat := 0                -- DeviceID private scalar
  cdi       : Bytes := []
  alias_    : Nat := 0                -- alias private scalar
  recKey    : Bytes := []             -- record HMAC key
  verifier  : Nat := 0                -- slot that verified the active images
  unlocked  : Bool := false
  scopeReg  : Bool := false
  scopeScan : Bool := false
  tokenDue  : Option (Bool × Bool) := none   -- an accepted token's scopes, acting at the next boundary
  nonce     : Option Bytes := none    -- the current NONCE
  nonceReg  : Bytes := List.replicate 48 0#8
  owners    : SMap Bytes := []        -- owner keys, 96 bytes, per slot
  reqSig    : Bool := false           -- REQ_OWNER_SIG
  locked    : Bool := false           -- OWNER_LOCK
  lastCmd   : Nat := 0                -- last owner command: 0 none, 1 done, 2 denied
  spdm      : SMap SpdmSession := []  -- SPDM sessions: 0 the PF, 1 to 16 the VFs, 17 management
  replies   : List (Nat × Bytes) := []   -- SPDM and PLDM answers sent, by requester, oldest first
  deriving DecidableEq, Repr

/-! ### Images and update (R465 to R490) -/

/-- An image held in a slot. -/
structure ImgRec where
  kind     : Nat := 0
  version  : Nat := 0
  level    : Nat := 0
  settings : Nat := 0                 -- SETTINGS_VER
  ifLevel  : Nat := 0
  proto    : Nat := 0                 -- FELT_PROTO
  flags    : Nat := 0
  revokes  : Nat := 0                 -- slots a revocation list names
  req      : List (Nat × Nat) := []   -- REQ entries
  digest   : Bytes := []
  keySlot  : Nat := 0                 -- VKEY slot that verified it
  fslot    : Nat := 0                 -- the flash slot it came from
  therm    : ThermConst := {}
  cal      : CalConst := {}
  classes  : Nat := 0
  deriving DecidableEq, Repr

/-- Flash slot states of R473. -/
inductive FlashState where
  | empty | writing | valid | invalid
  deriving DecidableEq, Repr

/-- One flash slot as this module knows it; `known` is false until boot has read it. -/
structure FlashSlot where
  state : FlashState := .empty
  image : Option ImgRec := none
  deriving DecidableEq, Repr

/-- Inactive on-chip slot: STAGED or PREVIOUS with its image; none is EMPTY. -/
structure ChipSlot where
  staged : Bool := false
  image  : ImgRec := {}
  deriving DecidableEq, Repr

/-- Update engine states of R562. -/
inductive UpdState where
  | idle | receiving | verifying | activating | paused
  deriving DecidableEq, Repr

/-- A directory copy (R467): sequence number and boot slots of kinds 1 to 7. -/
structure Directory where
  seq   : Nat := 0
  slots : List Nat := []
  deriving DecidableEq, Repr

/-- The update engine and the flash. -/
structure Update where
  active   : SMap ImgRec := []        -- active images, per kind
  inactive : SMap (Option ChipSlot) := []
  flash    : SMap FlashSlot := []     -- kind * 2 + slot
  dirs     : List (Option Directory) := [none, none]
  dirUse   : Directory := {}          -- the directory in use
  dirCopy  : Nat := 0                 -- copy it stands in
  dirBusy  : Option Directory := none -- a directory write in progress
  dirQueue : List Directory := []     -- directory writes to follow
  state    : UpdState := .idle
  pldm     : Bool := false            -- the session runs over PLDM
  session  : Bool := false
  kind     : Nat := 0                 -- kind in hand
  len      : Nat := 0
  expect   : Bytes := List.replicate 48 0#8
  bytes    : Nat := 0                 -- bytes received
  buffer   : Bytes := []              -- bytes in the write buffer not yet programmed
  result   : Nat := 0                 -- last result code
  cause    : Nat := 0
  order    : List Nat := []           -- activation order still to run
  pldmState : Nat := 0                -- PLDM firmware device state (DSP0267): 0 IDLE, 1 LEARN COMPONENTS, 2 READY XFER, 3 DOWNLOAD
  comps    : List Nat := []
  recs     : List (Option Bytes) := [none, none]   -- MARGIN_REC copies written by this device since boot
  recSeqs  : List Nat := [0, 0]       -- their sequence numbers; 0 for an invalid copy
  recWait  : Option Nat := none       -- a record write waiting for the flash, with its cause
  recBusy  : Option (Nat × Nat × Bytes) := none  -- copy, cause and bytes being written
  recSeq   : Nat := 0                 -- REC_SEQ
  recDone  : Bool := false            -- REC_STS.DONE
  seed     : Option Bytes := none     -- the record copy chosen in the identity stage (R544)
  calPrev  : Option CalConst := none  -- constants of the CAL image that handed over in this tick, in force in its window (R482)
  deriving DecidableEq, Repr

/-! ### Power, tick, management and test -/

/-- Where the module stands between power and service (R29); SERVING and DEGRADED follow from the tick and the vats. -/
inductive Phase where
  | off | boot | up | shutdown
  deriving DecidableEq, Repr

/-- Supplies, the reference and the sideband (R440, R522 to R529, R542). -/
structure Power where
  phase     : Phase := .boot
  vinOk     : Bool := true            -- VIN_64 qualified
  alwaysOn  : Bool := true            -- VIN_64 at or above 40 V and the domain works
  stage     : Nat := 1                -- BOOT_STAGE
  bootMs    : Nat := 0                -- BOOT_MS
  refExt    : Bool := false           -- REF_SEL as sampled
  refFell   : Bool := false           -- crystal taken after REF_FALLBACK
  shutCause : Nat := 0                -- cause of the SHUTDOWN in force; 0 for none
  thermTripN : Bool := false          -- THERMTRIP_N driven
  battRaw   : Bool := false           -- PWR_ON_BATT, debounced
  batt      : Bool := false           -- as it acts on refusals, from the boundary
  i3cAddr   : Nat := 0
  i3cUp     : Bool := true            -- the I3C port answers
  tap       : TapInst := .bypass      -- instruction decoded by the test access port
  autoReset : Bool := false           -- AUTO_RESET
  deriving DecidableEq, Repr

/-- How far a tick has come (R33): outside a tick, after its boundary, after its evaluation, and from its allocation on. -/
inductive TickStage where
  | outside | started | evaluated | execution
  deriving DecidableEq, Repr

/-- The tick (R31, R33, R46, R47). -/
structure Tick where
  running  : Bool := false            -- RUN
  inTick   : Bool := false            -- a strobe has begun a tick that has not ended
  stage    : TickStage := .outside    -- the phases come in order, each once (R33)
  stopReq  : Bool := false            -- stops after phase 5
  period   : Nat := 12500
  periodNext : Option Nat := none     -- an accepted TICK_PERIOD
  now      : Nat := 0                 -- TICK_NOW
  started  : Bool := false            -- a tick has run since module reset
  starting : Bool := false            -- RUN set, first strobe not yet come
  ringLate : Nat := 0                 -- RING_LATE_CNT
  overruns : Nat := 0                 -- OVERRUN_CNT
  deriving DecidableEq, Repr

/-- Stress window phases of R516. -/
inductive TestPhase where
  | idle | settle | heat | run | cool | recal | done
  deriving DecidableEq, Repr

/-- The test engine (R514 to R519). -/
structure TestEngine where
  phase   : TestPhase := .idle
  vat     : Nat := 0
  apply   : Bool := false
  classes : Nat := 0
  cause   : Nat := 0
  aborted : Bool := false
  results : List TestResult := []
  dropped : Nat := 0
  ticks   : List Nat := []            -- tick of each result's first failure
  deriving DecidableEq, Repr

/-- Counters of the model itself, not the machine's: how many draws the random generator has made, and how many page
places have been chosen. The free values of Config are applied to them. -/
structure Free where
  draw : Nat := 0
  page : Nat := 0
  deriving DecidableEq, Repr

end Sys2Proof.Machine
end

