-- ==== Sys2Proof/Machine/State.lean ====
section
/-! DEFINITION. The state of the module as plain data, the reasons a step can stop, and the state after reset. -/
namespace Sys2Proof.Machine

/-- The module. Tables of like units (vats, groups, sessions) list only the units that differ from their reset value. -/
structure State where
  pending  : List Instr               -- commands waiting, first in first out
  power    : Power
  tick     : Tick
  regs     : SMap Nat                 -- register fields that differ from their reset value: code * 2^24 + copy
  shadows  : List Shadow              -- RWT shadows pending, in order of arrival
  errs     : ErrState
  host     : HostPort
  vats     : SMap Vat                 -- vat 0 to 63
  groups   : SMap Group               -- vat * 1536 + physical group
  therm    : Therm
  sessions : SMap Session             -- session index
  deckles  : SMap Deckle              -- deckle 0 to 15
  sched    : Sched
  mem      : List Host.Cell           -- device bytes of R27 that differ from 0
  owners   : SMap Nat                 -- page-owner bytes: stack * 2^20 + page
  pageOut  : SMap Nat                 -- 1 withdrawn, 2 withdrawal pending
  memStat  : SMap Nat                 -- MEM page counters: stack * 8 + counter
  slots    : SMap Slot                -- model slots 0 to 15
  quires   : List Quire
  ports    : SMap Port                -- felt ports 0 to 5
  torus    : Torus
  sec      : Sec
  upd      : Update
  test     : TestEngine
  kvSat    : Nat                      -- KV_SAT_CNT
  swapOuts : Nat                      -- SWAP_OUT_CNT
  swapIns  : Nat                      -- SWAP_IN_CNT
  rejects  : Nat                      -- REJECT_CNT
  histSnap : SMap Nat                 -- histogram snapshot (R567): bins 0 to 31, and 32 the window number
  reloads  : SMap Nat                 -- blocks reloading (R504): block code to the tick they serve again from
  sessShown : SMap Session            -- descriptors as they stood at the end of the last phase 5 (R579)
  groupShown : SMap Group             -- groups as they stood at the last boundary, for the group-map window (R591)
  free     : Free
  deriving DecidableEq, Repr

/-- Reasons a step stops with a fault. The model raises none: every event of the table has an effect the spec gives. -/
inductive Fault where
  /-- Never raised; the type of a fault needs a constructor. Safe. -/
  | none
  deriving DecidableEq, Repr

/-- Reasons a step is refused. -/
inductive Refusal where
  /-- A command without a meaning yet, raised by the dispatch alone. Safe: the model stops where the hardware goes on. -/
  | notModelled (mnemonic : String)
  deriving DecidableEq, Repr

/-- The module right after a module reset: core power on, BOOT, the directory stage about to run (R527, R542). Every
register and table is at its reset value, memory lists nothing, no command waits. -/
def State.reset : State :=
  { pending := [], power := {}, tick := {}, regs := [], shadows := [], errs := {}, host := {}, vats := [], groups := []
    therm := {}, sessions := [], deckles := [], sched := {}, mem := [], owners := [], pageOut := [], memStat := []
    slots := [], quires := [], ports := [], torus := {}, sec := {}, upd := {}, test := {}, kvSat := 0, swapOuts := 0
    swapIns := 0, rejects := 0, histSnap := [], reloads := [], sessShown := [], groupShown := []
    free := {} }

end Sys2Proof.Machine
end

