-- ==== Sys2Proof/Machine/Ops.lean ====
section
/-! DEFINITION. The named operations every meaning is written over: reading and writing the units of the module, the
bytes of its device memory, and the few facts many rules ask for. -/
namespace Sys2Proof.Machine

/-- What a command answers. -/
abbrev Out := Host.Outcome State Fault Refusal

/-- A host read whose data has not come yet. -/
def readLate : HostRead → Bool
  | .late => true
  | _ => false

/-! ### Units -/

/-- Vat `v`. -/
def State.vat (s : State) (v : Nat) : Vat := get {} s.vats v

/-- Change vat `v`. -/
def State.modVat (s : State) (v : Nat) (f : Vat → Vat) : State := { s with vats := put {} s.vats v (f (s.vat v)) }

/-- Key of physical group `p` of vat `v`; a vat has 1,536 groups (R91). -/
def groupKey (v p : Nat) : Nat := v * 1536 + p

/-- Physical group `p` of vat `v`. -/
def State.group (s : State) (v p : Nat) : Group := get {} s.groups (groupKey v p)

/-- Change physical group `p` of vat `v`. -/
def State.modGroup (s : State) (v p : Nat) (f : Group → Group) : State :=
  { s with groups := put {} s.groups (groupKey v p) (f (s.group v p)) }

/-- Session `i`. -/
def State.session (s : State) (i : Nat) : Session := get {} s.sessions i

/-- Change session `i`. -/
def State.modSession (s : State) (i : Nat) (f : Session → Session) : State :=
  { s with sessions := put {} s.sessions i (f (s.session i)) }

/-- Deckle `d`. -/
def State.deckle (s : State) (d : Nat) : Deckle := get {} s.deckles d

/-- Change deckle `d`. -/
def State.modDeckle (s : State) (d : Nat) (f : Deckle → Deckle) : State :=
  { s with deckles := put {} s.deckles d (f (s.deckle d)) }

/-- Model slot `k`. -/
def State.slot (s : State) (k : Nat) : Slot := get {} s.slots k

/-- Change model slot `k`. -/
def State.modSlot (s : State) (k : Nat) (f : Slot → Slot) : State :=
  { s with slots := put {} s.slots k (f (s.slot k)) }

/-- Felt port `p`. -/
def State.port (s : State) (p : Nat) : Port := get {} s.ports p

/-- Change felt port `p`. -/
def State.modPort (s : State) (p : Nat) (f : Port → Port) : State :=
  { s with ports := put {} s.ports p (f (s.port p)) }

/-- PCIe function `n`: 0 the PF, n the VF n. -/
def State.func (s : State) (n : Nat) : Func := get {} s.host.funcs n

/-- Change PCIe function `n`. -/
def State.modFunc (s : State) (n : Nat) (f : Func → Func) : State :=
  { s with host := { s.host with funcs := put {} s.host.funcs n (f (s.func n)) } }

/-- Common registers of page `p` (page index). -/
def State.pageRegs (s : State) (p : Nat) : PageRegs := get {} s.errs.pages p

/-- Change the common registers of page `p`. -/
def State.modPage (s : State) (p : Nat) (f : PageRegs → PageRegs) : State :=
  { s with errs := { s.errs with pages := put {} s.errs.pages p (f (s.pageRegs p)) } }

/-- Apply `f` for every number of a list, in order. -/
def forAll (l : List Nat) (f : Nat → State → State) (s : State) : State := l.foldl (fun t i => f i t) s

/-- Do `f` when the condition holds. -/
def when (c : Bool) (f : State → State) (s : State) : State := if c then f s else s

/-- The vats, the deckles, the ports and the model slots. -/
def allVats : List Nat := List.range 64
def allDeckles : List Nat := List.range 16
def allPorts : List Nat := List.range 6
def allSlots : List Nat := List.range 16

/-- The physical groups of a vat that differ from their reset value, ascending. -/
def State.groupsOf (s : State) (v : Nat) : List Nat :=
  (s.groups.filter (fun x => x.1 / 1536 == v)).map (fun x => x.1 % 1536)

/-- Every physical group of a vat (R91). -/
def allGroups : List Nat := List.range 1536

/-- The compute die of a vat (R25). -/
def dieOf (v : Nat) : Nat := v / 16

/-! ### Device memory (R27, R28) -/

/-- First address of the scratchpad windows. -/
def scrBase : Nat := 0x100000000000

/-- Device address of byte `off` of the scratchpad of vat `v`. -/
def scrAddrOf (v off : Nat) : Nat := scrBase + v * 0x2000000 + off

/-- Bytes of a scratchpad that are backed: 24 MiB. -/
def scrBytes : Nat := 0x1800000

/-- A part backs the address (R27, R28). -/
def backed (a : Nat) : Bool :=
  decide (a < 0x8000000000) ||
  (decide (scrBase ≤ a) && decide (a < scrBase + 64 * 0x2000000) && decide ((a - scrBase) % 0x2000000 < scrBytes))

/-- Every address of the range is backed. -/
def backedRange (a n : Nat) : Bool :=
  n == 0 || (backed a && backed (a + n - 1) &&
    (decide (a + n ≤ 0x8000000000) || (a - scrBase) / 0x2000000 == (a + n - 1 - scrBase) / 0x2000000))

/-- What a byte of device memory that nothing has written reads as. DESIGN CHOICE (log entry 4): the spec gives none. -/
def memDefault : Byte := 0#8

/-- One byte of device memory. -/
def State.byte (s : State) (a : Nat) : Byte := get memDefault s.mem a

/-- Write one byte; the memory keeps its canonical form. -/
def State.setByte (s : State) (a : Nat) (b : Byte) : State := { s with mem := put memDefault s.mem a b }

/-- Read `n` bytes from `a`. -/
def State.readMem (s : State) (a n : Nat) : Bytes := (List.range n).map (fun i => s.byte (a + i))

/-- The cells after writing the bytes of `bs` from `a` on. -/
def writeCells : Nat → Bytes → List Host.Cell → List Host.Cell
  | _, [], m => m
  | a, b :: r, m => writeCells (a + 1) r (put memDefault m a b)

/-- Write the bytes of `bs` from `a` on. -/
def State.writeMem (s : State) (a : Nat) (bs : Bytes) : State := { s with mem := writeCells a bs s.mem }

/-- Remove every cell of the range, which then reads as unwritten. -/
def State.clearMem (s : State) (a n : Nat) : State :=
  { s with mem := s.mem.filter (fun c => decide (c.1 < a) || decide (a + n ≤ c.1)) }

/-- Little-endian number of `n` bytes at `a`. -/
def State.readNum (s : State) (a n : Nat) : Nat := leNat (s.readMem a n)

/-- Write `n` little-endian bytes of `v` at `a`. -/
def State.writeNum (s : State) (a n v : Nat) : State := s.writeMem a (leBytes n v)

/-- The memory is in its canonical form: addresses strictly rising, no cell equal to an unwritten byte. -/
abbrev Memory.wf (m : List Host.Cell) : Bool := wfMap memDefault m

/-! ### Facts of the whole module -/

/-- The module state of R29 by its code: 0 OFF, 1 BOOT, 2 READY, 3 SERVING, 4 DEGRADED, 5 SHUTDOWN. -/
def State.moduleState (s : State) : Nat :=
  match s.power.phase with
  | .off => 0
  | .boot => 1
  | .shutdown => 5
  | .up => if s.tick.running then (if s.vats.any (fun x => x.2.state == VatState.retired) then 4 else 3) else 2

/-- Core power is on (BOOT and later, but SHUTDOWN). -/
def State.coreOn (s : State) : Bool := s.power.phase == .boot || s.power.phase == .up

/-- The next draw of the random generator (R425): 48 bytes no one can predict. -/
def State.draw (s : State) : BitVec 384 × State :=
  (Config.drbg s.free.draw, { s with free := { s.free with draw := s.free.draw + 1 } })

/-- The refusal cause of R478, by the conditions of R18: throttle or shutdown level, PWR_ON_BATT, OWNER_LOCK, a margin
re-plan, a stress window; 0 for none. -/
def State.updCause (s : State) : Nat :=
  if s.therm.throttle then 1
  else if s.power.phase = .shutdown then 2
  else if s.power.batt then 3
  else if s.sec.locked then 4
  else if s.groups.any (fun x => x.2.replan.isSome || x.2.planNext.isSome) then 5
  else if s.test.phase ≠ .idle ∧ s.test.phase ≠ .done then 6
  else 0

/-- A condition of R18 holds. -/
def State.refused18 (s : State) : Bool := s.updCause != 0

/-- Number of a sequenced block among the reloads: vats 0 to 63, ports 64 to 69, then the single blocks. -/
def seqCode : SeqBlock → Nat
  | .vat v => v.val
  | .felt p => 64 + p.val
  | .sched => 72 | .hub => 73 | .sess => 74 | .kv => 75 | .strm => 76 | .ream => 77 | .err => 78 | .cal => 79
  | .therm => 80 | .test => 81

/-- The block's tables are being reloaded. -/
def State.reloading (s : State) (code : Nat) : Bool := get 0 s.reloads code != 0

/-- A hub unit's tables are being reloaded (R505). -/
def State.hubReload (s : State) : Bool := [SeqBlock.hub, .sess, .kv, .strm, .ream, .err].any (fun b => s.reloading (seqCode b))

/-- The code PAGE_STS.STATE gives a vat state (R583). -/
def VatState.code : VatState → Nat
  | .off => 0 | .calibrating => 1 | .idle => 2 | .run => 3 | .draining => 4 | .service => 5 | .retired => 6

/-- Function that a deckle's requests carry (R399): its VF when enabled, else the PF. -/
def State.fnOf (s : State) (d : Nat) : Nat := if d < s.host.vfs then d + 1 else 0

/-- The host port may issue a bus-master request for function `fn` (R408, R410). -/
def State.mayIssue (s : State) (fn : Nat) : Bool :=
  s.host.linkUp && !s.host.stopIssue && (s.func fn).busMaster && !(s.func fn).d3

/-- IF_LEVEL of the module: that of the active HUBCFG (R472). -/
def State.activeIfLevel (s : State) : Nat := (get {} s.upd.active 1).ifLevel

/-- A tick is in force: from its strobe to the next one, or to the stop after it (R47, R406). -/
def State.ticking (s : State) : Bool := s.tick.inTick || (s.tick.running && !s.tick.starting)

/-- A posted write into host memory, issued in order (R399, R401). -/
def State.post (s : State) (fn addr : Nat) (data : Bytes) (relaxed : Bool := false) : State :=
  { s with host := { s.host with posted := s.host.posted ++ [{ fn, addr, data, relaxed }] } }

end Sys2Proof.Machine
end

