-- ==== Sys2Proof/Machine/Regs.lean ====
section
/-! DEFINITION. The writable register fields of the pages (R553 to R600): place, access code and reset value, and the
reading of a field. A field's value in force stands in `regs`, its pending RWT value in `shadows`. -/
namespace Sys2Proof.Machine

/-- Access codes of R21 that store a value; RO and W1C fields live with the state they show. -/
inductive Acc where
  | rw | rwt | rwl
  deriving DecidableEq, Repr

/-- The fields a register write stores. -/
inductive Fld where
  | hostIfl -- HUB HOST_IFL
  | sessWin -- HUB SESS_WIN
  | torusId -- TORUS_ID
  | join -- JOIN
  | joinAuto -- JOIN_AUTO
  | szM1 -- SZ - 1
  | syM1 -- SY - 1
  | sxM1 -- SX - 1
  | nodeId -- NODE_ID
  | membLead -- MEMB_LEAD
  | imgMask -- IMG_CMD MASK
  | imgKind -- IMG_CMD KIND
  | imgOp -- IMG_CMD OP
  | updLen -- UPD_LEN
  | updExp0 -- UPD_EXPECT word 0
  | updExp1 -- UPD_EXPECT word 1
  | updExp2 -- UPD_EXPECT word 2
  | updExp3 -- UPD_EXPECT word 3
  | updExp4 -- UPD_EXPECT word 4
  | updExp5 -- UPD_EXPECT word 5
  | imgSelKind -- IMG_SEL KIND
  | imgSelSlot -- IMG_SEL SLOT
  | imgSelWord -- IMG_SEL WORD
  | telemSel -- TELEM_SEL
  | forceFast -- TELEM_FORCE_FAST
  | coolantIn -- COOLANT_IN
  | pointSel -- POINT_SEL
  | pwrLimit -- PWR_LIMIT
  | planOrder -- PLAN_ORDER
  | histVat -- HIST_SEL VAT
  | histGroup -- HIST_SEL GROUP
  | histPair -- HIST_SEL PAIR
  | sbWord -- SB_SEL WORD
  | sbEntry -- SB_SEL ENTRY
  | slotDbgWord -- SESS SLOT_SEL WORD
  | slotDbgSlot -- SESS SLOT_SEL SLOT
  | slotDbgSess -- SESS SLOT_SEL SESSION
  | ideReq -- IDE_REQ
  | ownerDesc -- OWNER_DESC
  | dbgToken -- DBG_TOKEN
  | keySlot -- KEY_SEL owner slot
  | keyWord -- KEY_SEL word
  | autoReset -- AUTO_RESET (kept in Power)
  | ageSel -- AGE_SEL
  | errSelPage -- ERR_SEL page index
  | errSelWord -- ERR_SEL word
  | strmSel -- STRM_SEL
  | reamDesc -- REAM_DESC
  | mmapSlot -- MMAP_SEL slot
  | mmapIdx -- MMAP_SEL member index
  | slotSelWord -- SLOT_SEL word
  | slotSelImg -- SLOT_SEL image
  | slotSelSlot -- SLOT_SEL slot
  | testMask -- TEST_CMD class mask
  | testApply -- TEST_CMD APPLY
  | testVat -- TEST_CMD VAT
  | testOp -- TEST_CMD OP
  | resRec -- TEST_RES_SEL record
  | resWord -- TEST_RES_SEL word
  | attest -- ATTEST_MODE
  | laneErrLim -- LANE_ERR_LIM
  | laneSel -- LANE_SEL
  | ownerSel -- OWNER_SEL
  | surgeLim -- SURGE_LIM
  | repairRes -- REPAIR_RES
  | corrKind -- CORR_SEL KIND
  | corrGroup -- CORR_SEL GROUP
  | corrIndex -- CORR_SEL INDEX
  | sessCount -- SESS_COUNT
  | sessBase -- SESS_BASE
  | deckWin -- DECK SESS_WIN
  | sqBase -- SQ_BASE
  | sqPiAddr -- SQ_PI_ADDR
  | fetchMax -- FETCH_MAX
  | sqSize -- SQ_SIZE
  | sqEn -- SQ_EN
  | cqBase -- CQ_BASE
  | cqPiAddr -- CQ_PI_ADDR
  | cqCiAddr -- CQ_CI_ADDR
  | trReads -- TR_READS
  | cqSize -- CQ_SIZE
  | cqEn -- CQ_EN
  | wmRate -- WM_RATE
  | sealed -- SEALED
  | share -- SHARE
  | dedicated -- DEDICATED
  | sbQuota -- SB_QUOTA
  | accSel -- ACC_SEL
  | accAllot -- ACC_ALLOT: ACC_COUNT [47:32], ACC_BASE [15:0]
  | kvQuota -- KV_QUOTA
  | attnSet -- ATTN_SET
  | swapBase -- SWAP_BASE
  | swapPages -- SWAP_PAGES
  | swapSize -- SWAP_SIZE
  | quireDesc -- QUIRE_DESC
  | drainLimit -- DRAIN_LIMIT
  | reamPolicy -- REAM_POLICY
  | pubBytes -- PUB_BYTES
  | ringSel -- RING_SEL
  | ringSize -- RING_SIZE
  | ringNode -- RING_NODE of member RING_SEL
  | deckIfl -- DECK HOST_IFL
  | derrSel -- DERR_SEL
  deriving DecidableEq, Repr

/-- Place and access of a field: page kind, offset, bits, access code, reset value. -/
structure FldInfo where
  kind  : Nat
  off   : Nat
  hi    : Nat
  lo    : Nat
  acc   : Acc
  reset : Nat
  deriving DecidableEq, Repr

/-- The register maps of R559 to R600. -/
def fldInfo : Fld → FldInfo
  | .hostIfl => ⟨0x1, 0x108, 31, 0, .rwl, 0⟩
  | .sessWin => ⟨0x1, 0x110, 17, 9, .rw, 0⟩
  | .torusId => ⟨0x1, 0x118, 63, 0, .rwl, 0⟩
  | .join => ⟨0x1, 0x120, 47, 47, .rwl, 0⟩
  | .joinAuto => ⟨0x1, 0x120, 46, 46, .rwt, 1⟩
  | .szM1 => ⟨0x1, 0x120, 30, 26, .rwl, 0⟩
  | .syM1 => ⟨0x1, 0x120, 25, 21, .rwl, 0⟩
  | .sxM1 => ⟨0x1, 0x120, 20, 16, .rwl, 0⟩
  | .nodeId => ⟨0x1, 0x120, 14, 0, .rwl, 0⟩
  | .membLead => ⟨0x1, 0x128, 15, 0, .rwt, 64⟩
  | .imgMask => ⟨0x3, 0x100, 22, 16, .rwt, 0⟩
  | .imgKind => ⟨0x3, 0x100, 15, 8, .rwt, 0⟩
  | .imgOp => ⟨0x3, 0x100, 7, 0, .rwt, 0⟩
  | .updLen => ⟨0x3, 0x108, 25, 0, .rwt, 0⟩
  | .updExp0 => ⟨0x3, 0x110, 63, 0, .rwt, 0⟩
  | .updExp1 => ⟨0x3, 0x118, 63, 0, .rwt, 0⟩
  | .updExp2 => ⟨0x3, 0x120, 63, 0, .rwt, 0⟩
  | .updExp3 => ⟨0x3, 0x128, 63, 0, .rwt, 0⟩
  | .updExp4 => ⟨0x3, 0x130, 63, 0, .rwt, 0⟩
  | .updExp5 => ⟨0x3, 0x138, 63, 0, .rwt, 0⟩
  | .imgSelKind => ⟨0x3, 0x150, 18, 16, .rw, 0⟩
  | .imgSelSlot => ⟨0x3, 0x150, 9, 8, .rw, 0⟩
  | .imgSelWord => ⟨0x3, 0x150, 2, 0, .rw, 0⟩
  | .telemSel => ⟨0x6, 0x100, 8, 0, .rw, 0⟩
  | .forceFast => ⟨0x6, 0x110, 0, 0, .rwt, 0⟩
  | .coolantIn => ⟨0x6, 0x118, 11, 0, .rwt, 1360⟩
  | .pointSel => ⟨0x6, 0x128, 7, 0, .rw, 0⟩
  | .pwrLimit => ⟨0x7, 0x100, 4, 0, .rwt, 16⟩
  | .planOrder => ⟨0x8, 0x100, 0, 0, .rwt, 0⟩
  | .histVat => ⟨0x8, 0x128, 29, 24, .rw, 0⟩
  | .histGroup => ⟨0x8, 0x128, 18, 8, .rw, 0⟩
  | .histPair => ⟨0x8, 0x128, 3, 0, .rw, 0⟩
  | .sbWord => ⟨0xb, 0x100, 18, 16, .rw, 0⟩
  | .sbEntry => ⟨0xb, 0x100, 14, 0, .rw, 0⟩
  | .slotDbgWord => ⟨0xc, 0x110, 26, 24, .rw, 0⟩
  | .slotDbgSlot => ⟨0xc, 0x110, 20, 20, .rw, 0⟩
  | .slotDbgSess => ⟨0xc, 0x110, 17, 0, .rw, 0⟩
  | .ideReq => ⟨0x4, 0x100, 0, 0, .rwl, 0⟩
  | .ownerDesc => ⟨0x4, 0x108, 63, 0, .rwt, 0⟩
  | .dbgToken => ⟨0x4, 0x148, 63, 0, .rwt, 0⟩
  | .keySlot => ⟨0x4, 0x158, 9, 8, .rw, 0⟩
  | .keyWord => ⟨0x4, 0x158, 2, 0, .rw, 0⟩
  | .autoReset => ⟨0x5, 0x108, 0, 0, .rw, 0⟩
  | .ageSel => ⟨0x9, 0x100, 5, 0, .rw, 0⟩
  | .errSelPage => ⟨0xa, 0x100, 26, 16, .rw, 0⟩
  | .errSelWord => ⟨0xa, 0x100, 2, 0, .rw, 0⟩
  | .strmSel => ⟨0xe, 0x100, 3, 0, .rw, 0⟩
  | .reamDesc => ⟨0xf, 0x100, 63, 0, .rwt, 0⟩
  | .mmapSlot => ⟨0xf, 0x108, 19, 16, .rw, 0⟩
  | .mmapIdx => ⟨0xf, 0x108, 14, 0, .rw, 0⟩
  | .slotSelWord => ⟨0xf, 0x118, 18, 16, .rw, 0⟩
  | .slotSelImg => ⟨0xf, 0x118, 8, 8, .rw, 0⟩
  | .slotSelSlot => ⟨0xf, 0x118, 3, 0, .rw, 0⟩
  | .testMask => ⟨0x10, 0x100, 63, 32, .rwt, 0⟩
  | .testApply => ⟨0x10, 0x100, 16, 16, .rwt, 0⟩
  | .testVat => ⟨0x10, 0x100, 13, 8, .rwt, 0⟩
  | .testOp => ⟨0x10, 0x100, 7, 0, .rwt, 0⟩
  | .resRec => ⟨0x10, 0x110, 15, 4, .rw, 0⟩
  | .resWord => ⟨0x10, 0x110, 1, 0, .rw, 0⟩
  | .attest => ⟨0x11, 0x100, 8, 8, .rwl, 0⟩
  | .laneErrLim => ⟨0x11, 0x118, 15, 0, .rwt, 4096⟩
  | .laneSel => ⟨0x11, 0x168, 4, 0, .rw, 0⟩
  | .ownerSel => ⟨0x12, 0x120, 19, 0, .rw, 0⟩
  | .surgeLim => ⟨0x13, 0x100, 7, 0, .rwl, 192⟩
  | .repairRes => ⟨0x14, 0x100, 7, 0, .rwt, 64⟩
  | .corrKind => ⟨0x16, 0x108, 31, 31, .rw, 0⟩
  | .corrGroup => ⟨0x16, 0x108, 26, 16, .rw, 0⟩
  | .corrIndex => ⟨0x16, 0x108, 8, 0, .rw, 0⟩
  | .sessCount => ⟨0x18, 0x100, 50, 32, .rwl, 0⟩
  | .sessBase => ⟨0x18, 0x100, 17, 0, .rwl, 0⟩
  | .deckWin => ⟨0x18, 0x108, 8, 0, .rw, 0⟩
  | .sqBase => ⟨0x18, 0x110, 63, 12, .rwl, 0⟩
  | .sqPiAddr => ⟨0x18, 0x118, 63, 3, .rwl, 0⟩
  | .fetchMax => ⟨0x18, 0x120, 25, 16, .rwt, 32⟩
  | .sqSize => ⟨0x18, 0x120, 12, 8, .rwl, 0⟩
  | .sqEn => ⟨0x18, 0x120, 0, 0, .rwl, 0⟩
  | .cqBase => ⟨0x18, 0x130, 63, 12, .rwl, 0⟩
  | .cqPiAddr => ⟨0x18, 0x138, 63, 3, .rwl, 0⟩
  | .cqCiAddr => ⟨0x18, 0x140, 63, 3, .rwl, 0⟩
  | .trReads => ⟨0x18, 0x148, 22, 16, .rwt, 16⟩
  | .cqSize => ⟨0x18, 0x148, 12, 8, .rwl, 0⟩
  | .cqEn => ⟨0x18, 0x148, 0, 0, .rwl, 0⟩
  | .wmRate => ⟨0x18, 0x150, 28, 24, .rwt, 12⟩
  | .sealed => ⟨0x18, 0x150, 16, 16, .rwt, 1⟩
  | .share => ⟨0x18, 0x150, 8, 0, .rwt, 16⟩
  | .dedicated => ⟨0x18, 0x158, 63, 0, .rwl, 0⟩
  | .sbQuota => ⟨0x18, 0x160, 15, 0, .rwt, 2048⟩
  | .accSel => ⟨0x18, 0x168, 5, 0, .rw, 0⟩
  | .accAllot => ⟨0x18, 0x170, 47, 0, .rwl, 0⟩
  | .kvQuota => ⟨0x18, 0x178, 31, 0, .rwl, 0⟩
  | .attnSet => ⟨0x18, 0x180, 63, 0, .rwl, 0xffffffffffffffff⟩
  | .swapBase => ⟨0x18, 0x188, 63, 16, .rwl, 0⟩
  | .swapPages => ⟨0x18, 0x190, 38, 32, .rwt, 4⟩
  | .swapSize => ⟨0x18, 0x190, 31, 0, .rwl, 0⟩
  | .quireDesc => ⟨0x18, 0x198, 63, 0, .rwt, 0⟩
  | .drainLimit => ⟨0x18, 0x1a0, 63, 32, .rwt, 4096⟩
  | .reamPolicy => ⟨0x18, 0x1a0, 0, 0, .rwt, 0⟩
  | .pubBytes => ⟨0x18, 0x1a8, 16, 0, .rwt, 7936⟩
  | .ringSel => ⟨0x18, 0x1b0, 20, 16, .rw, 0⟩
  | .ringSize => ⟨0x18, 0x1b0, 5, 0, .rwl, 0⟩
  | .ringNode => ⟨0x18, 0x1b8, 14, 0, .rwl, 0⟩
  | .deckIfl => ⟨0x18, 0x1c0, 31, 0, .rwl, 0⟩
  | .derrSel => ⟨0x18, 0x1c8, 2, 0, .rw, 0⟩

/-- Every field, in the order of the table. -/
def allFlds : List Fld := List.flatten [
   [.hostIfl, .sessWin, .torusId, .join, .joinAuto, .szM1, .syM1, .sxM1, .nodeId, .membLead],
   [.imgMask, .imgKind, .imgOp, .updLen, .updExp0, .updExp1, .updExp2, .updExp3, .updExp4, .updExp5],
   [.imgSelKind, .imgSelSlot, .imgSelWord, .telemSel, .forceFast, .coolantIn, .pointSel, .pwrLimit, .planOrder, .histVat],
   [.histGroup, .histPair, .sbWord, .sbEntry, .slotDbgWord, .slotDbgSlot, .slotDbgSess, .ideReq, .ownerDesc, .dbgToken],
   [.keySlot, .keyWord, .autoReset, .ageSel, .errSelPage, .errSelWord, .strmSel, .reamDesc, .mmapSlot, .mmapIdx],
   [.slotSelWord, .slotSelImg, .slotSelSlot, .testMask, .testApply, .testVat, .testOp, .resRec, .resWord, .attest],
   [.laneErrLim, .laneSel, .ownerSel, .surgeLim, .repairRes, .corrKind, .corrGroup, .corrIndex, .sessCount, .sessBase],
   [.deckWin, .sqBase, .sqPiAddr, .fetchMax, .sqSize, .sqEn, .cqBase, .cqPiAddr, .cqCiAddr, .trReads],
   [.cqSize, .cqEn, .wmRate, .sealed, .share, .dedicated, .sbQuota, .accSel, .accAllot, .kvQuota],
   [.attnSet, .swapBase, .swapPages, .swapSize, .quireDesc, .drainLimit, .reamPolicy, .pubBytes, .ringSel, .ringSize],
   [.ringNode, .deckIfl, .derrSel]]

/-- The number that names a field in `regs` and in a shadow. -/
def fldCode : Fld → Nat
  | .hostIfl => 0
  | .sessWin => 1
  | .torusId => 2
  | .join => 3
  | .joinAuto => 4
  | .szM1 => 5
  | .syM1 => 6
  | .sxM1 => 7
  | .nodeId => 8
  | .membLead => 9
  | .imgMask => 10
  | .imgKind => 11
  | .imgOp => 12
  | .updLen => 13
  | .updExp0 => 14
  | .updExp1 => 15
  | .updExp2 => 16
  | .updExp3 => 17
  | .updExp4 => 18
  | .updExp5 => 19
  | .imgSelKind => 20
  | .imgSelSlot => 21
  | .imgSelWord => 22
  | .telemSel => 23
  | .forceFast => 24
  | .coolantIn => 25
  | .pointSel => 26
  | .pwrLimit => 27
  | .planOrder => 28
  | .histVat => 29
  | .histGroup => 30
  | .histPair => 31
  | .sbWord => 32
  | .sbEntry => 33
  | .slotDbgWord => 34
  | .slotDbgSlot => 35
  | .slotDbgSess => 36
  | .ideReq => 37
  | .ownerDesc => 38
  | .dbgToken => 39
  | .keySlot => 40
  | .keyWord => 41
  | .autoReset => 42
  | .ageSel => 43
  | .errSelPage => 44
  | .errSelWord => 45
  | .strmSel => 46
  | .reamDesc => 47
  | .mmapSlot => 48
  | .mmapIdx => 49
  | .slotSelWord => 50
  | .slotSelImg => 51
  | .slotSelSlot => 52
  | .testMask => 53
  | .testApply => 54
  | .testVat => 55
  | .testOp => 56
  | .resRec => 57
  | .resWord => 58
  | .attest => 59
  | .laneErrLim => 60
  | .laneSel => 61
  | .ownerSel => 62
  | .surgeLim => 63
  | .repairRes => 64
  | .corrKind => 65
  | .corrGroup => 66
  | .corrIndex => 67
  | .sessCount => 68
  | .sessBase => 69
  | .deckWin => 70
  | .sqBase => 71
  | .sqPiAddr => 72
  | .fetchMax => 73
  | .sqSize => 74
  | .sqEn => 75
  | .cqBase => 76
  | .cqPiAddr => 77
  | .cqCiAddr => 78
  | .trReads => 79
  | .cqSize => 80
  | .cqEn => 81
  | .wmRate => 82
  | .sealed => 83
  | .share => 84
  | .dedicated => 85
  | .sbQuota => 86
  | .accSel => 87
  | .accAllot => 88
  | .kvQuota => 89
  | .attnSet => 90
  | .swapBase => 91
  | .swapPages => 92
  | .swapSize => 93
  | .quireDesc => 94
  | .drainLimit => 95
  | .reamPolicy => 96
  | .pubBytes => 97
  | .ringSel => 98
  | .ringSize => 99
  | .ringNode => 100
  | .deckIfl => 101
  | .derrSel => 102

/-- The tenant fields of R398, which a VF may write. -/
def isTenant : Fld → Bool
  | .sqBase | .sqSize | .sqPiAddr | .sqEn | .cqBase | .cqSize | .cqPiAddr | .cqCiAddr | .cqEn | .swapBase | .swapSize
  | .quireDesc | .reamPolicy | .drainLimit | .deckWin | .deckIfl => true
  | _ => false

/-- Key of copy `c` of a field: the deckle, the port, the vat, or the deckle with a member or vat number. -/
def fldKey (f : Fld) (c : Nat) : Nat := fldCode f * 2 ^ 24 + c

/-- The value in force of copy `c` of a field. -/
def State.reg (s : State) (f : Fld) (c : Nat := 0) : Nat := get (fldInfo f).reset s.regs (fldKey f c)

/-- Put a value in force. -/
def State.setReg (s : State) (f : Fld) (c v : Nat) : State :=
  { s with regs := put (fldInfo f).reset s.regs (fldKey f c) v }

/-- The copy number of a deckle's ring member or vat allotment (R230, R387). -/
def memberCopy (d m : Nat) : Nat := d * 32 + m
def allotCopy (d v : Nat) : Nat := d * 64 + v

/-- Accumulator allotment of deckle `d` on vat `v`: first tile and count (R230). -/
def State.allot (s : State) (d v : Nat) : Nat × Nat :=
  let w := s.reg .accAllot (allotCopy d v)
  (bits w 15 0, bits w 47 32)

/-! ### Page indices (R395, R495) -/

/-- Page index of a page kind and instance: BAR0 offset divided by 0x1000. -/
def pageIndex (kind inst : Nat) : Nat :=
  if kind ≤ 0x10 then kind
  else if kind = 0x11 then 0x20 + inst
  else if kind = 0x12 then 0x30 + inst
  else if kind = 0x18 then 0x40 + inst
  else 0x100 + 16 * inst + (kind - 0x13)

/-- Kind and instance of a page index; none where no page lies. -/
def pageOf (p : Nat) : Option (Nat × Nat) :=
  if 1 ≤ p ∧ p ≤ 0x10 then some (p, 0)
  else if 0x20 ≤ p ∧ p < 0x26 then some (0x11, p - 0x20)
  else if 0x30 ≤ p ∧ p < 0x38 then some (0x12, p - 0x30)
  else if 0x40 ≤ p ∧ p < 0x50 then some (0x18, p - 0x40)
  else if 0x100 ≤ p ∧ p < 0x500 ∧ p % 16 < 5 then some (0x13 + p % 16, (p - 0x100) / 16)
  else none

/-! ### Session ranges (R279, R280) -/

/-- Deckle whose session range contains the index; none outside every range. -/
def State.ownerOf (s : State) (i : Nat) : Option Nat :=
  allDeckles.find? (fun d => decide (s.reg .sessBase d ≤ i) && decide (i < s.reg .sessBase d + s.reg .sessCount d))

/-- The deckle of a session that is open; 0 where no range holds it. -/
def State.deckOf (s : State) (i : Nat) : Nat := (s.ownerOf i).getD 0

/-- The sessions that are not CLOSED and lie in the deckle's range, ascending. -/
def State.openSessions (s : State) (d : Nat) : List Nat :=
  (s.sessions.filter (fun x => x.2.state != .closed && s.ownerOf x.1 == some d)).map (fun x => x.1)

/-- The sessions of a deckle's range the table holds anything for, ascending. -/
def State.sessionsOf (s : State) (d : Nat) : List Nat :=
  (s.sessions.filter (fun x => s.ownerOf x.1 == some d)).map (fun x => x.1)

end Sys2Proof.Machine
end

