-- ==== Sys2Proof/Machine/Codes.lean ====
section
/-! DEFINITION. The error codes of every chapter (R22, R491) with their class and their routing. -/
namespace Sys2Proof.Machine

/-- Every error a block reports, but SEQ_FAULT, whose page kind is that of the block that faulted. -/
inductive Err where
  | ideFail
  | hubIflMismatch
  | hostLinkDown
  | hubHostRead
  | webForeign
  | tagParity
  | addrUnmapped
  | periodRange
  | periodBelowPlan
  | updRefused
  | updBusy
  | imgFormat
  | imgDigest
  | imgSig
  | updOverrun
  | flashWrite
  | notStaged
  | noOrder
  | needsStop
  | settingsReset
  | actDeferred
  | bootFallback
  | bootFail
  | keyGen
  | debugDenied
  | debugUnlock
  | ownerDenied
  | hubHang
  | refLost
  | refFallback
  | tempWarn
  | tempThrottle
  | sensorBroken
  | sensorsDegraded
  | thermTrip
  | telemConvFail
  | telemLost
  | powerGuard
  | limitRange
  | pstageFault
  | marginLow
  | floorBreach
  | fallbackFail
  | trimRange
  | onesMismatch
  | planChange
  | replanFail
  | recordBad
  | recordWrite
  | errSelf
  | eventLost
  | unitLost
  | overrunLimit
  | tileForeign
  | kvForeign
  | sbDup
  | xwindow
  | badCommand
  | sessBusy
  | sessState
  | badParam
  | noInput
  | full
  | badToken
  | quireBind
  | notActive
  | tagMismatch
  | ckptFormat
  | kvEcc
  | swapAuth
  | noFit
  | kvQuotaSum
  | swapSum
  | kvInvalid
  | tileCrc
  | tileFormat
  | tileCheck
  | planPeriod
  | reamFormat
  | reamIfl
  | sectDigest
  | reamDigest
  | reamSig
  | placeClash
  | corrFit
  | noSpace
  | genOrder
  | slotBusy
  | couchBreak
  | noPlace
  | quireFormat
  | quireDigest
  | quireBase
  | quireInUse
  | discarded
  | stressRefused
  | stressAbort
  | patternFail
  | vatFail
  | laneMapout
  | laneLimit
  | portFail
  | linkAuth
  | attestFail
  | neighbourCfg
  | unreachable
  | xferForeign
  | epochMismatch
  | alignLost
  | rekeyFail
  | memEccCorr
  | pageWithdrawn
  | retireRefused
  | memEccUncorr
  | miscount
  | burstFormat
  | stuckBudget
  | sparesExhausted
  | nonfinite
  | serviceRefused
  | watermarkMismatch
  | corrStore
  | quireRead
  | ctxCrc
  | ringMember
  | countOverflow
  | convSuspect
  | refNotReady
  | refFault
  | corrSelRange
  | clkLock
  | scrEccCorr
  | scrEccUncorr
  | sqOverflow
  | sqPiBack
  | fetchSum
  | deckQuotaSum
  | quotaBelowPlan
  | shareSum
  | shareBelowPlan
  | dedicatedClash
  | sessClash
  | trReadsSum
  | vfWriteRo
  | pubSum
  | deckHostRead
  | deckIflMismatch
  | deckBusy
  | ringConfig
  | accClash
  | fieldRange
  | seqFault (kind : Nat)
  deriving DecidableEq, Repr

/-- A code's class, page kind and block code; whether it counts toward R498 (CONTAINED codes not named by R499), whether
a CORRECTED code reaches the deckle's own capture (R436), and the PF vector it raises (0 for management only; R489,
R390, R463, R501). -/
structure ErrInfo where
  cls    : Nat
  kind   : Nat
  code   : Nat
  counts : Bool
  tenant : Bool
  vec    : Nat
  deriving DecidableEq, Repr

/-- The code tables of R144, R178, R213, R245, R277, R313, R347, R390, R412, R438, R463, R489, R520, R540, R561, R600. -/
def errInfo : Err → ErrInfo
  | .ideFail => ⟨1, 0x1, 0x10, false, false, 2⟩
  | .hubIflMismatch => ⟨1, 0x1, 0x11, false, false, 2⟩
  | .hostLinkDown => ⟨1, 0x1, 0x12, false, false, 2⟩
  | .hubHostRead => ⟨1, 0x1, 0x13, false, false, 2⟩
  | .webForeign => ⟨2, 0x1, 0x20, true, false, 2⟩
  | .tagParity => ⟨2, 0x1, 0x21, true, false, 2⟩
  | .addrUnmapped => ⟨2, 0x1, 0x22, true, false, 2⟩
  | .periodRange => ⟨1, 0x2, 0x1, false, false, 2⟩
  | .periodBelowPlan => ⟨1, 0x2, 0x2, false, false, 2⟩
  | .updRefused => ⟨1, 0x3, 0x1, false, false, 1⟩
  | .updBusy => ⟨1, 0x3, 0x2, false, false, 1⟩
  | .imgFormat => ⟨1, 0x3, 0x3, false, false, 1⟩
  | .imgDigest => ⟨1, 0x3, 0x4, false, false, 1⟩
  | .imgSig => ⟨1, 0x3, 0x5, false, false, 1⟩
  | .updOverrun => ⟨1, 0x3, 0x6, false, false, 1⟩
  | .flashWrite => ⟨1, 0x3, 0x7, false, false, 1⟩
  | .notStaged => ⟨1, 0x3, 0x8, false, false, 1⟩
  | .noOrder => ⟨1, 0x3, 0x9, false, false, 1⟩
  | .needsStop => ⟨1, 0x3, 0xa, false, false, 1⟩
  | .settingsReset => ⟨1, 0x3, 0xb, false, false, 1⟩
  | .actDeferred => ⟨1, 0x3, 0xc, false, false, 1⟩
  | .bootFallback => ⟨1, 0x3, 0xd, false, false, 1⟩
  | .bootFail => ⟨4, 0x4, 0x1, false, false, 0⟩
  | .keyGen => ⟨1, 0x4, 0x2, false, false, 0⟩
  | .debugDenied => ⟨1, 0x4, 0x3, false, false, 0⟩
  | .debugUnlock => ⟨2, 0x4, 0x4, false, false, 2⟩
  | .ownerDenied => ⟨1, 0x4, 0x5, false, false, 2⟩
  | .hubHang => ⟨4, 0x5, 0x1, false, false, 2⟩
  | .refLost => ⟨4, 0x5, 0x2, false, false, 2⟩
  | .refFallback => ⟨1, 0x5, 0x3, false, false, 2⟩
  | .tempWarn => ⟨1, 0x6, 0x1, false, false, 0⟩
  | .tempThrottle => ⟨1, 0x6, 0x2, false, false, 0⟩
  | .sensorBroken => ⟨1, 0x6, 0x3, false, false, 0⟩
  | .sensorsDegraded => ⟨1, 0x6, 0x4, false, false, 0⟩
  | .thermTrip => ⟨4, 0x6, 0x5, false, false, 0⟩
  | .telemConvFail => ⟨1, 0x6, 0x20, false, false, 2⟩
  | .telemLost => ⟨4, 0x6, 0x21, false, false, 2⟩
  | .powerGuard => ⟨1, 0x7, 0x1, false, false, 0⟩
  | .limitRange => ⟨1, 0x7, 0x2, false, false, 0⟩
  | .pstageFault => ⟨4, 0x7, 0x3, false, false, 0⟩
  | .marginLow => ⟨1, 0x8, 0x1, false, false, 2⟩
  | .floorBreach => ⟨1, 0x8, 0x2, false, false, 2⟩
  | .fallbackFail => ⟨1, 0x8, 0x3, false, false, 2⟩
  | .trimRange => ⟨1, 0x8, 0x4, false, false, 2⟩
  | .onesMismatch => ⟨1, 0x8, 0x5, false, false, 2⟩
  | .planChange => ⟨1, 0x8, 0x6, false, false, 2⟩
  | .replanFail => ⟨1, 0x8, 0x7, false, false, 2⟩
  | .recordBad => ⟨1, 0x9, 0x1, false, false, 2⟩
  | .recordWrite => ⟨1, 0x9, 0x2, false, false, 2⟩
  | .errSelf => ⟨4, 0xa, 0x1, false, false, 2⟩
  | .eventLost => ⟨1, 0xa, 0x2, false, false, 2⟩
  | .unitLost => ⟨2, 0xa, 0x3, false, false, 2⟩
  | .overrunLimit => ⟨2, 0xb, 0x1, false, false, 2⟩
  | .tileForeign => ⟨2, 0xb, 0x2, false, false, 2⟩
  | .kvForeign => ⟨2, 0xb, 0x3, false, false, 2⟩
  | .sbDup => ⟨2, 0xb, 0x4, true, false, 2⟩
  | .xwindow => ⟨2, 0xb, 0x5, false, false, 2⟩
  | .badCommand => ⟨1, 0xc, 0x1, false, false, 2⟩
  | .sessBusy => ⟨1, 0xc, 0x2, false, false, 2⟩
  | .sessState => ⟨1, 0xc, 0x3, false, false, 2⟩
  | .badParam => ⟨1, 0xc, 0x4, false, false, 2⟩
  | .noInput => ⟨1, 0xc, 0x5, false, false, 2⟩
  | .full => ⟨1, 0xc, 0x6, false, false, 2⟩
  | .badToken => ⟨1, 0xc, 0x7, false, false, 2⟩
  | .quireBind => ⟨1, 0xc, 0x8, false, false, 2⟩
  | .notActive => ⟨1, 0xc, 0x9, false, false, 2⟩
  | .tagMismatch => ⟨1, 0xc, 0xa, false, false, 2⟩
  | .ckptFormat => ⟨1, 0xc, 0xb, false, false, 2⟩
  | .kvEcc => ⟨2, 0xd, 0x1, false, false, 2⟩
  | .swapAuth => ⟨2, 0xd, 0x2, false, false, 2⟩
  | .noFit => ⟨1, 0xd, 0x3, false, false, 2⟩
  | .kvQuotaSum => ⟨1, 0xd, 0x4, false, true, 2⟩
  | .swapSum => ⟨1, 0xd, 0x5, false, true, 2⟩
  | .kvInvalid => ⟨1, 0xd, 0x6, false, false, 2⟩
  | .tileCrc => ⟨1, 0xf, 0x1, false, false, 2⟩
  | .tileFormat => ⟨1, 0xf, 0x2, false, false, 2⟩
  | .tileCheck => ⟨1, 0xf, 0x3, false, false, 2⟩
  | .planPeriod => ⟨1, 0xf, 0x4, false, false, 2⟩
  | .reamFormat => ⟨1, 0xf, 0x5, false, false, 2⟩
  | .reamIfl => ⟨1, 0xf, 0x6, false, false, 2⟩
  | .sectDigest => ⟨1, 0xf, 0x7, false, false, 2⟩
  | .reamDigest => ⟨1, 0xf, 0x8, false, false, 2⟩
  | .reamSig => ⟨1, 0xf, 0x9, false, false, 2⟩
  | .placeClash => ⟨1, 0xf, 0xa, false, false, 2⟩
  | .corrFit => ⟨1, 0xf, 0xb, false, false, 2⟩
  | .noSpace => ⟨1, 0xf, 0xc, false, false, 2⟩
  | .genOrder => ⟨1, 0xf, 0xd, false, false, 2⟩
  | .slotBusy => ⟨1, 0xf, 0xe, false, false, 2⟩
  | .couchBreak => ⟨1, 0xf, 0xf, false, false, 2⟩
  | .noPlace => ⟨2, 0xf, 0x10, false, false, 2⟩
  | .quireFormat => ⟨1, 0xf, 0x11, false, true, 2⟩
  | .quireDigest => ⟨1, 0xf, 0x12, false, true, 2⟩
  | .quireBase => ⟨1, 0xf, 0x13, false, true, 2⟩
  | .quireInUse => ⟨1, 0xf, 0x14, false, true, 2⟩
  | .discarded => ⟨1, 0xf, 0x15, false, false, 2⟩
  | .stressRefused => ⟨1, 0x10, 0x1, false, false, 2⟩
  | .stressAbort => ⟨1, 0x10, 0x2, false, false, 2⟩
  | .patternFail => ⟨1, 0x10, 0x3, false, false, 2⟩
  | .vatFail => ⟨1, 0x10, 0x4, false, false, 2⟩
  | .laneMapout => ⟨1, 0x11, 0x1, false, false, 0⟩
  | .laneLimit => ⟨1, 0x11, 0x2, false, false, 0⟩
  | .portFail => ⟨1, 0x11, 0x3, false, false, 0⟩
  | .linkAuth => ⟨1, 0x11, 0x4, false, false, 0⟩
  | .attestFail => ⟨1, 0x11, 0x5, false, false, 0⟩
  | .neighbourCfg => ⟨1, 0x11, 0x6, false, false, 0⟩
  | .unreachable => ⟨2, 0x11, 0x7, false, false, 2⟩
  | .xferForeign => ⟨2, 0x11, 0x8, false, false, 2⟩
  | .epochMismatch => ⟨1, 0x11, 0x9, false, false, 0⟩
  | .alignLost => ⟨1, 0x11, 0xa, false, false, 0⟩
  | .rekeyFail => ⟨1, 0x11, 0xb, false, false, 0⟩
  | .memEccCorr => ⟨1, 0x12, 0x1, false, false, 2⟩
  | .pageWithdrawn => ⟨1, 0x12, 0x2, false, false, 2⟩
  | .retireRefused => ⟨1, 0x12, 0x3, false, false, 2⟩
  | .memEccUncorr => ⟨2, 0x12, 0x4, false, false, 2⟩
  | .miscount => ⟨1, 0x13, 0x1, false, false, 2⟩
  | .burstFormat => ⟨2, 0x13, 0x2, true, false, 2⟩
  | .stuckBudget => ⟨1, 0x13, 0x3, false, false, 2⟩
  | .sparesExhausted => ⟨3, 0x13, 0x4, false, false, 2⟩
  | .nonfinite => ⟨2, 0x13, 0x5, false, false, 2⟩
  | .serviceRefused => ⟨1, 0x13, 0x6, false, false, 2⟩
  | .watermarkMismatch => ⟨1, 0x14, 0x1, false, false, 0⟩
  | .corrStore => ⟨2, 0x14, 0x2, true, false, 2⟩
  | .quireRead => ⟨2, 0x14, 0x3, false, false, 2⟩
  | .ctxCrc => ⟨2, 0x14, 0x4, false, false, 2⟩
  | .ringMember => ⟨2, 0x15, 0x1, false, false, 2⟩
  | .countOverflow => ⟨1, 0x16, 0x1, false, false, 2⟩
  | .convSuspect => ⟨1, 0x16, 0x2, false, false, 2⟩
  | .refNotReady => ⟨1, 0x16, 0x3, false, false, 2⟩
  | .refFault => ⟨1, 0x16, 0x4, false, false, 2⟩
  | .corrSelRange => ⟨1, 0x16, 0x5, false, false, 2⟩
  | .clkLock => ⟨3, 0x16, 0x6, false, false, 2⟩
  | .scrEccCorr => ⟨1, 0x17, 0x1, false, false, 2⟩
  | .scrEccUncorr => ⟨2, 0x17, 0x2, true, false, 2⟩
  | .sqOverflow => ⟨1, 0x18, 0x1, false, true, 2⟩
  | .sqPiBack => ⟨1, 0x18, 0x2, false, true, 2⟩
  | .fetchSum => ⟨1, 0x18, 0x3, false, true, 2⟩
  | .deckQuotaSum => ⟨1, 0x18, 0x4, false, true, 2⟩
  | .quotaBelowPlan => ⟨1, 0x18, 0x5, false, true, 2⟩
  | .shareSum => ⟨1, 0x18, 0x6, false, true, 2⟩
  | .shareBelowPlan => ⟨1, 0x18, 0x7, false, true, 2⟩
  | .dedicatedClash => ⟨1, 0x18, 0x8, false, true, 2⟩
  | .sessClash => ⟨1, 0x18, 0x9, false, true, 2⟩
  | .trReadsSum => ⟨1, 0x18, 0xa, false, true, 2⟩
  | .vfWriteRo => ⟨1, 0x18, 0xb, false, true, 2⟩
  | .pubSum => ⟨1, 0x18, 0xc, false, true, 2⟩
  | .deckHostRead => ⟨2, 0x18, 0xd, false, false, 2⟩
  | .deckIflMismatch => ⟨1, 0x18, 0xe, false, true, 2⟩
  | .deckBusy => ⟨1, 0x18, 0xf, false, true, 2⟩
  | .ringConfig => ⟨1, 0x18, 0x10, false, true, 2⟩
  | .accClash => ⟨1, 0x18, 0x11, false, true, 2⟩
  | .fieldRange => ⟨1, 0x18, 0x12, false, true, 2⟩
  | .seqFault k => ⟨2, k, 0x3E, true, false, 2⟩

/-- The 16-bit code of a class, a page kind and a block code (R22). -/
def codeOf (cls kind code : Nat) : Nat := cls * 4096 + kind * 64 + code

/-- The 16-bit code of an error in its own class. -/
def errCode (e : Err) : Nat := codeOf (errInfo e).cls (errInfo e).kind (errInfo e).code

end Sys2Proof.Machine
end

