-- ==== Sys2Proof/Machine/Reports.lean ====
section
/-! DEFINITION. Captures, counts, management events, MSI-X vectors and the routing of a report (R405, R406, R493 to R496,
R501 to R503). -/
namespace Sys2Proof.Machine

/-! ### Captures, counts and events (R494 to R496, R502) -/

/-- One error on a page: the first is captured, a later one sets MULTI; both count. -/
def PageRegs.take (p : PageRegs) (c : Capture) : PageRegs :=
  let p := if c.code / 4096 = 1 then { p with corrected := satAdd 32 p.corrected 1 }
           else { p with others := satAdd 32 p.others 1 }
  match p.capture with
  | none => { p with capture := some c }
  | some k => { p with capture := some { k with multi := true, count := satAdd 32 k.count 1 } }

/-- Room of the queue for CORRECTED events: 256 less the 32 reserved (R502). -/
def eventRoom : Nat := 224

/-- Queue a management event; a CORRECTED one that finds its share full is dropped and counted (R502). While the
always-on domain has failed nothing is reported (R508). -/
def ErrState.event (e : ErrState) (c : Capture) : ErrState :=
  if c.code / 4096 = 1 then
    if e.events.length < eventRoom then { e with events := e.events ++ [c] }
    else { e with eventLost := satAdd 32 e.eventLost 1 }
  else { e with events := e.events ++ [c]
                last16 := (e.last16 ++ [c]).drop ((e.last16 ++ [c]).length - 16) }

/-! ### Vectors (R405, R406, R501) -/

/-- An event of a vector falls due; vectors whose table entry holds address 0 raise nothing. -/
def State.raiseVector (s : State) (fn v : Nat) : State :=
  if (get {} (s.func fn).table v).addr = 0 then s
  else s.modFunc fn (fun f => if f.due.contains v then f else { f with due := f.due ++ [v] })

/-- The message of a due vector, or its pending bit while it or its function is masked. While the function may not
issue a request the vector stays due (R406, R408). -/
def State.sendVector (s : State) (fn v : Nat) : State :=
  let f := s.func fn
  let m := get {} f.table v
  let drop := fun f : Func => { f with due := f.due.filter (· != v) }
  if m.masked || f.msixMask then
    s.modFunc fn (fun f =>
      { drop f with pendBits := if f.pendBits.contains v then f.pendBits else f.pendBits ++ [v] })
  else if f.msixEn && s.mayIssue fn then
    (s.modFunc fn (fun f => { drop f with pendBits := f.pendBits.filter (· != v) })).post fn m.addr (leBytes 4 m.data)
  else s

/-- The messages due and those pending whose mask is gone (R39, R406). -/
def State.sendVectors (s : State) : State :=
  (List.range 17).foldl (fun s fn =>
    let f := s.func fn
    let vs := (List.range 32).filter (fun v => f.due.contains v || f.pendBits.contains v)
    vs.foldl (fun s v => s.sendVector fn v) s) s

/-- Post the PF's waiting status records, at most 4,096 bytes of them with 32 bytes charged for each (R403, R406). -/
def State.flushPf (s : State) : State :=
  if s.mayIssue 0 ∧ !s.host.pfRecs.isEmpty then
    let now := s.host.pfRecs.take 64
    let s := { s with host := { s.host with pfRecs := s.host.pfRecs.drop 64 } }
    now.foldl (fun s r => s.post 0 r.1 r.2) s
  else s

/-- A PF vector's event: written in phase 5 of the tick, or at once while no tick runs (R406). -/
def State.pfVector (s : State) (v : Nat) : State :=
  let s := s.raiseVector 0 v
  if s.ticking then s else if (s.func 0).due.contains v then s.sendVector 0 v else s

/-! ### Routing (R493, R501, R503) -/

/-- The code a deckle is given: UNIT_LOST for the fatal classes and for another unit's fault (R493). -/
def deckleCode (e : Err) (cls : Nat) : Nat :=
  let lost := match e with
    | .seqFault _ => true
    | .clkLock => true
    | _ => decide (3 ≤ cls)
  if lost then errCode .unitLost else codeOf cls (errInfo e).kind (errInfo e).code

/-- A report in a deckle's own capture: GROUP 0xFFFF, UNIT 0, ADDR for two codes only (R503). -/
def State.toDeckle (s : State) (d : Nat) (c : Capture) (code : Nat) : State :=
  let keepAddr := code == errCode .webForeign || code == errCode .addrUnmapped
  s.modPage (pageIndex 0x18 d) (fun p => p.take { c with code, page := pageIndex 0x18 d, deckle := d, isModule := false,
                                                          unit := 0, group := 0xFFFF,
                                                          addr := if keepAddr then c.addr else 0 })

/-- Queue a management event. One that is dropped is reported as EVENT_LOST on the ERR page (R502, R520). DESIGN CHOICE:
that report is itself no event (entry 131). -/
def State.queueEvent (s : State) (c : Capture) : State :=
  let e := s.errs.event c
  let t := { s with errs := e }
  if e.eventLost = s.errs.eventLost then t
  else
    let t := t.modPage (pageIndex 0x0A 0) (fun p => p.take
      { code := errCode .eventLost, isModule := true, page := pageIndex 0x0A 0, tick := s.tick.now })
    if bit (t.pageRegs (pageIndex 0x0A 0)).mask 0 then t else t.pfVector 2

/-- Capture and route a report whose class is known: the block's page, the deckle's capture and VF vector 2, the PF
vector, the management event (R494, R501, R502). -/
def State.route (s : State) (e : Err) (inst cls : Nat) (deckle : Option Nat) (c : Capture) : State :=
  let i := errInfo e
  let page := pageIndex i.kind inst
  let s := if i.kind = 0x18 then s.toDeckle inst c c.code else s.modPage page (fun p => p.take c)
  let s := match deckle with
    | none => s
    | some d =>
      let s := if i.kind ≠ 0x18 ∧ (cls = 2 ∨ cls = 3 ∨ (cls = 1 ∧ i.tenant)) then s.toDeckle d c (deckleCode e cls)
               else s
      if cls = 2 ∨ cls = 3 then s.raiseVector (d + 1) 2 else s
  let mask := (s.pageRegs page).mask
  let s := if cls = 4 ∨ i.vec ≠ 2 then (if i.vec = 1 then s.pfVector 1 else s)
           else if (cls = 1 ∧ bit mask 0) ∨ (cls = 2 ∧ bit mask 1) then s
           else s.pfVector 2
  if s.power.i3cUp then s.queueEvent c else s

/-- Report an error of class CORRECTED, which takes nothing out. -/
def State.corrected (s : State) (e : Err) (inst : Nat) (deckle : Option Nat) (session : Nat := 0xFFFFFFFF) : State :=
  s.route e inst 1 deckle
    { code := errCode e, isModule := deckle.isNone, page := pageIndex (errInfo e).kind inst, tick := s.tick.now
      session, deckle := deckle.getD 0xFF }

end Sys2Proof.Machine
end

