-- ==== Sys2Proof/Machine/Requests.lean ====
section
/-! DEFINITION. Requests and their ends: completion records into publication units, steps withdrawn, waiting requests
started (R234, R286, R293, R295, R297, R404). -/
namespace Sys2Proof.Machine

/-- The committed length with the positions of the steps completed in this tick, which COMMIT_LEN takes in at its
publication phase (R262, R288). -/
def Session.len (x : Session) : Nat := x.commitLen + x.commitDue

/-! ### Publication units (R404) -/

/-- Order of a write within its unit (R39, R299): log, completion, tokens, producer index. -/
def PubWrite.rank : PubWrite → Nat
  | .log .. => 0 | .completion .. => 1 | .token .. => 2 | .tokenPi .. => 3 | .quireStatus .. => 4

/-- The writes of a unit after further ones: each kind in its place, one producer index at most. -/
def mergeWrites (old new : List PubWrite) : List PubWrite :=
  let old := if new.any (fun w => w.rank == 3) then old.filter (fun w => w.rank != 3) else old
  sortBy (fun a b => decide (a.rank ≤ b.rank)) (old ++ new)

/-- Add writes to the request's unit of this tick, or open a new unit at the end of the queue; `irq` asks for a message with
the completion record or the token records among them (R302). -/
def addToUnits (sess req order : Nat) (irq : Bool) (ws : List PubWrite) : List PubUnit → List PubUnit
  | [] => [{ session := sess, req, irq := irq && ws.any (fun w => w.rank == 1)
             irqTok := irq && ws.any (fun w => w.rank == 2), order, writes := mergeWrites [] ws }]
  | u :: r =>
    if u.fresh && !u.quire && u.req == req && u.session == sess then
      { u with irq := u.irq || (irq && ws.any (fun w => w.rank == 1))
               irqTok := u.irqTok || (irq && ws.any (fun w => w.rank == 2)), order := max u.order order,
                writes := mergeWrites u.writes ws } :: r
    else u :: addToUnits sess req order irq ws r

/-- Add writes of one request to its deckle's publication. -/
def State.publish (s : State) (d sess req order : Nat) (irq : Bool) (ws : List PubWrite) : State :=
  s.modDeckle d (fun k => { k with units := addToUnits sess req order irq ws k.units })

/-- The reference period at which phase 5 begins (R33). -/
def State.tail (s : State) : Nat := s.tick.period - 150

/-- Complete a command with its single final status (R295, R297). Status 1 DONE, 2 CANCELLED, 3 ERROR, 4 REAM_CHANGED,
5 TTL_EXPIRED, 6 REJECTED; `late` is CANCEL_LATE, `swapped` SWAPPED_ONCE. -/
def State.finish (s : State) (d : Nat) (c : Cmd) (status err ended : Nat) (late swapped : Bool) (tokens order : Nat) :
    State :=
  let i := eSession c.entry
  let x := s.session i
  let flags := b2n late + 2 * b2n swapped + 4 * b2n x.restarted
  s.publish d i c.id order (eIrq c.entry)
    [.completion (eTag c.entry) i status flags (eCode c.entry) ended err tokens x.len]

/-- Complete a command at the tail of the tick without a request of its own. -/
def State.finishNow (s : State) (d : Nat) (c : Cmd) (status err : Nat) : State :=
  s.finish d c status err 0 false false 0 s.tail

/-- Complete a command REJECTED with a rejection code (R313), counted on the SESS page (R569). A rejection code of class
CORRECTED is reported as well: the completion record is its way to the deckle (R501). -/
def State.reject (s : State) (d : Nat) (c : Cmd) (e : Err) : State :=
  let t := s.finishNow d c 6 (errCode e)
  let t := { t with rejects := satAdd 32 t.rejects 1 }
  if (errInfo e).cls = 1 ∧ (errInfo e).kind ≠ 0x18 then t.corrected e 0 (some d) (eSession c.entry) else t

/-! ### Steps (R216, R230, R234) -/

/-- The step of deckle `d` with that number. -/
def State.stepOf (s : State) (d id : Nat) : Option StepRec := (s.deckle d).steps.find? (fun t => t.id == id)

/-- Change a step. -/
def State.modStep (s : State) (d id : Nat) (f : StepRec → StepRec) : State :=
  s.modDeckle d (fun k => { k with steps := k.steps.map (fun t => if t.id = id then f t else t) })

/-- A vector of a step: its index, session and position. -/
structure VecAt where
  v    : Nat
  sess : Nat
  pos  : Nat
  deriving DecidableEq, Repr

/-- Every vector of a step, member by member in ascending position. -/
def StepRec.allVecs (t : StepRec) : List VecAt :=
  let l := (List.range t.sessions.length).foldr (fun i a =>
    (List.range (nth t.counts i)).map (fun k => (nth t.sessions i, nth t.bases i + k)) ++ a) []
  l.zipIdx.map (fun x => { v := x.2, sess := x.1.1, pos := x.1.2 })

/-- The vectors whose request has not ended. -/
def StepRec.vecs (t : StepRec) : List VecAt := t.allVecs.filter (fun x => !t.dead.contains x.sess)

/-- The vectors a template works on. -/
def tmplVecs (t : StepRec) (m : Template) : List VecAt :=
  t.vecs.filter (fun x => x.v % (max 1 m.share.2) == m.share.1)

/-- Live members of a step. -/
def StepRec.live (t : StepRec) : List Nat := t.sessions.filter (fun i => !t.dead.contains i)

/-- The sessions of the vectors an operation works on: an error of it names them (R234). -/
def State.opSessions (s : State) (o : OpRec) : List Nat :=
  match s.stepOf o.deckle o.step, o.tmpl with
  | some t, some m => t.live.filter (fun i => (tmplVecs t m).any (fun x => x.sess == i))
  | some t, none => t.live
  | none, _ => []

/-- The operation waits for its re-issue in a tick after `now`. -/
def OpRec.again (o : OpRec) (now : Nat) : OpRec :=
  { o with reissue := true, stopTick := now, localDone := false, peerDone := false, peerWaits := false }

/-- Key of a physical accumulator tile of a vat. -/
def tileKey (v t : Nat) : Nat := v * 8192 + t

/-- Free the accumulator tiles of some bindings (R230). -/
def releaseTiles (b : List (Nat × Nat × Nat)) (s : State) : State :=
  { s with sched := { s.sched with
    bound := b.foldl (fun m x => put 0 m (tileKey x.2.1 x.2.2) 0) s.sched.bound } }

/-- Withdraw a step whole: its operations leave the scoreboard and its tiles are free. -/
def State.dropStep (s : State) (d id : Nat) : State :=
  match s.stepOf d id with
  | none => s
  | some t =>
    let s := { s with sched := { s.sched with
      ops := s.sched.ops.filter (fun o => !(o.deckle == d && o.step == id)) } }
    releaseTiles t.bind (s.modDeckle d (fun k => { k with steps := k.steps.filter (fun t => t.id != id) }))

/-- The request of session `i` has ended: its vectors are withdrawn from the steps that hold it, and a step left
without a member is withdrawn whole (R234). -/
def State.withdraw (s : State) (d i : Nat) : State :=
  let touched := (s.deckle d).steps.filter (fun t => t.sessions.contains i && !t.dead.contains i)
  touched.foldl (fun s t =>
    let dead := i :: t.dead
    if t.sessions.all dead.contains then s.dropStep d t.id
    else s.modStep d t.id (fun t => { t with dead := i :: t.dead })) s

/-! ### Ends and starts of requests (R286, R293, R311) -/

/-- The state a session falls to when it leaves PREFILL (R282). -/
def Session.leave (x : Session) : SessState :=
  if x.state == .prefill then (if x.hasPending then .decode else .opened) else x.state

/-- The active request of session `i` ends with a final status. ERROR sets KV_INVALID (R311). -/
def State.endActive (s : State) (i status err ended : Nat) (late : Bool) (order : Nat) : State :=
  match (s.session i).active with
  | none => s
  | some r =>
    let d := s.deckOf i
    let s := s.finish d r.cmd status err ended late r.swapped r.emitted order
    let s := s.withdraw d i
    s.modSession i (fun x => { x with active := none, state := x.leave
                                      kvInvalid := x.kvInvalid || status == 3 })

/-- The waiting command of session `i` ends with a final status. -/
def State.endWaiting (s : State) (i status err order : Nat) : State :=
  match (s.session i).waiting with
  | none => s
  | some r =>
    let s := s.finish (s.deckOf i) r.cmd status err 0 false r.swapped r.emitted order
    s.modSession i (fun x => { x with waiting := none })

/-- The image a slot serves new steps from (R316). -/
def State.currentOf (s : State) (k : Nat) : Option Image := (s.slot k).current

/-- Why a request can no longer start, if it cannot: image gone or unplaced, KV invalid, no pending token, no position
left (R276, R288, R289, R344). -/
def State.startBar (s : State) (i : Nat) (r : Request) : Option Err :=
  let x := s.session i
  if (s.currentOf x.model).isNone then some .badParam
  else if x.kvInvalid then some .kvInvalid
  else if (s.slot x.model).unplaced then some .noPlace
  else match r.kind with
    | .prefill => if x.maxLen < x.len + pCount r.cmd.entry then some .full else none
    | .generate => if !x.hasPending then some .noInput else if x.maxLen ≤ x.len then some .full else none
    | _ => none

/-- Make a request the active one (R286). A PREFILL writes the pending token's position first, then the given tokens
but the last (R288); one with nothing to write ends at once with its last token pending. -/
def State.startRequest (s : State) (i : Nat) (r : Request) (order : Nat) : State :=
  let d := s.deckOf i
  match s.startBar i r with
  | some e => s.reject d r.cmd e
  | none =>
    let x := s.session i
    match r.kind with
    | .prefill =>
      let toks := (if x.hasPending then [x.pendingTok] else []) ++ r.tokens
      let r := { r with tokens := toks, remain := toks.length - 1, logged := x.len + b2n x.hasPending }
      if toks.length ≤ 1 then
        let s := s.modSession i (fun x =>
          { x with pendingTok := nth toks 0, hasPending := true, state := if x.state == .swapped then .swapped else .decode })
        let s := s.publish d i r.cmd.id order false [.log (x.histAddr + 4 * x.len) toks]
        s.finish d r.cmd 1 0 0 false r.swapped 0 order
      else
        s.modSession i (fun x => { x with active := some r, state := if x.state == .swapped then .swapped else .prefill })
    | _ => s.modSession i (fun x => { x with active := some r })

/-- A CHECKPOINT of the session waits to be written (R290). -/
def Session.checkpointDue (x : Session) : Bool := (x.waiting.map (fun r => r.kind == .checkpoint && !r.ending)).getD false

/-- A CANCEL, PAUSE or CLOSE of the session waits for its boundary. -/
def Session.stopping (x : Session) : Bool := x.cancelPending || x.pausePending.isSome || !x.closePending.isEmpty

/-- A waiting PREFILL or GENERATE starts when no request is active (R286). -/
def State.startWaiting (s : State) (i order : Nat) : State :=
  match (s.session i).active, (s.session i).waiting with
  | none, some r =>
    if r.kind == .checkpoint || (s.session i).stopping then s
    else (s.modSession i (fun x => { x with waiting := none })).startRequest i r order
  | _, _ => s

/-- A request of session `i` ends with ERROR and the code its deckle is given (R5, R234, R311). A RESUME waiting for its
swap-in ends with it. -/
def State.failSession (s : State) (i code : Nat) (order : Nat) : State :=
  let d := s.deckOf i
  let x := s.session i
  if x.state == .closed then s
  else
    let s := s.withdraw d i
    let s := s.endActive i 3 code 0 false order
    let s := match x.resumeReq with
      | none => s
      | some c => s.finish d c 3 code 0 false false 0 order
    let s := s.modSession i (fun x => { x with kvInvalid := true, resumeReq := none })
    s.startWaiting i order

end Sys2Proof.Machine
end

