-- ==== Sys2Proof/Machine/Errors.lean ====
section
/-! DEFINITION. Reporting an error: capture, counts, escalation, routing, management events, and what each class takes
out (R491 to R503). -/
namespace Sys2Proof.Machine

/-- An error as its block detects it. -/
structure Report where
  err      : Err
  inst     : Nat := 0                  -- page instance: port, stack, deckle or vat
  deckle   : Option Nat := none        -- the deckle it is reported against
  seq      : Nat := 0
  unit     : Nat := 0x40
  group    : Nat := 0xFFFF
  addr     : Nat := 0
  detail   : Nat := 0
  vat      : Option Nat := none        -- the vat it counts against and takes out
  named    : List Nat := []            -- sessions of the vectors it names (R234)
  injected : Bool := false
  cause    : Nat := 3                  -- RET_CAUSE of a vat it retires (R584)
  cls      : Option Nat := none        -- class other than the table's (R504)
  withdrawn : Bool := false            -- the same boundary had already withdrawn the operation (R500)
  order    : Nat := 0                  -- reference period of detection

/-! ### Module-wide ends -/

/-- What is left when core power goes: the supplies and pins, the retained records of the always-on domain (LAST_SHUT,
the last 16 events, AUTO_RESET, the event queue), the fuses and the flash (R423, R458, R492, R527), of which a record copy
being written is invalid (R179). Sessions, images in the stacks, keys, registers and debug state are gone. -/
def State.corePowerOff (s : State) : State :=
  { State.reset with
    pending := s.pending
    power := { s.power with stage := 0, bootMs := 0, tap := .bypass }
    errs := { events := s.errs.events, eventLost := s.errs.eventLost, last16 := s.errs.last16 }
    host := { perstN := s.host.perstN, posted := s.host.posted }
    therm := { lastShut := s.therm.lastShut }
    sec := { uds := s.sec.uds, vkeys := s.sec.vkeys, revoked := s.sec.revoked, lifecycle := s.sec.lifecycle
             debugPerm := s.sec.debugPerm, serial := s.sec.serial, romDigest := s.sec.romDigest, cert := s.sec.cert
             owners := s.sec.owners, reqSig := s.sec.reqSig, locked := s.sec.locked }
    upd := { flash := s.upd.flash, dirs := s.upd.dirs
             recs := match s.upd.recBusy with
               | some (copy, _) => s.upd.recs.set copy none
               | none => s.upd.recs
             recSeqs := match s.upd.recBusy with
               | some (copy, _) => s.upd.recSeqs.set copy 0
               | none => s.upd.recSeqs }
    free := s.free }

/-- Core power is removed and the module enters SHUTDOWN with LAST_SHUT (R29, R458, R492). -/
def State.shutdown (s : State) (cause index : Nat) : State :=
  let t := s.corePowerOff
  { t with power := { t.power with phase := .shutdown, shutCause := cause }
           therm := { lastShut := (cause, index, s.tick.now % 2 ^ 32) } }

/-- The page of a report. -/
def Report.page (r : Report) : Nat := pageIndex (errInfo r.err).kind r.inst

/-! ### Escalation (R498 to R500) -/

/-- Escalation units: vat v, compute die d, hub unit by page kind, felt port p. -/
def unitVat (v : Nat) : Nat := v
def unitDie (d : Nat) : Nat := 64 + d
def unitHub (k : Nat) : Nat := 128 + k
def unitPort (p : Nat) : Nat := 256 + p

/-- Page kinds of the hub units of R498: HUB, ERR, SCHED, SESS, KV, STRM, REAM. -/
def hubKinds : List Nat := [0x01, 0x0A, 0x0B, 0x0C, 0x0D, 0x0E, 0x0F]

/-- An earlier error was counted against the unit no more than 64 ticks before. -/
def State.counted (s : State) (u : Nat) : Bool :=
  let t := get 0 s.errs.history u
  t != 0 && decide (s.tick.now + 1 ≤ t + 64)

/-- Count an error against a unit. -/
def State.count (s : State) (u : Nat) : State :=
  { s with errs := { s.errs with history := put 0 s.errs.history u (s.tick.now + 1) } }

/-- The vat is already out of service, so an error against it changes nothing further (R500). -/
def State.gone (s : State) (v : Option Nat) : Bool :=
  match v with
  | none => false
  | some v => (s.vat v).state == .retired

/-- The class after escalation and whether it was raised; 3 against a felt port means FAILED (R358). -/
def State.escalate (s : State) (r : Report) : Nat × Bool × State :=
  let i := errInfo r.err
  let c := r.cls.getD i.cls
  if s.gone r.vat then (c, false, s)
  else if c = 2 ∧ i.counts then
    match r.vat with
    | some v =>
      let hit := s.counted (unitVat v)
      let s := s.count (unitVat v)
      if hit then (3, true, s.count (unitDie (dieOf v))) else (2, false, s)
    | none =>
      if hubKinds.contains i.kind then
        let hit := s.counted (unitHub i.kind)
        let s := s.count (unitHub i.kind)
        if hit then (4, true, s) else (2, false, s)
      else (2, false, s)
  else if c = 3 then
    match r.vat with
    | some v =>
      let hit := s.counted (unitDie (dieOf v))
      let s := s.count (unitDie (dieOf v))
      if hit then (4, true, s) else (3, false, s)
    | none => (3, false, s)
  else (c, false, s)

/-! ### Routing and effects (R491, R493, R501) -/

/-- Operations of a unit that is taken out fail CONTAINED naming all their vectors, whose requests end with UNIT_LOST; the
deckles record it (R491, R493, R504). What is left of them is re-issued (R234). -/
def State.loseOps (s : State) (hold : OpRec → Bool) (order : Nat) : State :=
  let lost := fun o : OpRec => o.state == .waiting && hold o
  let hit := (s.sched.ops.filter lost).foldl (fun acc o => acc ++
    ((s.opSessions o).filter (fun i => !acc.contains (o.deckle, i))).map (fun i => (o.deckle, i))) []
  let s := { s with sched := { s.sched with
    ops := s.sched.ops.map (fun o => if lost o then { o.again s.tick.now with failed := true } else o) } }
  let s := hit.foldl (fun s x => s.failSession x.2 (errCode .unitLost) order) s
  (allDeckles.filter (fun d => hit.any (fun x => x.1 == d))).foldl (fun s d =>
    (s.toDeckle d { code := errCode .unitLost, tick := s.tick.now } (errCode .unitLost)).raiseVector (d + 1) 2) s

/-- A vat becomes RETIRED at once: every operation admitted on it fails naming all its vectors, whose requests end with
UNIT_LOST (R491, R493). -/
def State.retireVat (s : State) (v cause order : Nat) : State :=
  if (s.vat v).state == .retired then s
  else
    let s := s.modVat v (fun x => { x with state := .retired, retCause := cause, runReq := false, idleReq := false
                                           serviceReq := false })
    s.loseOps (fun o => o.unit == v && !o.reissue) order

/-- Report an error: count and escalate it, capture it, route it, and take out what its class says. The requests it
names end with ERROR (R234). -/
def State.report (s : State) (r : Report) : State :=
  let i := errInfo r.err
  let was := s.gone r.vat
  let (cls, esc, s) := s.escalate r
  let code := codeOf cls i.kind i.code
  let c : Capture := { code, escalated := esc, injected := r.injected, isModule := r.deckle.isNone, page := r.page
                       tick := s.tick.now, seq := r.seq, session := (r.named.head?).getD 0xFFFFFFFF
                       deckle := r.deckle.getD 0xFF, unit := r.unit, group := r.group, addr := r.addr
                       detail := r.detail }
  let s := s.route r.err r.inst cls r.deckle c
  if cls = 4 then s.shutdown (if r.err = .thermTrip then r.cause else if r.err = .pstageFault then 4 else 3)
                        (if r.err = .thermTrip then r.detail else 0)
  else
    let s := if r.withdrawn then s
             else r.named.foldl (fun s i => s.failSession i (deckleCode r.err cls) r.order) s
    match r.vat with
    | some v => if cls = 3 ∧ !was then s.retireVat v (if esc then 3 else r.cause) r.order else s
    | none => s

end Sys2Proof.Machine
end

