-- ==== Sys2Proof/Machine/Pages.lean ====
section
/-! DEFINITION. Pages of the stacks: owner bytes, allocation, release and withdrawal (R257, R259, R417, R499, R594,
R595, R602). -/
namespace Sys2Proof.Machine

/-- Pages of a stack: 64 KiB each (R594). -/
def stackPages : Nat := 2 ^ 20

/-- Key of a page: its stack and its index within the stack, which is also its device address divided by 65,536. -/
def pageKey (st p : Nat) : Nat := st * stackPages + p

/-- Owner bytes of R417: free, deckle d, slot image k, module. -/
def ownDeckle (d : Nat) : Nat := 0x40 + d
def ownSlot (k : Nat) : Nat := 0x80 + k
def ownModule : Nat := 0xC0

/-- The owner byte of a page. -/
def State.owner (s : State) (k : Nat) : Nat := get 0 s.owners k

/-- The page is out of allocation. -/
def State.isOut (s : State) (k : Nat) : Bool := get 0 s.pageOut k == 1

/-- The page is neither owned nor withdrawn. -/
def State.pageFree (s : State) (k : Nat) : Bool := s.owner k == 0 && !s.isOut k

/-- The keys of a stack's pages that are owned or withdrawn, ascending. -/
def State.busyPages (s : State) (st : Nat) : List Nat :=
  let inStack := fun k => k / stackPages == st
  let own := (s.owners.filter (fun x => inStack x.1)).map (fun x => x.1)
  let out := (s.pageOut.filter (fun x => inStack x.1 && x.2 == 1 && s.owner x.1 == 0)).map (fun x => x.1)
  sortBy (fun a b => decide (a ≤ b)) (own ++ out)

/-- FREE_PAGES of a stack (R594). -/
def State.freePages (s : State) (st : Nat) : Nat := stackPages - (s.busyPages st).length

/-- The pages of every stack owned under a byte that `f` accepts. -/
def State.countOwned (s : State) (f : Nat → Bool) : Nat := (s.owners.filter (fun x => f x.2)).length

/-- KV_POOL: pages left after images, module pages and withdrawn pages; 0 from reset until start-up has ended (R257,
R595). -/
def State.kvPool (s : State) : Nat :=
  if s.power.phase = .boot ∨ s.power.phase = .off then 0
  else 8 * stackPages - s.countOwned (fun b => decide (0x80 ≤ b)) - (s.pageOut.filter (fun x => x.2 == 1)).length

/-- KV_USED of a deckle: pages of its regions, contexts and quires (R257, R326). -/
def State.kvUsed (s : State) (d : Nat) : Nat := s.countOwned (fun b => b == ownDeckle d)

/-- KV_FREE: pool pages allocated to no region, context or quire (R575). -/
def State.kvFree (s : State) : Nat := s.kvPool - s.countOwned (fun b => decide (0x40 ≤ b) && decide (b < 0x80))

/-- The lowest gap of `n` pages from `cur` on, given the busy keys above it and the end of the stack. -/
def firstGap (n cur stop : Nat) : List Nat → Option Nat
  | [] => if cur + n ≤ stop then some cur else none
  | k :: r => if cur + n ≤ k then some cur else firstGap n (max cur (k + 1)) stop r

/-- Every page of the range is free and lies in the stack. -/
def State.rangeFree (s : State) (st k n : Nat) : Bool :=
  decide (st * stackPages ≤ k) && decide (k + n ≤ (st + 1) * stackPages) &&
  !((s.busyPages st).any (fun b => decide (k ≤ b) && decide (b < k + n)))

/-- The place of `n` contiguous free pages in a stack. Which of the possible places is taken is not stated: it is the
free choice of Config when that is a possible place, and some place stands in for it otherwise (log entry 6). -/
def State.gapIn (s : State) (st n : Nat) : Option Nat :=
  let k := Config.pageChoice s.free.page
  if s.rangeFree st k n then some k
  else firstGap n (st * stackPages) ((st + 1) * stackPages) (s.busyPages st)

/-- Set the owner byte of `n` pages from key `k` on. -/
def State.own (s : State) (k n byte : Nat) : State :=
  { s with owners := (List.range n).foldl (fun m i => put 0 m (k + i) byte) s.owners
           free := { s.free with page := s.free.page + 1 } }

/-- The stack of a list with the most free pages, the lower number on a tie. -/
def State.roomiest (s : State) (l : List Nat) : Option Nat :=
  l.foldl (fun best st => match best with
    | none => some st
    | some b => if s.freePages b < s.freePages st then some st else some b) none

/-- A page leaves allocation; the MEM page of its stack records it (R499, R595). -/
def State.withdrawPage (s : State) (k : Nat) : State :=
  ({ s with pageOut := put 0 s.pageOut k 1 }).report
    { err := .pageWithdrawn, inst := k / stackPages, addr := k * 65536 }

/-- Withdraw a page at once when it is free, else when it is next released (R595). -/
def State.retirePageAt (s : State) (k : Nat) : State :=
  if s.isOut k then s
  else if s.owner k = 0 then s.withdrawPage k
  else { s with pageOut := put 0 s.pageOut k 2 }

/-- Release pages: they return to the free pages of their stack, and one whose withdrawal waits leaves allocation. Their
bytes stay as they are (R259). -/
def State.release (s : State) (ks : List Nat) : State :=
  ks.foldl (fun s k =>
    let s := { s with owners := put 0 s.owners k 0 }
    if get 0 s.pageOut k = 2 then s.withdrawPage k else s) s

/-- The pages of a range. -/
def pageRange (k n : Nat) : List Nat := (List.range n).map (k + ·)

/-- MEM page counters: 0 ECC_CORR_CNT, 1 ECC_UNCORR_CNT, 2 READ_BYTES, 3 WRITE_BYTES (R594). -/
def State.memCount (s : State) (st c n : Nat) : State :=
  let k := st * 8 + c
  { s with memStat := put 0 s.memStat k (satAdd (if c = 1 then 32 else 64) (get 0 s.memStat k) n) }

/-- Stack of a device address; none for a scratchpad. -/
def stackOf (a : Nat) : Option Nat := if a < 0x8000000000 then some (a / 2 ^ 36) else none

/-- The next stack of a round-robin that has a free page, from `st` on (R602). -/
def State.nextStack (s : State) (st : Nat) : Option Nat :=
  ((List.range 8).map (fun i => (st + i) % 8)).find? (fun t => decide (0 < s.freePages t))

/-- Take one page of a stack for an owner. -/
def State.takePage (s : State) (st byte : Nat) : Option (Nat × State) :=
  (s.gapIn st 1).map (fun k => (k, s.own k 1 byte))

/-- Take `n` pages round-robin from stack `st` on; the pages and the stack after the last (R602). -/
def takePages : Nat → Nat → Nat → List Nat → State → Option (List Nat × Nat × State)
  | 0, st, _, acc, s => some (acc, st, s)
  | n + 1, st, byte, acc, s =>
    match s.nextStack st with
    | none => none
    | some t => match s.takePage t byte with
      | none => none
      | some (k, s') => takePages n ((t + 1) % 8) byte (acc ++ [k]) s'

end Sys2Proof.Machine
end

