-- ==== Sys2Proof/Machine/Kv.lean ====
section
/-! DEFINITION. The KV manager: region geometry and addresses, placement, pressure, swap images, swap-out and swap-in
(R82, R83, R254 to R276). -/
namespace Sys2Proof.Machine

/-! ### Images a session is served by (R315, R326, R338) -/

/-- The image of slot `k` with generation `g`, CURRENT or RETIRING. -/
def State.imageGen (s : State) (k g : Nat) : Option Image :=
  let x := s.slot k
  match x.current with
  | some i => if i.gen = g then some i else x.retiring.filter (fun j => j.gen == g)
  | none => x.retiring.filter (fun j => j.gen == g)

/-- The quire image a deckle has loaded for an index of a slot under a ream digest (R326). -/
def State.quireFor (s : State) (d k idx : Nat) (digest : Bytes) : Option Quire :=
  s.quires.find? (fun q => q.deckle == d && q.slot == k && q.index == idx && q.base == digest)

/-- The generation that the next step of a session is pinned to (R291, R338). -/
def State.nextGen (s : State) (i : Nat) : Option Nat :=
  let x := s.session i
  let p := match x.active with
    | some r => r.pin
    | none => none
  p <|> (s.currentOf x.model).map (fun m => m.gen)

/-- The quire index is bound to the generation; 0xFFFF, the base ream, always is. -/
def State.quireBound (s : State) (d k idx : Nat) (gen : Option Nat) : Bool :=
  idx == 0xFFFF || (match gen.bind (s.imageGen k) with
    | some m => (s.quireFor d k idx m.digest).isSome
    | none => false)

/-! ### Region geometry (R82, R255) -/

/-- Bytes of a KV block: 64 positions of 128 keys and 128 values. -/
def blockBytes (int4 : Bool) : Nat := if int4 then 8192 else 16384

/-- Blocks per layer and head of a region. -/
def blocksMax (maxLen : Nat) (int4 : Bool) : Nat :=
  let u := if int4 then 8 else 4
  ceilDiv (ceilDiv maxLen 64) u * u

/-- Byte offset of the block array. -/
def blockOff (layers heads bMax : Nat) : Nat := ceilDiv (0x100 + 4 * (layers * heads * bMax)) 65536 * 65536

/-- Region size in pages. -/
def regionPages (layers heads maxLen : Nat) (int4 : Bool) : Nat :=
  let b := blocksMax maxLen int4
  (blockOff layers heads b + layers * heads * b * blockBytes int4) / 65536

/-- A region as its header describes it (R256). -/
structure Region where
  addr    : Nat
  int4    : Bool
  layers  : Nat
  heads   : Nat
  maxLen  : Nat
  bMax    : Nat
  blkOff  : Nat
  pages   : Nat
  firstPos : Nat
  deriving DecidableEq, Repr

/-- The region at a device address, read from its header. -/
def State.regionAt (s : State) (a : Nat) : Region :=
  { addr := a, int4 := s.readNum (a + 6) 1 == 1, layers := s.readNum (a + 0xC) 2, heads := s.readNum (a + 0xE) 2
    maxLen := s.readNum (a + 0x10) 4, bMax := s.readNum (a + 0x14) 4, blkOff := s.readNum (a + 0x18) 4
    pages := s.readNum (a + 0x1C) 4, firstPos := s.readNum (a + 0x20) 4 }

/-- Device address of the region's first byte. -/
def Session.base (x : Session) : Nat := x.regPages * 65536

/-- The region of session `i`. -/
def State.region (s : State) (i : Nat) : Region := s.regionAt (s.session i).base

/-- Index of block `b` of layer `l` and head `h`. -/
def Region.index (g : Region) (l h b : Nat) : Nat := (l * g.heads + h) * g.bMax + b

/-- Device address of a block, of its scale entry. -/
def Region.block (g : Region) (l h b : Nat) : Nat := g.addr + g.blkOff + g.index l h b * blockBytes g.int4
def Region.scale (g : Region) (l h b : Nat) : Nat := g.addr + 0x100 + 4 * g.index l h b

/-- Positions of a session that this module holds: all of them, or one chunk of a ring session (R265). -/
def localLen (maxLen chunkLog2 member : Nat) : Nat :=
  if chunkLog2 = 0 then maxLen else min (64 * 2 ^ chunkLog2) (maxLen - 64 * 2 ^ chunkLog2 * member)

/-- First position held: 0 unless in ring mode. -/
def firstPosOf (chunkLog2 member : Nat) : Nat := if chunkLog2 = 0 then 0 else 64 * 2 ^ chunkLog2 * member

/-- Write COMMIT_LEN of a resident region's header with the descriptor's. DEDUCED: WRITTEN_LEN, which counts from the last
commit or swap-in, starts again at COMMIT_LEN as R274 has it after a swap-in (R256, entry 115). -/
def State.setCommit (s : State) (i n : Nat) : State :=
  let s := s.modSession i (fun x => { x with commitLen := n })
  let a := (s.session i).base
  if (s.session i).resident then (s.writeNum (a + 0x24) 4 n).writeNum (a + 0x28) 4 n else s

/-- Raise WRITTEN_LEN to at least `n` (R261). -/
def State.raiseWritten (s : State) (i n : Nat) : State :=
  let a := (s.session i).base + 0x28
  if s.readNum a 4 < n then s.writeNum a 4 n else s

/-! ### Placement (R259, R264, R602) -/

/-- Vats of the deckle's attention set in RUN. -/
def State.attnVats (s : State) (d : Nat) : List Nat :=
  (maskBits 64 (s.reg .attnSet d)).filter (fun v => (s.vat v).state == .run)

/-- Compute die of a stack (R26). -/
def dieOfStack (st : Nat) : Nat := st / 2

/-- The stack a region of `n` pages goes to: a stack of a die with an attention vat in RUN that can hold it, the one
with the most free pages; any of the eight where there is none. -/
def State.regionStack (s : State) (d n : Nat) : Option Nat :=
  let fits := fun st => (s.gapIn st n).isSome
  let near := (List.range 8).filter (fun st => fits st && (s.attnVats d).any (fun v => dieOf v == dieOfStack st))
  s.roomiest (if near.isEmpty then (List.range 8).filter fits else near)

/-- Allocate a region of `n` pages for deckle `d`: its stack, its first page key, the state after. -/
def State.placeRegion (s : State) (d n : Nat) : Option (Nat × Nat × State) :=
  match s.regionStack d n with
  | none => none
  | some st => (s.gapIn st n).map (fun k => (st, k, s.own k n (ownDeckle d)))

/-- Give session `i` a resident region of `n` pages. -/
def State.setRegion (s : State) (i st k n : Nat) : State :=
  s.modSession i (fun x => { x with regStack := st, regPages := k, kvPages := n })

/-- Release the region and the context area of session `i` (R273, R293). -/
def State.dropRegion (s : State) (i : Nat) : State :=
  let x := s.session i
  let held := x.resident || x.swapping == some .swapIn
  let s := if held then s.release (pageRange x.regPages x.kvPages ++ x.ctxPages) else s
  s.modSession i (fun x => { x with resident := false, kvAddr := 0, ctxPages := [] })

/-! ### Swap images (R270 to R272) -/

/-- Block pages of one layer and head that hold positions below `commit`. -/
def savedPerHead (commit : Nat) (int4 : Bool) : Nat := ceilDiv commit (if int4 then 512 else 256)

/-- Page indices a swap-out saves, ascending: header and scale table, block pages, context pages. -/
def savedPages (g : Region) (commit ctx : Nat) : List Nat :=
  let head := g.blkOff / 65536
  let per := g.bMax * blockBytes g.int4 / 65536
  let body := (List.range (g.layers * g.heads)).map (fun lh =>
    (List.range (min per (savedPerHead commit g.int4))).map (fun j => head + lh * per + j))
  List.range head ++ body.foldr (· ++ ·) [] ++ (List.range ctx).map (2 ^ 31 + ·)

/-- Directory slots of an image of `n` pages. -/
def dirSlots (n : Nat) : Nat := ceilDiv (256 + 32 * n) 65536

/-- Host slots in use by a deckle's images and snapshots. -/
def State.swapFree (s : State) (d : Nat) : List Nat :=
  (List.range (s.reg .swapSize d)).filter (fun k => get 0 (s.deckle d).swapUsed k == 0)

/-- Mark host slots used by session `i`, or free with 0. -/
def State.markSlots (s : State) (d : Nat) (ks : List Nat) (v : Nat) : State :=
  s.modDeckle d (fun k => { k with swapUsed := ks.foldl (fun m j => put 0 m j v) k.swapUsed })

/-- The pages of session `i` that a swap-out would save. -/
def State.savedOf (s : State) (i : Nat) : List Nat :=
  let x := s.session i
  savedPages (s.region i) x.commitLen x.ctxPages.length

/-- Begin a swap-out of session `i` into the lowest free host slots; none when the swap region cannot hold the image
(R269, R270, R292, R511). SWAP_SEQ advances, in the region's header too (R256). -/
def State.beginSwapOut (s : State) (i : Nat) (kind : SwapKind) : Option State :=
  let d := s.deckOf i
  let pages := s.savedOf i
  let n := pages.length + dirSlots pages.length
  let free := s.swapFree d
  if free.length < n then none
  else
    let x := s.session i
    let slots := free.take n
    let m : SwapImage := { seq := x.swapSeq + 1, commit := x.commitLen, pages, slots }
    let s := s.writeNum (x.base + 0x30) 8 (x.swapSeq + 1)
    some ((s.markSlots d slots (i + 1)).modSession i (fun x =>
      { x with swapping := some kind, swapLeft := n, swapSeq := x.swapSeq + 1, image := some m, swapDone := false }))

/-- Key bytes of AES-256 from a drawn key. DESIGN CHOICE: the first 32 of its 48 bytes (R271, R423, entry 119). -/
def gcmKey (k : Option (BitVec 384)) : Bytes := (beBytes 48 (k.getD 0#384).toNat).take 32

/-- The nonce of R271: page index over the swap counter. -/
def swapIv (page ctr : Nat) : Nat := page * 2 ^ 64 + ctr % 2 ^ 64

/-- Additional authenticated data of R271: deckle, session, SWAP_SEQ, page index. DESIGN CHOICE: in that order,
little-endian, in the widths the fields have elsewhere; R271 names the fields only (entry 120). -/
def swapAad (d i seq page : Nat) : Bytes := leBytes 1 d ++ leBytes 4 i ++ leBytes 8 seq ++ leBytes 4 page

/-- Page number that names the directory. -/
def dirPage : Nat := 0xFFFFFFFF

/-- Device address of a saved page of session `i`. -/
def Session.pageAddr (x : Session) (p : Nat) : Nat :=
  if p < 2 ^ 31 then x.base + p * 65536 else nth x.ctxPages (p - 2 ^ 31) * 65536

/-- The directory of an image (R272). -/
def dirBytes (m : SwapImage) : Bytes :=
  let n := m.pages.length
  let entries := (List.range n).map (fun j =>
    leBytes 4 (nth m.pages j) ++ leBytes 4 (nth m.slots j) ++ leBytes 8 (nth m.counters j) ++ m.tags.getD j [])
  let body := leBytes 4 0x4B565357 ++ leBytes 4 n ++ leBytes 8 m.seq ++ leBytes 4 m.commit ++
    List.replicate 236 0#8 ++ entries.foldr (· ++ ·) []
  body ++ List.replicate (dirSlots n * 65536 - body.length) 0#8

/-- Take the next value of a deckle's swap counter (R271). -/
def State.swapTick (s : State) (d : Nat) : Nat × State :=
  ((s.deckle d).swapCtr, s.modDeckle d (fun k => { k with swapCtr := k.swapCtr + 1 }))

/-- Write the next slot of a swap image into host memory: data pages first, in order, then the directory (R273). -/
def State.swapWrite (s : State) (i : Nat) : State :=
  let x := s.session i
  match x.image with
  | none => s
  | some m =>
    let d := s.deckOf i
    let n := m.pages.length
    let j := m.slots.length - x.swapLeft
    let host := s.reg .swapBase d * 65536 + nth m.slots j * 65536
    let key := gcmKey (s.deckle d).swapKey
    if j < n then
      let p := nth m.pages j
      let (ctr, s) := s.swapTick d
      let (ct, tag) := gcmSeal key (swapIv p ctr) (swapAad d i m.seq p) (s.readMem (x.pageAddr p) 65536)
      let m := { m with counters := m.counters ++ [ctr], tags := m.tags ++ [tag] }
      (s.modSession i (fun x => { x with image := some m, swapLeft := x.swapLeft - 1 })).post (s.fnOf d) host ct true
    else
      let (ctr, s) := if j = n then s.swapTick d else (m.dirCtr, s)
      let (ct, tag) := gcmSeal key (swapIv dirPage ctr) (swapAad d i m.seq dirPage) (dirBytes m)
      let m := { m with dirCtr := ctr, dirTag := tag }
      (s.modSession i (fun x => { x with image := some m, swapLeft := x.swapLeft - 1 })).post (s.fnOf d) host
        ((ct.drop ((j - n) * 65536)).take 65536)

/-- Move up to `n` pages of the deckle's swaps in this tick's window, sessions in ascending order (R273). A swap-in's
pages are read; their bytes come with its completion. -/
def State.moveSwaps (d : Nat) : Nat → List Nat → State → State
  | _, [], s => s
  | n, i :: r, s =>
    let x := s.session i
    let k := min n x.swapLeft
    let s := match x.swapping with
      | none => s
      | some .swapIn => s.modSession i (fun x => { x with swapLeft := x.swapLeft - k })
      | some _ => (List.range k).foldl (fun s _ => s.swapWrite i) s
    State.moveSwaps d (n - k) r s

/-- The deckle's swaps of this tick: at most SWAP_PAGES pages, when the host port may issue them. -/
def State.swapsOf (s : State) (d : Nat) : State :=
  if s.mayIssue (s.fnOf d) ∧ !s.reloading (seqCode .kv) then
    State.moveSwaps d (s.reg .swapPages d) ((s.sessionsOf d).filter (fun i => (s.session i).swapping.isSome)) s
  else s

/-! ### Pressure (R269) -/

/-- What a request for pages finds. -/
inductive Room where
  | ok | wait | noFit
  deriving DecidableEq, Repr

/-- A step of session `i` is admitted or begun. -/
def State.stepping (s : State) (i : Nat) : Bool :=
  (s.deckle (s.deckOf i)).steps.any (fun t => t.sessions.contains i && !t.dead.contains i)

/-- A step of session `i` has been admitted and has not ended: the session stands at no step boundary (R290). -/
def State.inStep (s : State) (i : Nat) : Bool :=
  (s.deckle (s.deckOf i)).steps.any (fun t => t.sessions.contains i && !t.dead.contains i &&
    (t.seg != 0 || t.open_ops != 0 || t.saved))

/-- Victims of a deckle: resident, no step begun, no swap in progress, no ring session. -/
def State.victims (s : State) (d : Nat) : List Nat :=
  (s.openSessions d).filter (fun i =>
    let x := s.session i
    x.resident && !s.stepping i && x.swapping.isNone && !x.ring)

/-- Order of victims: lowest priority, longest since the last step, higher index. -/
def State.victimLe (s : State) (i j : Nat) : Bool :=
  let x := s.session i
  let y := s.session j
  if x.priority ≠ y.priority then decide (x.priority < y.priority)
  else if x.lastStep ≠ y.lastStep then decide (x.lastStep < y.lastStep)
  else decide (j ≤ i)

/-- The first victims, in order, that give `need` pages or more; none when all together do not. -/
def pickVictims (pages : Nat → Nat) : Nat → List Nat → List Nat → Option (List Nat)
  | 0, _, acc => some acc
  | _ + 1, [], _ => none
  | need + 1, i :: r, acc => pickVictims pages (need + 1 - pages i) r (acc ++ [i])

/-- Pages a session's swap-out frees. -/
def State.heldPages (s : State) (i : Nat) : Nat := (s.session i).kvPages + (s.session i).ctxPages.length

/-- Make room for `n` pages of a deckle's quota, swapping out victims for a shortfall. -/
def State.makeRoom (s : State) (d n : Nat) : Room × State :=
  let have_ := s.reg .kvQuota d - s.kvUsed d
  if n ≤ have_ then (.ok, s)
  else
    let going := (s.sessionsOf d).filter (fun i =>
      let w := (s.session i).swapping
      w == some .outPressure || w == some .outPause)
    let coming := going.foldl (fun a i => a + s.heldPages i) 0
    if n ≤ have_ + coming then (.wait, s)
    else match pickVictims s.heldPages (n - have_ - coming) (sortBy s.victimLe (s.victims d)) [] with
      | none => (.noFit, s)
      | some vs =>
        let need := vs.foldl (fun a i => a + (s.savedOf i).length + dirSlots (s.savedOf i).length) 0
        if (s.swapFree d).length < need then (.noFit, s)
        else (.wait, vs.foldl (fun s i => (s.beginSwapOut i .outPressure).getD s) s)

/-! ### Swap-out and swap-in (R273, R274) -/

/-- Free the host slots of a session's swap image. -/
def State.dropImage (s : State) (i : Nat) : State :=
  match (s.session i).image with
  | none => s
  | some m => (s.markSlots (s.deckOf i) m.slots 0).modSession i (fun x => { x with image := none })

/-- Free a snapshot entry and its slots (R511). -/
def State.dropSnap (s : State) (d i : Nat) : State :=
  match get {} (s.deckle d).snaps i with
  | m => (s.markSlots d m.slots 0).modDeckle d (fun k => { k with snaps := put {} k.snaps i {} })

/-- The state a session returns to once its region is resident (R274, R282). -/
def Session.restored (x : Session) : SessState :=
  match x.active with
  | some { kind := .prefill, .. } => .prefill
  | _ => if x.hasPending then .decode else .opened

/-- The next boundary after a completed swap: a swapped-out region is released and the session becomes SWAPPED or
PAUSED; a swapped-in one returns to its state, and a PAUSE and its RESUME complete together, the PAUSE first (R273,
R274, R292). -/
def State.settleSwap (s : State) (i : Nat) : State :=
  let x := s.session i
  let d := s.deckOf i
  if !x.swapDone then s
  else match x.swapping with
    | some .outPressure =>
      let s := s.dropRegion i
      let s := s.modSession i (fun x =>
        { x with swapping := none, swapDone := false, state := .swapped, swappedOnce := x.active.isSome || x.swappedOnce
                 active := x.active.map (fun r => { r with swapped := true }) })
      { s with swapOuts := satAdd 32 s.swapOuts 1 }
    | some .outPause =>
      let s := s.dropRegion i
      { s.modSession i (fun x => { x with swapping := none, swapDone := false, state := .paused }) with
        swapOuts := satAdd 32 s.swapOuts 1 }
    | some .swapIn =>
      let s := s.dropImage i
      let s := s.modSession i (fun x => { x with swapping := none, swapDone := false, resident := true
                                                 kvAddr := x.base })
      let s := { s with swapIns := satAdd 32 s.swapIns 1 }
      let s := match x.active, x.resumeReq with
        | some r, some c =>
          let s := s.finish d r.cmd 1 0 0 false false 0 0
          let s := s.finish d c 1 0 0 false false 0 1
          s.modSession i (fun x => { x with active := none, resumeReq := none })
        | _, _ => s
      (s.modSession i (fun x => { x with state := x.restored })).startWaiting i 0
    | _ => s

/-- Begin a swap-in of session `i`: a new region under the rules of an OPEN, then every slot is read (R274). -/
def State.beginSwapIn (s : State) (i : Nat) : Room × State :=
  let x := s.session i
  let d := s.deckOf i
  match x.image with
  | none => (.noFit, s)
  | some m =>
    let ctx := (m.pages.filter (fun p => decide (2 ^ 31 ≤ p))).length
    match s.makeRoom d (x.kvPages + ctx) with
    | (.ok, s) =>
      match s.placeRegion d x.kvPages with
      | none => (.noFit, s)
      | some (st, k, s) =>
        match takePages ctx 0 (ownDeckle d) [] s with
        | none => (.noFit, s.release (pageRange k x.kvPages))
        | some (ps, _, s) =>
          (.ok, (s.setRegion i st k x.kvPages).modSession i (fun x =>
            { x with swapping := some .swapIn, swapLeft := m.slots.length, swapDone := false, ctxPages := ps }))
    | r => r

/-- Why a swap-in's bytes do not restore the session, if they do not; else its plaintext pages. -/
def State.openImage (s : State) (i : Nat) (slots : List Bytes) : Option (List (Nat × Bytes)) :=
  let x := s.session i
  match x.image with
  | none => none
  | some m =>
    let d := s.deckOf i
    let key := gcmKey (s.deckle d).swapKey
    let n := m.pages.length
    let dir := ((slots.drop n).take (dirSlots n)).foldr (· ++ ·) []
    match gcmOpen key (swapIv dirPage m.dirCtr) (swapAad d i m.seq dirPage) dir m.dirTag with
    | none => none
    | some b =>
      if field b 4 4 ≠ n then none
      else
        let entry := fun j => slice b (0x100 + 32 * j) 32
        let pages := (List.range n).map (fun j =>
          let e := entry j
          let p := field e 0 4
          (gcmOpen key (swapIv p (field e 8 8)) (swapAad d i m.seq p) (slots.getD j []) (slice e 16 16)).map
            (fun pt => (p, pt)))
        if pages.all Option.isSome then some (pages.filterMap id) else none

/-- A swap-in fails: the new region is released, the request that needed the session ends with ERROR and its KV is
invalid (R274, R411). A PAUSED session that was being resumed is left SWAPPED. -/
def State.swapInFailed (s : State) (i : Nat) (e : Err) : State :=
  let d := s.deckOf i
  let s := s.dropRegion i
  let s := s.modSession i (fun x => { x with swapping := none, swapLeft := 0
                                             state := if x.state == .paused then .swapped else x.state })
  s.report { err := e, inst := if (errInfo e).kind = 0x18 then d else 0, deckle := some d, named := [i] }

/-- Every slot of a swap-in has been read (R274): verified pages are written at their page indices, WRITTEN_LEN is
COMMIT_LEN, and the session returns at the next boundary. -/
def State.swapInDone (s : State) (i : Nat) (slots : List Bytes) : State :=
  match s.openImage i slots with
  | none => s.swapInFailed i .swapAuth
  | some ps =>
    let x := s.session i
    let s := ps.foldl (fun s p => s.writeMem (x.pageAddr p.1) p.2) s
    let s := s.writeNum (x.base + 0x28) 4 x.commitLen
    s.modSession i (fun x => { x with swapDone := true })

/-! ### Ends of sessions (R292, R293, R410) -/

/-- The session becomes CLOSED: its region, context, swap slots and steps are released. A snapshot entry stays
(R511). -/
def State.closeSession (s : State) (i : Nat) : State :=
  let d := s.deckOf i
  let s := s.withdraw d i
  let s := s.dropRegion i
  let s := s.dropImage i
  { s with sessions := put {} s.sessions i {} }

end Sys2Proof.Machine
end

