-- ==== Sys2Proof/Machine/Groups.lean ====
section
/-! DEFINITION. Tile groups: tiles from their records, the logical map, spares, retirement and takeover (R74 to R81, R92,
R99, R111 to R115, R168, R343). -/
namespace Sys2Proof.Machine

/-! ### Tiles from records (R74 to R81, R89, R99) -/

/-- The stored bits of row `r`: the data columns, then the check columns (R89). -/
def tileRow (b : Bytes) (r : Nat) : BitVec 272 :=
  BitVec.ofNat 272 (field b (0x40 + 32 * r) 32 + field b (0x2040 + 2 * r) 2 * 2 ^ 256)

/-- The fixed contents of a reference column, 272 to 287: all ones, or ones in its first 16p rows (R89). -/
def refBit (r col : Nat) : Bool := col == 272 || decide (r < 16 * (col - 272))

/-- The bit that a cell of a group holds: rows and columns of a tile slot as written, stuck cells included, or a reference
column's contents once initial calibration has written them (R89, R90). A slot without a tile is clear. -/
def Group.cell (g : Group) (k r col : Nat) : Bool :=
  if col < 272 then ((get {} g.tiles k).rows.getD r 0#272).getLsbD col
  else match g.refStuck.find? (fun c => c.tile == k && c.row == r && c.col == col) with
    | some c => c.held
    | none => g.refs && refBit r col

/-- Entry `i` of a weight-outlier list: row, neuron, δ (R79). -/
def outEntry (b : Bytes) (i : Nat) : Nat × Nat × Int :=
  (field b (4 * i) 1, field b (4 * i + 1) 1 % 64, toSigned 8 (field b (4 * i + 2) 1))

/-- A tile from its record and its outlier entries, with the constants SW and SC (R80, R99). -/
def tileOf (b outs : Bytes) (slot gen : Nat) : Tile :=
  { slot, gen, index := tIndex b, layer := tLayer b, matrix := tMatrix b, head := tHead b, kBlock := tKBlock b
    nBlock := tNBlock b, validRows := tRows b, validNeurons := tNeurons b
    rows := (List.range 256).map (tileRow b)
    sw := (List.range 64).map (fun n => (List.range 256).foldl (fun a r => a + ((tCode b r n : Int) - 8)) 0)
    sc := (List.range 8).map (fun g => sumTo 256 (fun r => tCheck b r g))
    scales := (List.range 64).map (tScale b)
    outliers := (List.range (tOutCount b)).map (outEntry outs) }

/-- The check code of row `r` and group `g` recomputed from the codes (R77). -/
def checkCode (b : Bytes) (r g : Nat) : Nat :=
  (((List.range 8).foldl (fun a n => a + ((tCode b r (8 * g + n) : Int) - 8)) 0) % 3).toNat

/-- What R81 finds wrong with a record by itself: checks 1 to 4 and the pointer's own fields of check 5. `next` is the
TILE_INDEX due. DESIGN CHOICE: a TILE_INDEX that is not `next` fails check 2 with TILE_FORMAT (R329 asks for consecutive
indices and names no code; entry 99). -/
def tileBad (b : Bytes) (next : Nat) : Option Err :=
  if b.length ≠ tileBytes ∨ field b 0x34 4 ≠ crc32c (b.take 0x34) ∨
      field b 0x30 4 ≠ crc32c ((b.drop 0x40).take 0x22C0) then some .tileCrc
  else
    let outs := tOutCount b
    let starts := (List.range 8).map (tGroupStart b)
    let rows := tRows b
    let neurons := tNeurons b
    let fmt := field b 0 2 == 1 && decide (tFlags b ≤ 1) && decide (tMatrix b ≤ 8) && field b 0x0B 1 == 0 &&
      decide (1 ≤ rows) && decide (rows ≤ 256) && decide (1 ≤ neurons) && decide (neurons ≤ 64) &&
      decide (tHead b ≤ 4) && allZero (slice b 0x14 28) && allZero (slice b 0x38 8) && field b 0x22CA 2 == 0 &&
      allZero (slice b 0x22D8 40) && tIndex b == next
    let pad := (List.range 256).all (fun r => (List.range 64).all (fun n =>
      (decide (r < rows) && decide (n < neurons)) || tCode b r n == 8)) &&
      (List.range 64).all (fun n => if n < neurons then bf16Finite (tScale b n) else tScale b n == 0#16)
    let chk := (List.range 256).all (fun r => (List.range 8).all (fun g => tCheck b r g == checkCode b r g))
    let ptr := decide (outs ≤ 245) && ((tFlags b == 1) == decide (outs ≠ 0)) && field b 0x22C0 8 % 4 == 0 &&
      nth starts 0 == 0 && decide (nth starts 7 ≤ outs) &&
      (List.range 7).all (fun g => decide (nth starts g ≤ nth starts (g + 1))) &&
      (decide (outs ≠ 0) || (allZero (slice b 0x22C0 8) && tOutCrc b == 0 && allZero (slice b 0x22D0 8)))
    if !fmt ∨ !pad then some .tileFormat
    else if !chk then some .tileCheck
    else if !ptr then some .tileFormat
    else none

/-- Position of an outlier entry in the order of R79: ascending neuron, then row. -/
def outOrder (e : Nat × Nat × Int) : Nat := e.2.1 * 256 + e.1

/-- What check 5 of R81 finds wrong with a tile's outlier entries. -/
def outliersBad (b outs : Bytes) : Bool :=
  let n := tOutCount b
  let es := (List.range n).map (outEntry outs)
  let start := fun g => if g < 8 then tGroupStart b g else n
  !(outs.length == 4 * n && crc32c outs == tOutCrc b &&
    es.all (fun e => decide (e.1 < tRows b) && decide (e.2.1 < tNeurons b)) &&
    (List.range n).all (fun i => field outs (4 * i + 1) 1 / 64 == 0 && field outs (4 * i + 3) 1 == 0) &&
    (List.range (n - 1)).all (fun i => decide (outOrder (es.getD i (0, 0, 0)) < outOrder (es.getD (i + 1) (0, 0, 0)))) &&
    (List.range 8).all (fun g => (List.range n).all (fun i =>
      (decide (start g ≤ i) && decide (i < (if g = 7 then n else start (g + 1)))) ==
      ((es.getD i (0, 0, 0)).2.1 / 8 == g))))

/-! ### The logical map (R92, R343, R591) -/

/-- A group holds or receives tiles of logical group `l` of vat `v`. -/
def State.servesLogical (s : State) (v l w p : Nat) : Bool :=
  let g := s.group w p
  g.logical == l && (match g.homeVat with
    | some h => h == v
    | none => w == v) && g.state != .retired && g.state != .spare

/-- Every group that differs from its reset value: vat and physical number. -/
def State.groupList (s : State) : List (Nat × Nat) := s.groups.map (fun x => (x.1 / 1536, x.1 % 1536))

/-- The physical group that serves logical group `l` of vat `v`: a borrowed one first, one in service before one that is
being written. -/
def State.locate (s : State) (v l : Nat) : Option (Nat × Nat) :=
  let all := s.groupList.filter (fun x => s.servesLogical v l x.1 x.2)
  let inServ := all.filter (fun x => (s.group x.1 x.2).state == .inService)
  let lent := fun x : Nat × Nat => (s.group x.1 x.2).homeVat.isSome
  (inServ.find? lent) <|> inServ.head? <|> (all.find? lent) <|> all.head?

/-- The logical groups of a vat that hold tiles of slot `k`, with the group that serves each. -/
def State.groupsOfSlot (s : State) (v k : Nat) : List (Nat × Nat × Nat) :=
  (s.groupList.filter (fun x =>
    let g := s.group x.1 x.2
    g.modelSlot == k && g.homeVat.getD x.1 == v && g.state != .retired)).map (fun x =>
      ((s.group x.1 x.2).logical, x.1, x.2))

/-! ### Spares (R114, R168) -/

/-- Plan A or C, full throughput (R162). -/
def fastPlan (p : Nat) : Bool := p == 0 || p == 2

/-- Figure of merit of a spare: MARGIN_LAST, or the lowest code of its last measurement before its first window. -/
def Group.merit (g : Group) : Nat := if g.valid then g.marginLast else g.lastLow

/-- The best of some groups: highest merit, lower number on a tie; the list ascends. -/
def State.bestGroup (s : State) (v : Nat) (l : List Nat) : Option Nat :=
  l.foldl (fun best p => match best with
    | none => some p
    | some b => if (s.group v b).merit < (s.group v p).merit then some p else best) none

/-- Spare groups of a vat that are free to take weights. -/
def State.spares (s : State) (v : Nat) : List Nat :=
  (s.groupsOf v).filter (fun p =>
    (s.group v p).state == .spare && !(s.group v p).rewriting && (s.group v p).lent.isNone)

/-- The spare that takes a retired group's weights. -/
def State.pickSpare (s : State) (v : Nat) : Option Nat :=
  let l := s.spares v
  let fast := l.filter (fun p => fastPlan (s.group v p).plan)
  s.bestGroup v (if fast.isEmpty then l else fast)

/-! ### Takeover and retirement (R113 to R115) -/

/-- The stored bits of an array with bit `col` of row `row` changed. -/
def setCell (rows : List (BitVec 272)) (row col : Nat) (b : Bool) : List (BitVec 272) :=
  let w := rows.getD row 0#272
  let m := 1#272 <<< col
  rows.set row (if b then w ||| m else w &&& ~~~m)

/-- A tile as its record gives it: every stuck cell with the bit the record asks for. -/
def Tile.clean (t : Tile) : Tile :=
  { t with rows := t.stuck.foldl (fun r c => setCell r c.row c.col c.wanted) t.rows, stuck := [] }

/-- Tiles as a rewrite from the records leaves them, before its verification. -/
def freshTiles (m : SMap Tile) : SMap Tile := m.map (fun x => (x.1, x.2.clean))

/-- A tile whose read-back found some stuck cells: they hold their own bit (R111, R112). -/
def Tile.withStuck (t : Tile) (cs : List Stuck) : Tile :=
  { t with rows := cs.foldl (fun r c => setCell r c.row c.col c.held) t.rows, stuck := cs }

/-- A group holds nothing. -/
def Group.emptied (g : Group) : Group :=
  { g with logical := 0x7FF, homeVat := none, lent := none, modelSlot := 16, tiles := [] }

/-- Spare group `q` of vat `w` takes the tiles and the logical number of group `p` of vat `v`; it is in RECAL while it
is written (R114). -/
def State.takeOver (s : State) (v p w q : Nat) : State :=
  let g := s.group v p
  let home := g.homeVat.getD v
  s.modGroup w q (fun h => { h with state := .recal, rewriting := true, readyNext := none, logical := g.logical
                                    homeVat := if home = w then none else some home, modelSlot := g.modelSlot
                                    tiles := freshTiles g.tiles })

/-- Group `p` of vat `v` is retired with a cause of its group word; a spare takes its weights, or the vat fails with
SPARES_EXHAUSTED (R113, R115, R170). -/
def State.retireGroup (s : State) (v p cause order : Nat) : State :=
  let g := s.group v p
  if g.state == .retired then s
  else
    let held := g.logical != 0x7FF
    let gone := fun h : Group => { h.emptied with state := .retired, retCause := cause, due := none, inFall := false
                                                  rewriting := false, readyNext := none, replan := none
                                                  planNext := none, recalNext := false }
    if !held then s.modGroup v p gone
    else match s.pickSpare v with
      | some q => (s.takeOver v p v q).modGroup v p gone
      | none =>
        (s.modGroup v p gone).report
          { err := .sparesExhausted, inst := v, unit := v, group := p, vat := some v, cause := 1, order }

/-- Stuck cells of a read-back, as the tile's own list: the bit that stands and the bit the record asked for. -/
def stuckCells (t : Tile) (l : List StuckIn) : List Stuck :=
  l.map (fun x => { row := x.row, col := x.col, held := x.held, wanted := !x.held }) |>.filter (fun c =>
    decide (c.row < 256) && decide (c.col < 272) && (t.rows.getD c.row 0#272).getLsbD c.col == c.wanted)

/-- Stuck cells of the reference columns in a list of found ones. -/
def refCells (l : List StuckIn) : List StuckIn := l.filter (fun c => decide (272 ≤ c.col))

/-- Enter the stuck cells that a written group's read-back found (R111). Cells of the reference columns are the
calibration engine's (R113). -/
def State.noteStuck (s : State) (v p : Nat) (l : List StuckIn) : State :=
  s.modGroup v p (fun g => { g with
    tiles := g.tiles.map (fun x => (x.1, x.2.withStuck (stuckCells x.2 (l.filter (fun c => c.tile == x.1)))))
    refStuck := g.refStuck ++ (refCells l).filter (fun c => !g.refStuck.contains c) })

/-- A tile of the group holds more than 64 stuck cells (R113). -/
def Group.overStuck (g : Group) : Bool := g.tiles.any (fun x => decide (64 < x.2.stuck.length))

/-- Group `p` becomes due for fall-back calibration (R158, R159). -/
def State.makeDue (s : State) (v p : Nat) : State :=
  s.modGroup v p (fun g => { g with due := some (g.due.getD s.tick.now) })

/-- After a write of group `p`: enter its stuck cells, and retire it at a 65th (R113). A stuck cell of a reference
column makes it due for fall-back calibration (R158). -/
def State.verifyGroup (s : State) (v p : Nat) (l : List StuckIn) : State :=
  let s := s.noteStuck v p l
  let s := if l.any (fun c => decide (272 ≤ c.col)) then s.makeDue v p else s
  if (s.group v p).overStuck then
    let s := s.report { err := .stuckBudget, inst := v, unit := v, group := p }
    s.retireGroup v p 1 s.tail
  else s

/-- SPARE_REWRITE_DONE: a rewrite has been verified; the group enters IN_SERVICE at the next boundary (R114). -/
def execSpareRewriteDone (v : Fin 64) (p : Nat) (stuck : List StuckIn) (s : State) : Out :=
  .next (if (s.group v.val p).rewriting then
    let s := s.verifyGroup v.val p stuck
    if (s.group v.val p).state == .retired then s
    else s.modGroup v.val p (fun g => { g with rewriting := false, readyNext := some .inService })
  else s)

/-- A group enters IN_SERVICE: the group that served its logical number until now becomes SPARE under the plan it holds
(R168, R343). DESIGN CHOICE: the home group of one that a group of another vat now serves is kept for its tiles' return
(entry 122). -/
def State.enterService (s : State) (v p : Nat) : State :=
  let g := s.group v p
  let home := g.homeVat.getD v
  let old := s.groupList.filter (fun x => s.servesLogical home g.logical x.1 x.2 && !(x.1 == v && x.2 == p))
  let s := if g.logical = 0x7FF then s
    else old.foldl (fun s x => s.modGroup x.1 x.2 (fun h =>
      { h.emptied with state := .spare, rewriting := false
                       lent := if h.homeVat.isNone && x.1 != v then some g.logical else none })) s
  s.modGroup v p (fun g => { g with state := .inService, readyNext := none, inFall := false })

/-- The groups whose rewrite has been verified enter their next state at a boundary or self-strobe (R114, R545); those whose
fall-back calibration has ended do so at a tick boundary alone (R161). -/
def State.enterGroups (s : State) : State :=
  let due := s.groupList.filter (fun x =>
    (s.group x.1 x.2).readyNext.isSome && (s.tick.inTick || !(s.group x.1 x.2).inFall))
  let s := due.foldl (fun s x => match (s.group x.1 x.2).readyNext with
    | some .inService => s.enterService x.1 x.2
    | some st => s.modGroup x.1 x.2 (fun g => { g with state := st, readyNext := none, inFall := false })
    | none => s) s
  (allSlots.filter (fun k => (s.slot k).moving)).foldl (fun s k =>
    if s.groupList.any (fun x => (s.group x.1 x.2).modelSlot == k && (s.group x.1 x.2).rewriting) then s
    else s.modSlot k (fun x => { x with moving := false })) s

end Sys2Proof.Machine
end

