-- ==== Sys2Proof/Machine/Array.lean ====
section
/-! DEFINITION. One tile pass of the counting arrays: counts, assembly, residue check, stuck-cell terms, the terms that
join D, and the slots of the vat grid (R88 to R112, R162 to R164, R183 to R190). -/
namespace Sys2Proof.Machine

/-- A pass of a tile operation: the physical group and tile slot, the tile's place in the template, the vector, and the
burst it consumes. -/
structure Pass where
  vat   : Nat
  group : Nat
  slot  : Nat
  ti    : Nat
  v     : Nat
  tile  : Tile
  burst : Bytes
  deriving DecidableEq, Repr

/-- Plans D and CD convert each plane in two halves (R162). -/
def splitPlan (plan : Nat) : Bool := plan == 4 || plan == 6

/-- Plans B and BC use five grid slots. -/
def slowPlan (plan : Nat) : Bool := plan == 1 || plan == 3

/-- Conversions charged for a pass (R241). -/
def passConvs (plan : Nat) : Nat := if splitPlan plan then 2176 else 1088

/-! ### The slot grid (R109, R164) -/

/-- What a group does in a grid slot: none when it drives nothing, else its active rows. -/
abbrev Load := Option Nat

/-- Load of one plane; a skipped plane drives nothing. -/
def planeLoad (n : Nat) : Load := if n = 0 then none else some n

/-- The four plane counts of a pass; zeros for a tile the burst skips (R108). -/
def passPlanes (b : Bytes) : List Nat :=
  if bZero b then [0, 0, 0, 0] else (List.range 4).map (activeRows (bCodes b))

/-- Loads of a pass in two halves of 128 rows. -/
def splitLoads (b : Bytes) : List Load :=
  if bZero b then List.replicate 8 none
  else (List.range 4).foldr (fun i a =>
    planeLoad (activeRows ((bCodes b).take 128) i) :: planeLoad (activeRows ((bCodes b).drop 128) i) :: a) []

/-- Loads of a run of passes under plan B or BC: the table of R164, from the slot that drives plane 0 of the first. -/
def slowLoads : List (List Nat) → List Load
  | [] => []
  | [p] => [some (nth p 0), some (nth p 1), some (max (nth p 1) (nth p 2)), some (max (nth p 2) (nth p 3)), some (nth p 3)]
  | p :: q :: r =>
    [some (nth p 0), some (nth p 1), some (max (nth p 1) (nth p 2)), some (max (nth p 2) (nth p 3)),
     some (max (nth p 3) (nth q 0))] ++ slowLoads (q :: r)

/-- Loads of a run of passes under plan B or BC with its lead: plane 0 of the first pass is driven in grid slots 3 and 4 of
the window before (R164). -/
def slowRun (ps : List (List Nat)) : List Load :=
  match ps with
  | [] => []
  | p :: _ => some (nth p 0) :: slowLoads ps

/-- Loads of one group's passes, slot by slot, from the second slot before the first strobe on: a group under another plan
drives nothing in that slot, and plane 0 in the next. -/
def groupLoads (plan : Nat) (bs : List Bytes) : List Load :=
  if splitPlan plan then none :: bs.foldr (fun b a => splitLoads b ++ a) []
  else if slowPlan plan then slowRun (bs.map passPlanes)
  else none :: bs.foldr (fun b a => (passPlanes b).map planeLoad ++ a) []

/-- Length of a grid slot in converter clocks: rows `a` over `g` groups (R109). -/
def slotLen (a g lim : Nat) : Nat := if g = 0 then 34 else max 34 (ceilDiv (34 * a) (g * lim))

/-- Lengths of the grid slots of a vat for the loads of its groups; the slot two before the first strobe is part of them
only where a group drives in it. -/
def gridSlots (loads : List (List Load)) (lim : Nat) : List Nat :=
  let loads := if loads.any (fun l => (l.headD none).isSome) then loads else loads.map (List.drop 1)
  let n := loads.foldl (fun a l => max a l.length) 0
  (List.range n).map (fun k =>
    let at_ := loads.filterMap (fun l => (l[k]?).getD none)
    slotLen (at_.foldl (· + ·) 0) at_.length lim)

/-! ### Counts and assembly (R88, R93, R97 to R103, R112) -/

/-- The exact count of a column under a plane over the rows `lo` to `hi` − 1. -/
def colCount (t : Tile) (codes : List Nat) (col i lo hi : Nat) : Nat :=
  (((t.rows.zip codes).take hi).drop lo).foldl (fun a x => if bit x.2 i && x.1.getLsbD col then a + 1 else a) 0

/-- Corrected fine value of a sample, in 2^-22 LSB: `t` of R121. -/
def fineValue (f : Nat) (ofs ofsCol gain : Int) : Int := ((f : Int) - ofs - ofsCol) * (65536 + gain)

/-- One LSB in the unit of `fineValue`. -/
def lsb : Int := 4194304

/-- The code of a corrected fine value, from 0 to 287 (R119, R121). -/
def fineCode (t : Int) : Nat := (clampInt 0 287 ((t + 2097152) / lsb)).toNat

/-- The corrections a bank applies to a column: offset, column trim and gain. -/
abbrev Corr := Nat → Int × Int × Int

/-- The code a converter gives: the exact count, unless its fine value left the count's window (R88, R121). -/
def readCode (cor : Corr) (fs : List CodeFault) (col i half exact : Nat) : Nat :=
  match fs.find? (fun f => f.col == col && f.plane == i && f.half == half) with
  | some f => fineCode (fineValue f.fine (cor col).1 (cor col).2.1 (cor col).2.2)
  | none => exact

/-- Codes of a column under a plane: one, or two half-counts. -/
def colCodes (split : Bool) (cor : Corr) (t : Tile) (codes : List Nat) (fs : List CodeFault) (col i : Nat) : List Nat :=
  if activeRows codes i = 0 then [0]
  else if split then
    [readCode cor fs col i 0 (colCount t codes col i 0 128), readCode cor fs col i 1 (colCount t codes col i 128 256)]
  else [readCode cor fs col i 0 (colCount t codes col i 0 256)]

/-- An overflow code (R103, R130). -/
def overCode (split : Bool) (c : Nat) : Bool := decide ((if split then 129 else 257) ≤ c)

/-- Check group of a column. -/
def colGroup (col : Nat) : Nat := if col < 256 then col / 32 else (col - 256) / 2

/-- Input sum X (R97). -/
def inputSum (codes : List Nat) : Int := (sumTo 4 (fun i => 2 ^ i * activeRows codes i) : Nat) - 2048

/-- Term of a stuck cell: −a(r)(s − b) (R112). -/
def stuckTerm (codes : List Nat) (c : Stuck) : Int :=
  -((nth codes c.row : Nat) : Int) * ((b2n c.held : Int) - (b2n c.wanted : Int))

/-- stuck_data of neuron `n`. -/
def stuckData (t : Tile) (codes : List Nat) (n : Nat) : Int :=
  (t.stuck.filter (fun c => decide (c.col < 256) && c.col / 4 == n)).foldl (fun a c =>
    a + stuckTerm codes c * (2 ^ (c.col % 4) : Nat)) 0

/-- stuck_check of group `g`. -/
def stuckCheck (t : Tile) (codes : List Nat) (g : Nat) : Int :=
  (t.stuck.filter (fun c => decide (256 ≤ c.col) && (c.col - 256) / 2 == g)).foldl (fun a c =>
    a + stuckTerm codes c * (2 ^ (c.col % 2) : Nat)) 0

/-- Signed input of row `r`. -/
def xAt (codes : List Nat) (r : Nat) : Int := (codes.getD r 8 : Nat) - 8

/-- What the assembly of one pass gives: D of the 64 neurons before T_static, the check groups repaired, and the column of
each overflow code. -/
structure PassOut where
  d      : List Int
  fixed  : List Nat
  tooHigh   : List Nat
  deriving DecidableEq, Repr

/-- D(n) recomputed digitally from golden weights (R102). -/
def goldenD (codes : List Nat) (w : Nat → Nat → Int) (n : Nat) : Int :=
  (List.range 256).foldl (fun a r => a + xAt codes r * w r n) 0

/-- Array result of neuron `n` from its column codes (R97, R101). -/
def assembleD (t : Tile) (codes : List Nat) (cnt : Nat → Nat → Nat) (n : Nat) : Int :=
  let p := sumTo 4 (fun i => sumTo 4 (fun j => 2 ^ (i + j) * cnt (4 * n + j) i))
  (p : Int) - 8 * inputSum codes - 8 * t.sw.getD n 0 - 16384 + stuckData t codes n

/-- Check value of group `g` (R100, R101). -/
def assembleE (t : Tile) (codes : List Nat) (cnt : Nat → Nat → Nat) (g : Nat) : Int :=
  let q := sumTo 4 (fun i => sumTo 2 (fun k => 2 ^ (i + k) * cnt (256 + 2 * g + k) i))
  (q : Int) - 8 * (nth t.sc g : Nat) + stuckCheck t codes g

/-- The assembly of one pass (R101): array results, residue checks, and repair of the groups that fail. -/
def assemble (split : Bool) (cor : Corr) (t : Tile) (codes : List Nat) (fs : List CodeFault) (gold : Nat → Nat → Int) :
    PassOut :=
  let all := colCodes split cor t codes fs
  let cnt := fun col i => (all col i).foldl (· + ·) 0
  let tooHigh := (List.range 272).foldr (fun col a =>
    (List.range 4).foldr (fun i a => ((all col i).filter (overCode split)).map (fun _ => col) ++ a) a) []
  let d := (List.range 64).map (assembleD t codes cnt)
  let sum := fun g => (List.range 8).foldl (fun a k => a + d.getD (8 * g + k) 0) (0 : Int)
  let fixed := (List.range 8).filter (fun g =>
    decide (assembleE t codes cnt g % 3 ≠ sum g % 3) || tooHigh.any (fun c => colGroup c == g))
  { d := (List.range 64).map (fun n => if fixed.contains (n / 8) then goldenD codes gold n else d.getD n 0), fixed, tooHigh }

/-- Sum of x(r) times the entries of neuron `n` (T_static, T_quire; R183). -/
def sparseTerm (codes : List Nat) (es : List (Nat × Nat × Int)) (n : Nat) : Int :=
  (es.filter (fun e => e.2.1 == n)).foldl (fun a e => a + xAt codes e.1 * e.2.2) 0

/-- Entry of a sparse list at a row and neuron; 0 where none stands. -/
def sparseAt (es : List (Nat × Nat × Int)) (r n : Nat) : Int :=
  ((es.find? (fun e => e.1 == r && e.2.1 == n)).map (fun e => e.2.2)).getD 0

/-! ### Golden weights and the tile's own (R102, R112, R182) -/

/-- Stored weight of row `r`, neuron `n`, corrected from the stuck-bit map: the record's c − 8. -/
def Tile.weight (t : Tile) (r n : Nat) : Int :=
  let row := t.rows.getD r 0#272
  let b := fun j => match t.stuck.find? (fun c => c.row == r && c.col == 4 * n + j) with
    | some c => c.wanted
    | none => row.getLsbD (4 * n + j)
  (sumTo 4 (fun j => 2 ^ j * b2n (b j)) : Nat) - 8

/-- The golden weights and outliers of a tile: from its record in the stacks, or the tile itself. -/
def goldenOf (rec_ : Option (Bytes × Bytes)) (t : Tile) : (Nat → Nat → Int) × List (Nat × Nat × Int) :=
  match rec_ with
  | some (b, outs) => (fun r n => ((tCode b r n : Nat) : Int) - 8, (List.range (tOutCount b)).map (outEntry outs))
  | none => (t.weight, t.outliers)

/-- D_ref of the watermark sampler (R199). -/
def refD (codes : List Nat) (g : (Nat → Nat → Int) × List (Nat × Nat × Int)) (n : Nat) : Int :=
  goldenD codes g.1 n + sparseTerm codes g.2 n

/-! ### Scaling and the outlier terms (R72, R106, R190) -/

/-- y(n) = fp32(D) · (sw(n) · scale). -/
def tileResult (t : Tile) (scale : BF16) (n : Nat) (d : Int) : F32 :=
  f32Mul (f32OfInt d) (f32Mul (ofBf16 (t.scales.getD n 0#16)) (ofBf16 scale))

/-- The outlier-channel products of neuron `n` in the order of R190. -/
def outlierTerms (t : Tile) (quire : List (Nat × Nat × Int)) (outs : List (Nat × BF16)) (n : Nat) : List (Int × Int × Int) :=
  outs.map (fun o =>
    let s := bfSplit o.2
    (s.1, s.2, t.weight o.1 n + sparseAt t.outliers o.1 n + sparseAt quire o.1 n))

/-- Add one K-block's terms into an element (R194): the tile result, then its outlier chunks. -/
def addBlock (t : Tile) (quire : List (Nat × Nat × Int)) (outs : List (Nat × BF16)) (scale : BF16) (n : Nat) (d : Int)
    (p : AccPair) : AccPair :=
  bandSum (pairAdd p (tileResult t scale n d)) (outlierTerms t quire outs n) (ofBf16 (t.scales.getD n 0#16))

end Sys2Proof.Machine
end

