-- ==== Sys2Proof/Machine/Fields.lean ====
section
/-! DEFINITION. Writing a register field: the run lock, range and sum checks, shadows and their commit, and the common
registers of every page (R21, R35, R236 to R238, R258, R280, R494, R497, R553 to R558, R596 to R598). -/
namespace Sys2Proof.Machine

/-! ### Plans a deckle serves -/

/-- The plans of the CURRENT images whose mask includes deckle `d`. -/
def State.plansOf (s : State) (d : Nat) : List Plan :=
  allSlots.filterMap (fun k => match (s.slot k).current with
    | some m => if bit (s.slot k).mask d then m.plan else none
    | none => none)

/-- Worst budget of any segment of a plan, in reference periods. -/
def planWorst (p : Plan) : Nat := (p.decode ++ p.prefill).foldl (fun a g => max a g.worst) 0

/-- Length of a window of share `sh` in reference periods, for tick period `p` (R235). -/
def windowLen (p sh : Nat) : Nat := (p - 350) * sh / 256

/-! ### The checks of a field (R556 and the rules of each field) -/

/-- What a check of a value answers. -/
inductive Verdict where
  | ok
  | silent
  | err (e : Err)
  deriving DecidableEq, Repr

/-- Sum of a deckle field over the deckles, with `v` in place of deckle `d`'s. -/
def State.sumWith (s : State) (f : Fld) (d v : Nat) : Nat := sumTo 16 (fun e => if e = d then v else s.reg f e)

/-- Two ranges of numbers meet. -/
def overlap (a n b m : Nat) : Bool := n != 0 && m != 0 && decide (a < b + m) && decide (b < a + n)

/-- A value of the field that its own rules refuse, for copy `c`. SESS_BASE, SESS_COUNT and SHARE are checked where they
are written together. -/
def State.verdict (s : State) (f : Fld) (c v : Nat) : Verdict :=
  let sum := fun (lim : Nat) (e : Err) => if lim < s.sumWith f c v then Verdict.err e else .ok
  match f with
  | .membLead => if v < 16 then .silent else .ok
  | .telemSel => if 257 < v then .silent else .ok
  | .pwrLimit => if 16 < v then .err .limitRange else .ok
  | .surgeLim => if v < 128 ∨ 192 < v then .silent else .ok
  | .laneErrLim => if v = 0 then .silent else .ok
  | .fetchMax => if 512 < v then .err .fieldRange else sum 512 .fetchSum
  | .sqSize => if v < 6 ∨ 16 < v then .err .ringConfig else .ok
  | .cqSize => if v < 6 ∨ 16 < v then .err .ringConfig else .ok
  | .trReads => if 64 < v then .err .fieldRange else sum 256 .trReadsSum
  | .wmRate => if v < 8 ∨ 16 < v then .err .fieldRange else .ok
  | .dedicated =>
    if (allDeckles.filter (· != c)).any (fun e => (maskBits 64 v).any (fun i => bit (s.reg .dedicated e) i)) then
      .err .dedicatedClash
    else .ok
  | .sbQuota =>
    if 32768 < v then .err .fieldRange
    else if 32768 < s.sumWith f c v then .err .deckQuotaSum
    else if (s.plansOf c).any (fun p => decide (v < p.segOpsMax)) then .err .quotaBelowPlan
    else .ok
  | .accAllot =>
    let d := c / 64
    let w := c % 64
    let base := bits v 15 0
    let n := bits v 47 32
    if n ≠ 0 ∧ ((s.vat w).accSize < base + n ∨ (allDeckles.filter (· != d)).any (fun e =>
        overlap base n (s.allot e w).1 (s.allot e w).2)) then .err .accClash
    else .ok
  | .kvQuota => sum s.kvPool .kvQuotaSum
  | .swapPages => if 64 < v then .err .fieldRange else sum 64 .swapSum
  | .drainLimit => if v = 0 then .err .ringConfig else .ok
  | .pubBytes => if v < 2048 ∨ 126976 < v ∨ v % 64 ≠ 0 then .err .fieldRange else sum 126976 .pubSum
  | .ringSize => if v = 1 ∨ 32 < v then .err .ringConfig else .ok
  | .imgOp => if 3 < v then .silent else .ok
  | .testOp => if 2 < v then .silent else .ok
  | .keyWord => if 5 < v then .silent else .ok
  | _ => .ok

/-- The page instance that the copy number of a field names. -/
def fldInst (f : Fld) (c : Nat) : Nat :=
  match f with
  | .accAllot => c / 64
  | .ringNode => c / 32
  | _ => c

/-- Page index of copy `c` of a field. -/
def fldPage (f : Fld) (c : Nat) : Nat := pageIndex (fldInfo f).kind (fldInst f c)

/-- Record the error of a field of copy `c`; one of a DECK page is the deckle's (R436). -/
def State.fieldError (s : State) (f : Fld) (c : Nat) (e : Err) : State :=
  let d := if (fldInfo f).kind = 0x18 then some (fldInst f c) else none
  s.corrected e (if (errInfo e).kind = (fldInfo f).kind then fldInst f c else 0) d

/-- Put a value in force when its checks pass. -/
def State.putField (s : State) (f : Fld) (c v : Nat) : State :=
  match s.verdict f c v with
  | .ok => s.setReg f c v
  | .silent => s
  | .err e => s.fieldError f c e

/-! ### The run lock (R21, R134, R386, R555, R592, R597) -/

/-- The DECK page's RWL fields are locked against a field: open, and not reopened by an FLR for the tenant. -/
def State.deckLocked (s : State) (d : Nat) (f : Fld) : Bool :=
  (s.deckle d).opened && !((s.deckle d).flrOpen && isTenant f)

/-- The block of an RWL field's page is in RUN. -/
def State.locked (s : State) (f : Fld) (c : Nat) : Bool :=
  let k := (fldInfo f).kind
  let i := fldInst f c
  if k = 0x18 then s.deckLocked i f
  else if k = 0x11 then (s.port i).state != .down
  else if 0x13 ≤ k then (s.vat i).state == .run
  else s.tick.running

/-- WRITE_WHILE_RUNNING is set on a page. -/
def State.setWwr (s : State) (p : Nat) : State := s.modPage p (fun r => { r with wwr := true })

/-! ### Writes and shadows (R21, R556, R565) -/

/-- Put a shadow; a later write of the same field stands. -/
def State.putShadow (s : State) (f : Fld) (c v : Nat) : State :=
  let w : Shadow := { page := fldPage f c, fld := fldCode f, copy := c, value := v }
  { s with shadows := s.shadows.filter (fun x => !(x.fld == w.fld && x.copy == c)) ++ [w] }

/-- The pending value of a field, else the value in force. -/
def State.pendingOr (s : State) (f : Fld) (c : Nat) : Nat :=
  match s.shadows.find? (fun x => x.fld == fldCode f && x.copy == c) with
  | some w => w.value
  | none => s.reg f c

/-- Write a field under its access code. -/
def State.writeField (s : State) (f : Fld) (c v : Nat) : State :=
  match (fldInfo f).acc with
  | .rw => s.putField f c v
  | .rwt => s.putShadow f c v
  | .rwl => if s.locked f c then s.setWwr (fldPage f c) else s.putField f c v

/-- Write SESS_BASE and SESS_COUNT together: a range past index 262,143 or over another deckle's records SESS_CLASH
(R280). -/
def State.writeSessRange (s : State) (d base n : Nat) : State :=
  if s.locked .sessBase d then s.setWwr (fldPage .sessBase d)
  else if 262144 < n ∨ (n ≠ 0 ∧ 262144 < base + n) ∨ (allDeckles.filter (· != d)).any (fun e =>
      overlap base n (s.reg .sessBase e) (s.reg .sessCount e)) then s.fieldError .sessBase d .sessClash
  else (s.setReg .sessBase d base).setReg .sessCount d n

/-! ### Commit (R35, R238, R545, R556, R557) -/

/-- Field named by its code. -/
def fldOf (n : Nat) : Option Fld := allFlds.find? (fun f => fldCode f == n)

/-- The shadows of a page commit at a boundary of tick `n`, or at a self-strobe while tick `n` is the last number: not
while PAGE_LATCH holds them for a later tick. -/
def State.commits (s : State) (n page : Nat) : Bool :=
  let r := s.pageRegs page
  !r.latchEn || decide (r.latchTick ≤ n)

/-- The SHARE shadows of a boundary commit together or not at all (R238). DESIGN CHOICE: a serving deckle with SHARE 0 has
no window in shared vats and is not held to its plans' budgets; the two sentences of R238 leave it open (entry 117). -/
def State.commitShares (s : State) (ws : List Shadow) : State :=
  let val := fun d => match ws.find? (fun w => w.copy == d) with
    | some w => w.value
    | none => s.reg .share d
  let p := s.tick.periodNext.getD s.tick.period
  let fail := fun e => ws.foldl (fun s w => s.fieldError .share w.copy e) s
  let wide := ws.filter (fun w => decide (256 < w.value))
  if ws.isEmpty then s
  else if !wide.isEmpty then wide.foldl (fun s w => s.fieldError .share w.copy .fieldRange) s
  else if 256 < sumTo 16 val then fail .shareSum
  else if allDeckles.any (fun d => (s.deckle d).opened && val d != 0 &&
      (s.plansOf d).any (fun q => decide (windowLen p (val d) < planWorst q))) then fail .shareBelowPlan
  else ws.foldl (fun s w => s.setReg .share w.copy w.value) s

/-- Every shadow that is due commits, page by page, in order of arrival; the EN bits of the pages end. -/
def State.commitShadows (s : State) (n : Nat) : State :=
  let due := s.shadows.filter (fun w => s.commits n w.page)
  let s := { s with shadows := s.shadows.filter (fun w => !s.commits n w.page) }
  let shares := due.filter (fun w => w.fld == fldCode .share)
  let s := s.commitShares shares
  let s := (due.filter (fun w => w.fld != fldCode .share)).foldl (fun s w => match fldOf w.fld with
    | some f => s.putField f w.copy w.value
    | none => s) s
  due.foldl (fun s w => s.modPage w.page (fun r => { r with latchEn := false })) s

/-! ### Common registers (R494, R496, R497, R557) -/

/-- Write-1-to-clear bits of PAGE_ERR: [16] VALID with its whole capture, [17] MULTI, [18] WRITE_WHILE_RUNNING. -/
def State.clearPageErr (s : State) (page w : Nat) : State :=
  s.modPage page (fun r =>
    let c := if bit w 16 then none
      else if bit w 17 then r.capture.map (fun k => { k with multi := false }) else r.capture
    { r with capture := c, wwr := r.wwr && !bit w 18 })

/-- A function may write that page: the PF any, a VF its own DECK page. -/
def mayWrite (page fn : Nat) : Bool := fn == 0 || page == pageIndex 0x18 (fn - 1)

/-- PAGE_ERR_CLEAR. -/
def execPageErrClear (page : Nat) (fn : Fin 17) (w : Nat) (s : State) : Out :=
  .next (if (pageOf page).isSome ∧ mayWrite page fn.val then s.clearPageErr page w else s)

/-- Debug with scope REG is unlocked (R432). -/
def State.debugReg (s : State) : Bool := s.sec.unlocked && s.sec.scopeReg

/-- PAGE_ERR_INJ: bits [15:0] and the arm bit [31]. -/
def State.writeInj (s : State) (page v : Nat) : State :=
  if s.debugReg then s.modPage page (fun r => { r with inj := bits v 15 0 + b2n (bit v 31) * 2 ^ 31 }) else s

def execPageErrInj (page value : Nat) (s : State) : Out :=
  .next (if (pageOf page).isSome then s.writeInj page value else s)

/-- PAGE_LATCH: EN [63], DISCARD [62], TARGET [61:0] (R557). -/
def State.writeLatch (s : State) (page v : Nat) : State :=
  let s := s.modPage page (fun r => { r with latchEn := bit v 63, latchTick := bits v 61 0 })
  if bit v 62 then { s with shadows := s.shadows.filter (fun w => w.page != page) } else s

def execPageLatch (page value : Nat) (s : State) : Out :=
  .next (if (pageOf page).isSome then s.writeLatch page value else s)

/-- PLDM_SETTING_WRITE: management writes COOLANT_IN or PWR_LIMIT into the same shadows as the PF (R565). -/
def execPldmSettingWrite (coolant : Bool) (value : Nat) (s : State) : Out :=
  .next (if coolant then s.putShadow .coolantIn 0 (value % 4096) else s.putShadow .pwrLimit 0 value)

/-! ### Injected errors (R497) -/

/-- The errors a page of that kind can raise. -/
def allErrs : List Err := List.flatten [
   [.ideFail, .hubIflMismatch, .hostLinkDown, .hubHostRead, .webForeign, .tagParity, .addrUnmapped, .periodRange],
   [.periodBelowPlan, .updRefused, .updBusy, .imgFormat, .imgDigest, .imgSig, .updOverrun, .flashWrite, .notStaged],
   [.noOrder, .needsStop, .settingsReset, .actDeferred, .bootFallback, .bootFail, .keyGen, .debugDenied, .debugUnlock],
   [.ownerDenied, .hubHang, .refLost, .refFallback, .tempWarn, .tempThrottle, .sensorBroken, .sensorsDegraded],
   [.thermTrip, .telemConvFail, .telemLost, .powerGuard, .limitRange, .pstageFault, .marginLow, .floorBreach],
   [.fallbackFail, .trimRange, .onesMismatch, .planChange, .replanFail, .recordBad, .recordWrite, .errSelf, .eventLost],
   [.unitLost, .overrunLimit, .tileForeign, .kvForeign, .sbDup, .xwindow, .badCommand, .sessBusy, .sessState],
   [.badParam, .noInput, .full, .badToken, .quireBind, .notActive, .tagMismatch, .ckptFormat, .kvEcc, .swapAuth],
   [.noFit, .kvQuotaSum, .swapSum, .kvInvalid, .tileCrc, .tileFormat, .tileCheck, .planPeriod, .reamFormat, .reamIfl],
   [.sectDigest, .reamDigest, .reamSig, .placeClash, .corrFit, .noSpace, .genOrder, .slotBusy, .couchBreak, .noPlace],
   [.quireFormat, .quireDigest, .quireBase, .quireInUse, .discarded, .stressRefused, .stressAbort, .patternFail],
   [.vatFail, .laneMapout, .laneLimit, .portFail, .linkAuth, .attestFail, .neighbourCfg, .unreachable, .xferForeign],
   [.epochMismatch, .alignLost, .rekeyFail, .memEccCorr, .pageWithdrawn, .retireRefused, .memEccUncorr, .miscount],
   [.burstFormat, .stuckBudget, .sparesExhausted, .nonfinite, .serviceRefused, .watermarkMismatch, .corrStore],
   [.quireRead, .ctxCrc, .ringMember, .countOverflow, .convSuspect, .refNotReady, .refFault, .corrSelRange, .clkLock],
   [.scrEccCorr, .scrEccUncorr, .sqOverflow, .sqPiBack, .fetchSum, .deckQuotaSum, .quotaBelowPlan, .shareSum],
   [.shareBelowPlan, .dedicatedClash, .sessClash, .trReadsSum, .vfWriteRo, .pubSum, .deckHostRead, .deckIflMismatch],
   [.deckBusy, .ringConfig, .accClash, .fieldRange]]

/-- The error of a 16-bit code. -/
def errOfCode (c : Nat) : Option Err :=
  match allErrs.find? (fun e => errCode e == c) with
  | some e => some e
  | none => if c / 4096 = 2 ∧ c % 64 = 0x3E ∧ [1, 6, 8, 0xA, 0xB, 0xC, 0xD, 0xE, 0xF, 0x10, 0x11, 0x13].contains (c / 64 % 64)
            then some (.seqFault (c / 64 % 64)) else none

/-- Raise the injected errors that are armed, page by page; an undefined code raises nothing. DESIGN CHOICE (log entry
41): the block's next check is the next boundary or self-strobe. -/
def State.raiseInjected (s : State) : State :=
  (s.errs.pages.filter (fun x => bit x.2.inj 31)).foldl (fun s x =>
    let code := bits x.2.inj 15 0
    let s := s.modPage x.1 (fun r => { r with inj := bits r.inj 15 0 })
    match pageOf x.1, errOfCode code with
    | some (k, i), some e =>
      if (errInfo e).kind ≠ k then s
      else s.report { err := e, inst := i, injected := true
                      deckle := if k = 0x18 then some i else none
                      unit := if 0x13 ≤ k ∧ k ≤ 0x17 then i else 0x40
                      vat := if 0x13 ≤ k ∧ k ≤ 0x17 then some i else none }
    | _, _ => s) s

end Sys2Proof.Machine
end

