-- ==== Sys2Proof/Machine/Reams.lean ====
section
/-! DEFINITION. Ream descriptors, status records and the loading of a ream image: checks, pages, couching (R315 to R322,
R327 to R333, R335, R589, R602). -/
namespace Sys2Proof.Machine

/-! ### Status records (R328) -/

/-- The 32-byte status record of an operation. -/
def State.statusRecord (s : State) (desc : Bytes) (moved result : Nat) : Bytes :=
  leBytes 1 (dOp desc) ++ leBytes 1 (dSlot desc) ++ leBytes 2 result ++ leBytes 8 (dGen desc) ++ leBytes 8 moved ++
  leBytes 4 s.tick.now ++ leBytes 8 0

/-- The status record of a ream operation, at the tail of the tick or at once while no tick runs, with PF vector 0
(R328, R405, R406). -/
def State.pfStatus (s : State) (desc : Bytes) (moved result : Nat) : State :=
  let s := { s with host := { s.host with
    pfRecs := s.host.pfRecs ++ [(dStatus desc, s.statusRecord desc moved result)] } }
  (if s.ticking then s else s.flushPf).pfVector 0

/-- A ream operation is refused: its status record carries the code, and the REAM block records it. -/
def State.reamRefused (s : State) (desc : Bytes) (moved : Nat) (e : Err) : State :=
  (s.corrected e 0 none).pfStatus desc moved (errCode e)

/-- The status record of a quire operation, a publication unit of the deckle (R328, R404). -/
def State.quireStatus (s : State) (d : Nat) (desc : Bytes) (moved result : Nat) : State :=
  let u : PubUnit := { quire := true, order := s.tail
                       writes := [.quireStatus (dStatus desc) (s.statusRecord desc moved result)] }
  s.modDeckle d (fun k => { k with units := k.units ++ [u] })

/-- A quire operation is refused. -/
def State.quireRefused (s : State) (d : Nat) (desc : Bytes) (moved : Nat) (e : Err) : State :=
  (if (errInfo e).cls = 1 then s.corrected e 0 (some d) else s).quireStatus d desc moved (errCode e)

/-- A ream descriptor has been read (R327, R328, R411): one that failed starts nothing and leaves no record, an undefined
operation or slot is refused, and one that names `op` is carried out. -/
def State.withDesc (s : State) (r : HostRead) (op : Nat) (f : Bytes → State) : State :=
  if s.reloading (seqCode .ream) then s
  else match r with
  | .late => s
  | .fail => s.corrected .hubHostRead 0 none
  | .data b =>
    if dOp b = 0 ∨ 6 < dOp b ∨ 15 < dSlot b then s.reamRefused b 0 .reamFormat
    else if dOp b ≠ op then s
    else f b

/-- The same for a descriptor read through QUIRE_DESC, whose index is bounded as well (R330). -/
def State.withQuireDesc (s : State) (d : Nat) (r : HostRead) (op : Nat) (f : Bytes → State) : State :=
  if s.reloading (seqCode .ream) then s
  else match r with
  | .late => s
  | .fail => s.report { err := .deckHostRead, inst := d, deckle := some d }
  | .data b =>
    if (dOp b ≠ 0x11 ∧ dOp b ≠ 0x12) ∨ 15 < dSlot b ∨ 1023 < dDeckles b then s.quireRefused d b 0 .quireFormat
    else if dOp b ≠ op then s
    else f b

/-! ### Pages of an image (R602) -/

/-- Write bytes along a list of pages from offset `off` on. -/
def writePaged (pages : List Nat) : Nat → Bytes → State → State
  | _, [], s => s
  | off, b :: r, s =>
    writePaged pages (off + 1) r (s.setByte (nth pages (off / 65536) * 65536 + off % 65536) b)

/-- Read `n` bytes along a list of pages from offset `off` on. -/
def State.readPaged (s : State) (pages : List Nat) (off n : Nat) : Bytes :=
  (List.range n).map (fun i => s.byte (nth pages ((off + i) / 65536) * 65536 + (off + i) % 65536))

/-- The stream number that takes pages round-robin; streams 0 to 3 are the dies' own. -/
def roundStream : Nat := 8

/-- The stream that holds tile records until PLACE has come (R602). -/
def holdStream : Nat := 9

/-- The next page of a stream: of the roomier of a die's two stacks, or of the next stack of the round. -/
def State.streamPage (s : State) (die rr byte : Nat) : Option (Nat × Nat × State) :=
  if die < 4 then
    let l := [2 * die, 2 * die + 1].filter (fun st => decide (0 < s.freePages st))
    match s.roomiest l with
    | none => none
    | some st => (s.takePage st byte).map (fun x => (x.1, rr, x.2))
  else match s.nextStack (if die = holdStream then 0 else rr) with
    | none => none
    | some st => (s.takePage st byte).map (fun x => (x.1, if die = holdStream then rr else (st + 1) % 8, x.2))

/-- Take `n` more pages for a stream of an image of slot `k`. -/
def growStream (k die : Nat) : Nat → Image → State → Option (Image × State)
  | 0, m, s => some (m, s)
  | n + 1, m, s =>
    match s.streamPage die m.rr (ownSlot k) with
    | none => none
    | some (p, rr, s) =>
      let (ps, used) := get ([], 0) m.dies die
      growStream k die n { m with rr, pages := m.pages ++ [p], dies := put ([], 0) m.dies die (ps ++ [p], used) } s

/-- Append bytes to a stream of the image: where they went, the image and the state after; none without a free page. -/
def streamAppend (k die : Nat) (bs : Bytes) (m : Image) (s : State) : Option (Nat × Image × State) :=
  let (ps, used) := get ([], 0) m.dies die
  match growStream k die (ceilDiv (used + bs.length) 65536 - ps.length) m s with
  | none => none
  | some (m, s) =>
    let ps := (get ([], 0) m.dies die).1
    some (used, { m with dies := put ([], 0) m.dies die (ps, used + bs.length) }, writePaged ps used bs s)

/-- Append bytes to the pages of a section, taken round-robin. -/
def sectionAppend (k typ pos : Nat) (bs : Bytes) (m : Image) (s : State) : Option (Image × State) :=
  let ps := get [] m.secPages typ
  match takePages (ceilDiv (pos + bs.length) 65536 - ps.length) m.rr (ownSlot k) [] s with
  | none => none
  | some (new, rr, s) =>
    let ps := ps ++ new
    some ({ m with rr, pages := m.pages ++ new, secPages := put [] m.secPages typ ps }, writePaged ps pos bs s)

/-- Place of a record kept: stream and offset, from its packed form. -/
def unpackLoc (v : Nat) : Nat × Nat := ((v - 1) / 2 ^ 40, (v - 1) % 2 ^ 40)

/-- The record of tile `t` of an image as the stacks hold it, with its outlier entries. -/
def State.tileRecord (s : State) (m : Image) (t : Nat) : Option (Bytes × Bytes) :=
  let v := get 0 m.locOf t
  if v = 0 then none
  else
    let (die, off) := unpackLoc v
    let rec_ := s.readPaged (get ([], 0) m.dies die).1 off tileBytes
    let o := get 0 m.outOf t
    let outs := if o = 0 then []
      else s.readPaged (get ([], 0) m.dies (unpackLoc o).1).1 (unpackLoc o).2 (4 * tOutCount rec_)
    some (rec_, outs)

/-- The page that holds the first byte of tile record `t` of an image. -/
def Image.recordPage (m : Image) (t : Nat) : Option Nat :=
  let v := get 0 m.locOf t
  if v = 0 then none else (get ([], 0) m.dies (unpackLoc v).1).1[(unpackLoc v).2 / 65536]?

/-! ### Checks of R329 -/

/-- Section entries of a manifest. -/
def manifestSections (b : Bytes) : List Section :=
  (List.range (mSectCnt b)).map (fun i =>
    let e := mSection b i
    { typ := field e 0 2, offset := field e 8 8, len := field e 0x10 8, digest := slice e 0x20 48 })

/-- Section of a type. -/
def sectionOf (l : List Section) (t : Nat) : Option Section := l.find? (fun x => x.typ == t)

/-- Every element of a list differs from every later one. -/
def distinct {α : Type} [DecidableEq α] : List α → Bool
  | [] => true
  | a :: r => !r.contains a && distinct r

/-- Manifest format, section bounds and required sections (R318, R319, check 2 of R329). -/
def manifestOk (b : Bytes) (len : Option Nat) : Bool :=
  let l := manifestSections b
  let fld := b.length == 4096 && field b 0 4 == 0x4D414552 && field b 4 2 == 1 && decide (1 ≤ mSectCnt b) &&
    decide (mSectCnt b ≤ 32) && decide (1 ≤ mModules b) && decide (mModules b ≤ 32768) && mFlags b / 8 == 0 &&
    decide (mExtraHeads b ≤ 4) && field b 0x38 8 == 0 && allZero (slice b 0x70 144) && allZero (slice b 0xB00 1024) &&
    decide (mKeySlot b ≤ 3) && allZero (slice b 0xF61 159)
  let ent := (List.range 32).all (fun i =>
    let e := mSection b i
    if i < mSectCnt b then allZero (slice e 2 6) && field e 0x18 8 == 0 else allZero e)
  let secs := l.all (fun x => decide (1 ≤ x.typ) && decide (x.typ ≤ 6) && x.offset % 4096 == 0 &&
    decide (4096 ≤ x.offset) && decide (x.offset + x.len ≤ mImageLen b))
  let apart := l.all (fun x => l.all (fun y =>
    x.typ == y.typ || decide (x.offset + x.len ≤ y.offset) || decide (y.offset + y.len ≤ x.offset)))
  let need := [1, 2, 4, 6].all (fun t => (sectionOf l t).isSome)
  let tiles := ((sectionOf l 2).map (fun x => x.len == mTileCnt b * tileBytes)).getD false
  let place := ((sectionOf l 6).map (fun x => x.digest == slice b 0x40 48)).getD false
  fld && ent && secs && apart && need && distinct (l.map (fun x => x.typ)) && tiles && place &&
  (len.map (fun n => n == mImageLen b)).getD true

/-- The image a manifest opens. -/
def imageOfManifest (m : Image) (b : Bytes) : Image :=
  { m with digest := sha384 (b.take 0xF00), manifest := b, sections := manifestSections b, modules := mModules b
           canonical := bit (mFlags b) 0, turnover := bit (mFlags b) 1, signed := bit (mFlags b) 2
           tileCnt := mTileCnt b, layers := mLayers b, extraHeads := mExtraHeads b, kvHeads := mKvHeads b
           width := mWidth b, vocab := mVocab b }

/-- Sum of KV_QUOTA over the deckles. -/
def State.quotaSum (s : State) : Nat := sumTo 16 (fun d => s.reg .kvQuota d)

/-- Check 1: `n` bytes fit the free pages without bringing KV_POOL below the quotas. -/
def State.spaceFor (s : State) (n : Nat) : Bool :=
  let p := ceilDiv n 65536
  decide (s.quotaSum + p ≤ s.kvPool) && decide (p ≤ sumTo 8 s.freePages)

/-- Every image of a slot in the stacks. -/
def Slot.images (x : Slot) : List Image := x.incoming.toList ++ x.current.toList ++ x.retiring.toList

/-- PLACE entries of an image for its own member. -/
def Image.mine (m : Image) : List Place := m.place.filter (fun p => p.member == m.member)

/-- Correction-store bytes of an image on vat `v`: the outlier entries and the stuck-cell budget of each tile place
(R113, R206). -/
def Image.corrBytes (m : Image) (v : Nat) : Nat :=
  let l := m.mine.filter (fun p => p.vat == v)
  let key := fun p : Place => p.logical * 4 + p.slot
  let outs := fun p : Place => (get (0, 0, 0) m.tileInfo p.tile).2.2
  let worst : SMap Nat := l.foldl (fun a p => ins a (key p) (max (get 0 a (key p)) (outs p))) []
  worst.foldl (fun a x => a + 4 * (x.2 + 64)) 0

/-- The plan's layout clashes with vat `v` (R589): another image's tiles with another layout, or an open deckle's
allotment outside the ACC region. -/
def State.layoutClash (s : State) (k : Nat) (p : Plan) (v : Nat) : Bool :=
  let x := s.vat v
  ((s.groupsOf v).any (fun q => (s.group v q).modelSlot != 16 && (s.group v q).modelSlot != k) &&
    !(x.accSize == p.accSize && x.corrSize == p.corrSize && x.stageSize == p.stageSize)) ||
  allDeckles.any (fun d => (s.deckle d).opened && decide (p.accSize < (s.allot d v).1 + (s.allot d v).2))

/-- A group of vat `v` serves logical group `l`: every number below 1,488 may, until the vat's initial calibration. -/
def State.hasLogical (s : State) (v l : Nat) : Bool :=
  (s.vat v).state == .off || (s.vat v).state == .calibrating || (s.locate v l).isSome

/-- The turnover sets of some segments, in order: the tiles that the EXCHANGE operations of one segment write. DEDUCED: the
plan names no set otherwise (R336, entry 124). -/
def setsOf (gs : List Segment) : List (List Nat) :=
  (gs.map (fun g => g.ops.foldr (fun m a => match m.exch with
    | .setWrite l => if m.typ == .exchange then l ++ a else a
    | _ => a) [])).filter (fun l => !l.isEmpty)

/-- Set `k` of a turnover plan lies in bank `k mod 2`, and no two of its tiles share a place (R336). -/
def Image.setsFit (m : Image) : Bool :=
  let fits := fun (x : List Nat × Nat) =>
    let l := m.mine.filter (fun p => x.1.contains p.tile)
    l.all (fun p => p.logical % 2 == x.2 % 2) && distinct (l.map (fun p => (p.vat, p.logical, p.slot)))
  match m.plan with
  | none => true
  | some p => [p.decode, p.prefill, p.ring].all (fun gs => (setsOf gs).zipIdx.all fits)

/-- Check 9: member, place of every tile in a group in service, the banks of turnover sets, and no overlap with another
slot's image (R329, R335, R336, R386, R589). -/
def State.placeClash (s : State) (k : Nat) (m : Image) : Bool :=
  let mine := m.mine
  let vats := allVats.filter (fun v => mine.any (fun p => p.vat == v))
  let standing := fun j => (s.slot j).images.filter (fun i => i.state != .loading)
  let others := (allSlots.filter (· != k)).foldl (fun a j => a ++ standing j) []
  let turn := fun i : Image => i.turnover && (i.state == .current || i.state == .ready)
  let member := !(decide (m.member < m.modules) && get 0 (s.slot k).members m.member == s.reg .nodeId)
  let range := m.place.any (fun p => decide (m.modules ≤ p.member) || decide (64 ≤ p.vat) || decide (1488 ≤ p.logical) ||
    decide (4 ≤ p.slot) || decide (m.tileCnt ≤ p.tile)) || mine.any (fun p => !s.hasLogical p.vat p.logical)
  let each := !((List.range m.tileCnt).all (fun t => (m.place.filter (fun p => p.tile == t)).length == 1))
  let apart := if m.turnover then !m.setsFit else !distinct (mine.map (fun p => (p.vat, p.logical, p.slot)))
  let clash := if m.turnover then !others.isEmpty
    else (others ++ standing k).any turn ||
      others.any (fun i => i.mine.any (fun q => mine.any (fun p => p.vat == q.vat && p.logical == q.logical)))
  let layout := match m.plan with
    | none => false
    | some p => vats.any (s.layoutClash k p)
  member || range || each || apart || clash || layout

/-- Checks 6 to 10, in order. -/
def State.finalCheck (s : State) (k : Nat) (m : Image) (expect : List Bytes) : Option Err :=
  let signed := m.signed && (match get [] s.sec.owners (mKeySlot m.manifest) with
    | [] => false
    | key => ecdsaVerify key m.digest (mSig m.manifest))
  if expect.any (fun e => !allZero e && e != m.digest) then some .reamDigest
  else if (m.signed ∧ !signed) ∨ (!m.signed ∧ s.sec.reqSig) then some .reamSig
  else match m.plan with
    | none => some .reamFormat
    | some p =>
      if s.tick.period < p.minPeriod then some .planPeriod
      else if s.placeClash k m then some .placeClash
      else if allVats.any (fun v => decide (p.corrSize * 4096 < m.corrBytes v)) then some .corrFit
      else none

/-! ### Quires against their base (R330) -/

/-- Every sparse entry and pair of a quire agrees with its base image. -/
def quireAgrees (q : Quire) (m : Image) : Bool :=
  q.sparse.all (fun t => decide (t.1 < m.tileCnt) && t.2.all (fun e =>
    decide (e.1 < (get (0, 0, 0) m.tileInfo t.1).1) && decide (e.2.1 < (get (0, 0, 0) m.tileInfo t.1).2.1))) &&
  q.pairs.all (fun p => ((m.plan.map (fun x => x.kBlocks)).getD []).contains (p.layer, p.matrix, p.k, p.n))

/-- Layout of the quire header and tables (R323 to R325). -/
def qTileCnt (b : Bytes) : Nat := field b 0x40 4
def qPairCnt (b : Bytes) : Nat := field b 0x44 2
def qSparse (b : Bytes) (i : Nat) : Bytes := slice b (field b 0x48 8 + 16 * i) 16
def qPair (b : Bytes) (i : Nat) : Bytes := slice b (field b 0x50 8 + 32 * i) 32

/-- Rounded up to a multiple of 4. -/
def up4 (n : Nat) : Nat := ceilDiv n 4 * 4

/-- Byte offsets of U, su, V and sv of a pair, and the end. -/
def pairParts (e : Bytes) : Nat × Nat × Nat × Nat × Nat :=
  let k := field e 4 4
  let n := field e 8 4
  let r := field e 3 1
  let u := field e 0x10 8
  let su := up4 (u + k * r)
  let v := up4 (su + 2 * r)
  let sv := up4 (v + r * n)
  (u, su, v, sv, sv + 2 * n)

/-- Position of a sparse entry: neuron, then row. -/
def sparsePos (b : Bytes) (o : Nat) : Nat := field b (o + 1) 1 % 64 * 256 + field b o 1

/-- Check 2 of R330. -/
def quireFormatOk (b : Bytes) (len : Nat) : Bool :=
  let tiles := List.range (qTileCnt b)
  let pairs := List.range (qPairCnt b)
  let head := b.length == len && field b 8 8 == len && field b 0 4 == 0x52495551 && field b 4 2 == 1 &&
    field b 6 2 == 0 && field b 0x46 2 == 0 && allZero (slice b 0x58 168) && decide (256 ≤ b.length) &&
    decide (field b 0x48 8 + 16 * qTileCnt b ≤ b.length) && decide (field b 0x50 8 + 32 * qPairCnt b ≤ b.length) &&
    (qTileCnt b != 0 || field b 0x48 8 == 0) && (qPairCnt b != 0 || field b 0x50 8 == 0)
  let sparse := tiles.all (fun i =>
    let e := qSparse b i
    let c := field e 4 2
    let o := field e 8 8
    decide (1 ≤ c) && decide (c ≤ 200) && field e 6 2 == 0 && o % 4 == 0 && decide (o + 4 * c ≤ b.length) &&
    (i + 1 == qTileCnt b || decide (field e 0 4 < field (qSparse b (i + 1)) 0 4)) &&
    (List.range c).all (fun j => field b (o + 4 * j + 1) 1 / 64 == 0 && field b (o + 4 * j + 2) 1 != 0 &&
      field b (o + 4 * j + 3) 1 == 0 &&
      (j + 1 == c || decide (sparsePos b (o + 4 * j) < sparsePos b (o + 4 * (j + 1))))))
  let pair := pairs.all (fun i =>
    let e := qPair b i
    decide (field e 2 1 ≤ 7) && decide (1 ≤ field e 3 1) && decide (field e 3 1 ≤ 64) && field e 0xC 4 == 0 &&
    field e 0x18 8 == 0 && field e 0x10 8 % 4 == 0 && decide ((pairParts e).2.2.2.2 ≤ b.length))
  head && sparse && pair && distinct (pairs.map (fun i => (field (qPair b i) 0 2, field (qPair b i) 2 1)))

/-- bf16 values of a string. -/
def bf16s (b : Bytes) (o n : Nat) : List BF16 := (List.range n).map (fun i => BitVec.ofNat 16 (field b (o + 2 * i) 2))

/-- A quire from its image. -/
def quireOf (d k idx : Nat) (b : Bytes) (pages : List Nat) : Quire :=
  { deckle := d, slot := k, index := idx, base := slice b 0x10 48, pages
    sparse := (List.range (qTileCnt b)).map (fun i =>
      let e := qSparse b i
      let o := field e 8 8
      (field e 0 4, (List.range (field e 4 2)).map (fun j => outEntry (slice b o (4 * field e 4 2)) j)))
    pairs := (List.range (qPairCnt b)).map (fun i =>
      let e := qPair b i
      let (u, su, v, sv, _) := pairParts e
      { layer := field e 0 2, matrix := field e 2 1, rank := field e 3 1, k := field e 4 4, n := field e 8 4
        u := slice b u (field e 4 4 * field e 3 1), su := bf16s b su (field e 3 1)
        v := slice b v (field e 3 1 * field e 8 4), sv := bf16s b sv (field e 8 4) }) }

/-- End a deckle's running quire operation on slot `k` with its status record; one that fails frees its pages. -/
def State.quireEnd (s : State) (d k : Nat) (e : Option Err) : State :=
  match get {} (s.deckle d).qops k with
  | op =>
    let s := if e.isSome then s.release op.pages else s
    let s := s.modDeckle d (fun x => { x with qops := put {} x.qops k {} })
    match e with
    | some e => s.quireRefused d op.desc op.moved e
    | none => s.quireStatus d op.desc op.moved 0

/-- Checks 3 to 5 of a QLOAD whose image `b` stands in its pages; it waits while its base is LOADING (R330). -/
def State.quireCheck (s : State) (d k : Nat) (b : Bytes) : State :=
  let op := get {} (s.deckle d).qops k
  let idx := dDeckles op.desc
  let base := slice b 0x10 48
  let bases := (s.slot k).images.filter (fun m => m.digest == base)
  let settled := bases.filter (fun m => m.state != .loading)
  if sha384 b ≠ dExpect op.desc then s.quireEnd d k (some .quireDigest)
  else match settled with
    | m :: _ =>
      if !quireAgrees (quireOf d k idx b []) m then s.quireEnd d k (some .quireFormat)
      else
        let same := fun q : Quire => q.deckle == d && q.slot == k && q.index == idx && q.base == base
        let old := s.quires.filter same
        let s := s.release (old.foldl (fun a q => a ++ q.pages) [])
        let s := { s with quires := s.quires.filter (fun q => !same q) ++ [quireOf d k idx b op.pages] }
        s.quireEnd d k none
    | [] =>
      if bases.isEmpty then s.quireEnd d k (some .quireBase)
      else s.modDeckle d (fun x => { x with qops := put {} x.qops k { op with held_ := b } })

/-- A QLOAD's image has arrived: its format, then its pages, taken from the deckle's free quota as it arrives, and the other
checks (R330, R602). -/
def State.quireArrives (s : State) (d k : Nat) (b : Bytes) : State :=
  let op := { get {} (s.deckle d).qops k with moved := b.length }
  let s := s.modDeckle d (fun x => { x with qops := put {} x.qops k op })
  if !quireFormatOk b (dLen op.desc) then s.quireEnd d k (some .quireFormat)
  else if s.reg .kvQuota d < s.kvUsed d + ceilDiv b.length 65536 then s.quireEnd d k (some .noFit)
  else match takePages (ceilDiv b.length 65536) 0 (ownDeckle d) [] s with
    | none => s.quireEnd d k (some .noFit)
    | some (ps, _, s) => ((writePaged ps 0 b s).modDeckle d (fun x =>
        { x with qops := put {} x.qops k { op with pages := ps } })).quireCheck d k b

/-- A load of slot `k` has ended: the QLOADs that wait for it go on. -/
def State.wakeQuires (s : State) (k : Nat) : State :=
  allDeckles.foldl (fun s d =>
    let op := get {} (s.deckle d).qops k
    if op.op = 0x11 ∧ op.held_ ≠ [] then s.quireCheck d k op.held_ else s) s

/-! ### LOAD and COUCH_RECV (R316, R328, R329, R331, R332) -/

/-- A load that is running ends without an image: its pages return, its status record carries `code`. -/
def State.endLoad (s : State) (k code : Nat) : State :=
  let x := s.slot k
  match x.op, x.incoming with
  | some op, some m =>
    let s := s.release m.pages
    let s := s.modSlot k (fun x => { x with incoming := none, op := none })
    (s.pfStatus op.desc op.moved code).wakeQuires k
  | _, _ => s

/-- The load fails with an error. -/
def State.failLoad (s : State) (k : Nat) (e : Err) : State :=
  (s.corrected e 0 none).endLoad k (errCode e)

/-- An operation runs on slot `k`, of the ream or of a quire of any deckle (R328). -/
def State.slotBusy (s : State) (k : Nat) : Bool :=
  (s.slot k).op.isSome || allDeckles.any (fun d => (get {} (s.deckle d).qops k).op != 0)

/-- The same for a quire operation, which may wait beside a LOAD or COUCH_RECV for its base (R328, R330). -/
def State.quireBusy (s : State) (k : Nat) : Bool :=
  ((s.slot k).op.map (fun o => o.op != 1 && o.op != 6)).getD false ||
  allDeckles.any (fun d => (get {} (s.deckle d).qops k).op != 0)

/-- What refuses a LOAD or COUCH_RECV before it starts (R316, R328). -/
def State.loadBar (s : State) (b : Bytes) : Option Err :=
  let x := s.slot (dSlot b)
  if s.slotBusy (dSlot b) ∨ x.incoming.isSome ∨ (x.current.isSome ∧ x.retiring.isSome) then some .slotBusy
  else if dGen b < x.lastGen then some .genOrder
  else none

/-- The image and the operation that a LOAD or COUCH_RECV starts with. The slot holds an image of that generation from then
on, for a COUCH_RECV once its stream has begun (R316). -/
def State.startLoad (s : State) (b : Bytes) (chain : List Nat) : State :=
  s.modSlot (dSlot b) (fun x => { x with
    incoming := some { state := .loading, gen := dGen b, member := dMember b, mask := dDeckles b }
    op := some { op := dOp b, desc := b, chain, begun := dOp b == 1 }
    lastGen := if dOp b = 1 then dGen b + 1 else x.lastGen })

/-- Change the running operation and the incoming image of a slot. -/
def State.setLoad (s : State) (k : Nat) (op : SlotOp) (m : Image) : State :=
  s.modSlot k (fun x => { x with op := some op, incoming := some m })

/-- Section bytes taken, up to a place in the image that the bytes moved follow: the running digest, and at the section's
end its check (R329, check 4). `keep` stores the bytes in the section's own pages. -/
def State.takeSection (s : State) (k typ : Nat) (bs : Bytes) (keep : Bool) : State :=
  let x := s.slot k
  match x.op, x.incoming with
  | some op, some m =>
    match sectionOf m.sections typ with
    | none => s
    | some sec =>
      if m.secDone.contains typ ∨ (op.secPos ≠ 0 ∧ op.secType ≠ typ) ∨ sec.len < op.secPos + bs.length then s
      else
        let hash := shaTake (op.hash.getD shaStart) bs
        let op' := { op with moved := max op.moved (sec.offset + op.secPos + bs.length), secType := typ,
                             secPos := op.secPos + bs.length
                             hash := some hash }
        match (if keep then sectionAppend k typ op.secPos bs m s else some (m, s)) with
        | none => (s.setLoad k op' m).failLoad k .noSpace
        | some (m, s) =>
          if op'.secPos < sec.len then s.setLoad k op' m
          else if shaEnd hash ≠ sec.digest then (s.setLoad k op' m).failLoad k .sectDigest
          else s.setLoad k { op' with secPos := 0, hash := none } { m with secDone := m.secDone ++ [typ] }
  | _, _ => s

/-- The manifest has arrived: checks 2 and 3, after check 1 for a couched image, whose length the manifest states. -/
def State.takeManifest (s : State) (k : Nat) (b : Bytes) : State :=
  let x := s.slot k
  match x.op, x.incoming with
  | some op, some m =>
    if m.manifest ≠ [] then s
    else
      let s := s.setLoad k { op with moved := b.length } m
      if op.op = 6 ∧ !s.spaceFor (mImageLen b) then s.failLoad k .noSpace
      else if !manifestOk b (if op.op = 1 then some (dLen op.desc) else none) then s.failLoad k .reamFormat
      else if mIfl b ≠ s.activeIfLevel then s.failLoad k .reamIfl
      else match sectionAppend k 0 0 b (imageOfManifest m b) s with
        | none => s.failLoad k .noSpace
        | some (m, s) => s.setLoad k { op with moved := b.length } m
  | _, _ => s

/-- Die whose stacks hold a tile's record: that of the vat PLACE assigns it to, the round-robin stream for a turnover image;
none for a tile of another member. Records that come before PLACE are held together until it does (R602). -/
def Image.streamOf (m : Image) (t : Nat) : Option Nat :=
  if m.place.isEmpty then some holdStream
  else (m.mine.find? (fun p => p.tile == t)).map (fun p => if m.turnover then roundStream else dieOf p.vat % 4)

/-- A tile's record and outlier entries go to the pages of their stream: the image and the state after; none without a free
page. -/
def keepTile (k t : Nat) (b outs : Bytes) (m : Image) (s : State) : Option (Image × State) :=
  match m.streamOf t with
  | none => some (m, s)
  | some die => match streamAppend k die b m s with
    | none => none
    | some (o, m, s) =>
      let m := { m with locOf := put 0 m.locOf t (die * 2 ^ 40 + o + 1) }
      if outs = [] then some (m, s)
      else match streamAppend k die outs m s with
        | none => none
        | some (o, m, s) => some ({ m with outOf := put 0 m.outOf t (die * 2 ^ 40 + o + 1) }, s)

/-- Keep some tiles, in order. -/
def keepTiles (k : Nat) : List (Nat × Bytes × Bytes) → Image → State → Option (Image × State)
  | [], m, s => some (m, s)
  | (t, b, outs) :: r, m, s => match keepTile k t b outs m s with
    | none => none
    | some (m, s) => keepTiles k r m s

/-- PLACE has come: the records held until now go to their dies, and those of other members are dropped (R332, R602). -/
def State.rehome (s : State) (k : Nat) : State :=
  match (s.slot k).op, (s.slot k).incoming with
  | some op, some m =>
    let held := (get ([], 0) m.dies holdStream).1
    let tiles := m.locOf.filterMap (fun x => (s.tileRecord m x.1).map (fun y => (x.1, y.1, y.2)))
    let m := { m with locOf := [], outOf := [], dies := put ([], 0) m.dies holdStream ([], 0)
                      pages := m.pages.filter (fun p => !held.contains p) }
    let s := s.release held
    match keepTiles k tiles m s with
    | none => (s.setLoad k op m).failLoad k .noSpace
    | some (m, s) => s.setLoad k op m
  | _, _ => s

/-- Weight-outlier bytes have been taken whole: the entries of every tile stand at their OUT_OFFSET, or check 5 fails with
TILE_FORMAT (R78, R81). DESIGN CHOICE: the sections come in any order, so a tile that came before these bytes is compared
with them at their end (entry 125). -/
def State.woutDone (s : State) (k : Nat) : State :=
  match (s.slot k).op, (s.slot k).incoming with
  | some op, some m =>
    if !m.secDone.contains 3 then s
    else if m.woutDue.all (fun x => slice m.wout x.1 x.2.length == x.2 && decide (x.1 + x.2.length ≤ m.wout.length)) then
      s.setLoad k op { m with woutDue := [] }
    else s.failLoad k .tileFormat
  | _, _ => s

/-- A tile record has arrived with its outlier entries: check 5, and its place in the stacks. -/
def State.takeTile (s : State) (k : Nat) (b outs : Bytes) : State :=
  let x := s.slot k
  match x.op, x.incoming with
  | some op, some m =>
    let wout := (sectionOf m.sections 3).isSome
    let start := ((sectionOf m.sections 2).map (fun x => x.offset)).getD 0
    let after := { op with moved := max op.moved (start + op.secPos + b.length) }
    if (sectionOf m.sections 2).isNone then s
    else if tFlags b % 2 = 1 ∧ !wout then (s.setLoad k after m).failLoad k .reamFormat
    else match tileBad b m.tilesIn with
      | some e => (s.setLoad k after m).failLoad k e
      | none =>
        if tFlags b = 1 ∧ outliersBad b outs then (s.setLoad k after m).failLoad k .tileFormat
        else
          let t := m.tilesIn
          let m := { m with tilesIn := t + 1
                            tileInfo := put (0, 0, 0) m.tileInfo t (tRows b, tNeurons b, tOutCount b)
                            woutDue := if outs = [] then m.woutDue else m.woutDue ++ [(field b 0x22C0 8, outs)] }
          match keepTile k t b outs m s with
          | none => (s.setLoad k after m).failLoad k .noSpace
          | some (m, s) => ((s.setLoad k op m).takeSection k 2 b false).woutDone k
  | _, _ => s

/-- Every byte has been taken: checks 6 to 10, and the image becomes READY. -/
def State.finishLoad (s : State) (k : Nat) : State :=
  let x := s.slot k
  match x.op, x.incoming with
  | some op, some m =>
    if m.sections.isEmpty ∨ !m.sections.all (fun t => t.len == 0 || m.secDone.contains t.typ) then s
    else if m.sections.any (fun t => t.len == 0 && t.digest != sha384 []) then s.failLoad k .sectDigest
    else if m.tilesIn ≠ m.tileCnt then s.failLoad k .tileFormat
    else match s.finalCheck k m [dExpect op.desc, op.expect] with
      | some e => s.failLoad k e
      | none =>
        let s := s.modSlot k (fun x => { x with op := none, incoming := some { m with state := .ready, wout := [] } })
        (s.pfStatus op.desc (max op.moved (mImageLen m.manifest)) 0).wakeQuires k
  | _, _ => s

/-- A section of the incoming image has been taken whole. -/
def State.sectionIn (s : State) (k typ : Nat) : Bool := ((s.slot k).incoming.map (fun m => m.secDone.contains typ)).getD false

/-- A part of the image that runs on slot `k`. -/
def State.takePart (s : State) (k : Nat) (part : ImagePart) : State :=
  let couch := match (s.slot k).op with
    | some op => op.op == 6
    | none => false
  let read := fun (r : HostRead) (f : Bytes → State) => match r with
    | .late => s
    | .fail => if couch then s.failLoad k .couchBreak else s.failLoad k .hubHostRead
    | .data b => f b
  match part with
  | .manifest r => read r (fun b => s.takeManifest k b)
  | .chunk t r => read r (fun b => if t = 1 ∨ t = 2 ∨ t = 6 then s
      else if t = 3 then
        ((s.modSlot k (fun x => { x with incoming := x.incoming.map (fun m => { m with wout := m.wout ++ b }) })).takeSection
          k 3 b false).woutDone k
      else s.takeSection k t b true)
  | .tile r o => read r (fun b => if tFlags b = 1 then read o (fun outs => s.takeTile k b outs) else s.takeTile k b [])
  | .plan p r => read r (fun b => if s.sectionIn k 1 then s else
      (s.modSlot k (fun x => { x with incoming := x.incoming.map (fun m => { m with plan := some p }) })).takeSection k 1 b
        true)
  | .place p r => read r (fun b => if s.sectionIn k 6 then s else
      ((s.modSlot k (fun x => { x with incoming := x.incoming.map (fun m => { m with place := p }) })).takeSection k 6 b
        true).rehome k)
  | .done => s.finishLoad k
  | .broken => s.failLoad k .couchBreak
  | .stream .. | .quire .. => s

/-- QLOAD: a quire descriptor of deckle `d` has been read (R328, R330). -/
def execQload (d : Fin 16) (desc : HostRead) (s : State) : Out :=
  .next (s.withQuireDesc d.val desc 0x11 (fun b =>
    if s.quireBusy (dSlot b) then s.quireRefused d.val b 0 .slotBusy
    else s.modDeckle d.val (fun x => { x with qops := put {} x.qops (dSlot b) { op := 0x11, fn := d.val + 1, desc := b } })))

/-- QUNLOAD: the images of a quire index leave the deckle's pages unless a session selects it (R330). -/
def execQunload (d : Fin 16) (desc : HostRead) (s : State) : Out :=
  .next (s.withQuireDesc d.val desc 0x12 (fun b =>
    let k := dSlot b
    let idx := dDeckles b
    let used := (s.sessionsOf d.val).any (fun i =>
      let x := s.session i
      (x.state != .closed || x.openReq.isSome) && x.model == k && x.quire == idx)
    if s.quireBusy k then s.quireRefused d.val b 0 .slotBusy
    else if used then s.quireRefused d.val b 0 .quireInUse
    else
      let mine := fun q : Quire => q.deckle == d.val && q.slot == k && q.index == idx
      let s := s.release ((s.quires.filter mine).foldl (fun a q => a ++ q.pages) [])
      ({ s with quires := s.quires.filter (fun q => !mine q) }).quireStatus d.val b 0 0))

end Sys2Proof.Machine
end

