-- ==== Sys2Proof/Machine/HostPort.lean ====
section
/-! DEFINITION. Host-port events: link loss and return, function resets, power states, configuration writes, IDE
failure (R392, R394, R405, R408, R410). -/
namespace Sys2Proof.Machine

/-- The tick stops after the current tick's phase 5, as when RUN is cleared (R47). Between ticks it stops at once, and
the PF's records and messages that waited for a phase 5 are written (R406). -/
def State.stopTick (s : State) : State :=
  if !s.tick.running then { s with tick := { s.tick with starting := false } }
  else if s.tick.inTick then { s with tick := { s.tick with stopReq := true } }
  else { s with tick := { s.tick with running := false, stopReq := false, starting := false } }.flushPf.sendVectors

/-- The IDE stream in use leaves the Secure state. While IDE_REQ is 1 no further request is issued, the tick stops after
its phase 5, publication is held and IDE_FAIL is reported (R408). -/
def State.ideLost (s : State) : State :=
  let was := s.host.ideLink.2 || s.host.ideSel.2
  let s := { s with host := { s.host with ideLink := (s.host.ideLink.1, false), ideSel := (s.host.ideSel.1, false) } }
  if was ∧ s.reg .ideReq = 1 then
    ({ s with host := { s.host with stopIssue := true } }.report { err := .ideFail }).stopTick
  else s

/-- Both IDE streams are torn down, and their keys are destroyed (R423). -/
def State.dropIde (s : State) : State :=
  let s := s.ideLost
  { s with host := { s.host with ideLink := (false, false), ideSel := (false, false) } }

/-- PERST_N, a hot reset or a link loss (R410): every function's configuration, BARs, MSI-X tables and Bus Master Enable
reset, the tick stops after its phase 5, publication is held. DEDUCED: the IDE streams end with the configuration space
(entry 132). -/
def execHostLinkDown (perst : Bool) (s : State) : Out :=
  .next (if s.host.started then
    let s := { s with host := { s.host with linkUp := false, vfs := 0, funcs := []
                                            perstN := s.host.perstN && !perst } }
    let s := s.dropIde
    if s.power.phase = .up then (s.report { err := .hostLinkDown }).stopTick else s
  else { s with host := { s.host with perstN := s.host.perstN && !perst } })

/-- The link is up again; nothing restarts by itself (R410, R543). -/
def execHostLinkUp (s : State) : Out :=
  .next (if s.power.phase = .up ∧ s.host.started ∧ s.host.perstN then
    { s with host := { s.host with linkUp := true } }
  else s)

/-- A function's own registers return to reset. -/
def State.resetFunc (s : State) (n : Nat) : State :=
  { s with host := { s.host with funcs := put {} s.host.funcs n {} } }

/-- FLR of VF n + 1, which is enabled: deckle n's part waits for the next boundary (R410). `entropy` says whether new keys
can be drawn within 1 s (R425). -/
def execFlrVf (n : Fin 16) (entropy : Bool) (s : State) : Out :=
  .next (if s.host.linkUp ∧ n.val < s.host.vfs then
    (s.resetFunc (n.val + 1)).modDeckle n.val (fun k => { k with flrDue := some entropy })
  else s)

/-- FLR of the PF: an FLR of every VF and every deckle, with the tick stopped (R410). -/
def execFlrPf (entropy : Bool) (s : State) : Out :=
  .next (if s.host.linkUp then
    let s := { s with host := { s.host with funcs := [], vfs := 0 } }
    let s := allDeckles.foldl (fun s d => s.modDeckle d (fun k => { k with flrDue := some entropy })) s
    s.stopTick
  else s)

/-- A write of PowerState: D3hot on the PF only while the tick is stopped, on a VF at any time (R410). -/
def execD3hot (fn : Fin 17) (enter : Bool) (s : State) : Out :=
  .next (if s.host.linkUp ∧ fn.val ≤ s.host.vfs ∧ ¬(fn.val = 0 ∧ enter ∧ s.tick.running) then
    s.modFunc fn.val (fun f => { f with d3 := enter })
  else s)

/-- A configuration write that the module acts on. Before the host port has started it receives Retry Status (R530). A
function that is not enabled answers nothing, and VFs that end leave no registers (R394). -/
def execConfigurationWrite (fn : Fin 17) (field : ConfigField) (s : State) : Out :=
  .next (if s.host.started ∧ s.host.linkUp ∧ fn.val ≤ s.host.vfs then
    match field with
    | .busMaster on => s.modFunc fn.val (fun f => { f with busMaster := on })
    | .vfEnable n => if fn.val = 0 then
        { s with host := { s.host with vfs := n.val, funcs := s.host.funcs.filter (fun x => decide (x.1 ≤ n.val)) } }
      else s
    | .msixEnable on => s.modFunc fn.val (fun f => { f with msixEn := on })
    | .functionMask on => s.modFunc fn.val (fun f => { f with msixMask := on })
  else s)

def execIdeFail (s : State) : Out := .next s.ideLost

end Sys2Proof.Machine
end

