-- ==== Sys2Proof/Machine/Images.lean ====
section
/-! DEFINITION. Block images: header layout, verification, compatibility, the identity layers they feed, and the
directory (R419 to R422, R428, R465 to R474). -/
namespace Sys2Proof.Machine

/-- The kinds in the order of R420: HUBCFG, THERM, CAL, SCHED, VATSEQ, FELT, KRYTIK. -/
def bootOrder : List Nat := [1, 5, 4, 2, 3, 6, 7]

/-- Flash slot size of a kind in bytes (R465). -/
def slotSize (k : Nat) : Nat := (nth [0, 4, 16, 16, 8, 4, 8, 32] k) * 1048576

/-- The 352 header bytes that the signature and the image digest cover (R468). -/
def signedPart (b : Bytes) : Bytes := slice b 0 0x160

/-- The image digest: SHA-384 of header bytes 0x000 to 0x15F (R468). -/
def imageDigest (b : Bytes) : Bytes := sha384 (signedPart b)

/-- An image's body. -/
def imageBody (b : Bytes) : Bytes := (b.drop 512).take (field b 0x40 8)

/-- The header and reserved-field checks of IMG_FORMAT for an image of kind `k` (R468, R469). -/
def imageFormat (k : Nat) (b : Bytes) : Bool :=
  decide (512 ≤ b.length) && field b 0 4 == 0x47494D46 && field b 4 2 == 1 && field b 6 1 == k &&
  field b 7 1 / 4 == 0 && (k == 1 || !bit (field b 7 1) 0) &&
  (k == 1 || field b 0x14 4 == 0) && (k == 6 || field b 0x18 4 == 0) &&
  field b 0x1C 4 == 0 && field b 0x3C 4 == 0 && allZero (slice b 0xD8 136) && allZero (slice b 0x1C0 64) &&
  decide (512 + field b 0x40 8 ≤ slotSize k) && decide (512 + field b 0x40 8 ≤ b.length)

/-- The unrevoked VKEY slot whose digest equals that of a key (R420). -/
def State.vkeySlot (s : State) (key : Bytes) : Option Nat :=
  (List.range 4).find? (fun i => !bit s.sec.revoked i && s.sec.vkeys.getD i [] == sha384 key)

/-- What an image that passes holds. -/
def imageRec (k slot : Nat) (img : ImageIn) : ImgRec :=
  let b := img.bytes
  { kind := k, version := field b 8 8, level := field b 0x10 2, settings := field b 0x12 2
    ifLevel := field b 0x14 4, proto := field b 0x18 4, flags := field b 7 1
    revokes := if bit (field b 7 1) 0 then (field b 512 1) % 16 else 0
    req := (List.range 7).map (fun i => (field b (0x20 + 4 * i) 2, field b (0x22 + 4 * i) 2))
    digest := imageDigest b, keySlot := slot, therm := img.therm, cal := img.cal, classes := img.classes }

/-- Verify an image under R469, in the order of its table. -/
def State.verifyImage (s : State) (k : Nat) (img : ImageIn) : Except Err ImgRec :=
  let b := img.bytes
  if !imageFormat k b then .error .imgFormat
  else if sha384 (imageBody b) != slice b 0x48 48 then .error .imgDigest
  else match s.vkeySlot (slice b 0x78 96) with
    | none => .error .imgSig
    | some slot =>
      let r := imageRec k slot img
      if !ecdsaVerify (slice b 0x78 96) (sha384 (signedPart b)) (slice b 0x160 96) then .error .imgSig
      else if bit r.revokes slot then .error .imgSig
      else .ok r

/-- The active image of a kind. -/
def State.activeImage (s : State) (k : Nat) : ImgRec := get {} s.upd.active k

/-- The inactive on-chip slot of a kind. -/
def State.inactiveSlot (s : State) (k : Nat) : Option ChipSlot := get none s.upd.inactive k

/-- LEVEL of `a` lies within the entry of `b` for its kind (R471). -/
def accepts (b a : ImgRec) : Bool :=
  match b.req[a.kind - 1]? with
  | none => false
  | some (lo, hi) => decide (lo ≤ a.level) && decide (a.level ≤ hi)

/-- Two images of different kinds are compatible; one kind is compatible with itself (R471). -/
def compatible (a b : ImgRec) : Bool := a.kind == b.kind || (accepts a b && accepts b a)

/-- Every pair of a set is compatible. -/
def compatibleSet (l : List ImgRec) : Bool := l.all (fun a => l.all (fun b => compatible a b))

/-! ### Identity (R421, R422, R428) -/

/-- A private scalar from 48 derived bytes. DESIGN CHOICE (log entry 9): reduced into 1 to n − 1. -/
def scalarOf (b : Bytes) : Nat := beNat b % (p384N - 1) + 1

/-- DEVICE_ID: SHA-384 of the DeviceID public key. -/
def State.deviceId (s : State) : Bytes := sha384 (ecPublic s.sec.devId)

/-- The mask of owner key slots set. -/
def State.ownerMask (s : State) : Nat := s.sec.owners.foldl (fun m x => m + 2 ^ x.1) 0

/-- The fuse and debug block of R428. -/
def State.fuseBlock (s : State) : Bytes :=
  leBytes 1 s.sec.lifecycle ++ leBytes 1 (s.sec.revoked % 16 + 16 * s.sec.verifier) ++
  leBytes 1 (b2n s.sec.debugPerm + 2 * b2n s.sec.unlocked + 4 * b2n s.sec.scopeReg + 8 * b2n s.sec.scopeScan) ++
  leBytes 1 (b2n s.sec.reqSig + 2 * b2n s.sec.locked + 4 * s.reg .ideReq + 16 * s.ownerMask) ++
  leBytes 4 0 ++ leBytes 8 s.sec.serial ++ s.deviceId

/-- M of R421: the image digests in the order of R420, the ROM digest, the fuse and debug block. -/
def State.measureM (s : State) : Bytes :=
  sha384 ((bootOrder.map (fun k => (s.activeImage k).digest)).foldr (· ++ ·) [] ++ s.sec.romDigest ++ s.fuseBlock)

/-- Derive a new CDI and alias key pair (R421, R422), with 48 fresh random bytes. -/
def State.deriveAlias (s : State) : State :=
  let cdi := hmac384 (hkdf384 s.sec.uds [] (ascii "CDI") 48) s.measureM
  let (r, s) := s.draw
  { s with sec := { s.sec with
    cdi := cdi, alias_ := scalarOf (hkdf384 cdi (beBytes 48 r.toNat) (ascii "ALIAS") 48) } }

/-- Derive the per-boot keys from the fuses: DeviceID, record HMAC key (R421, R423). -/
def State.deriveDevice (s : State) : State :=
  { s with sec := { s.sec with
    devId := scalarOf (hkdf384 s.sec.uds s.sec.romDigest (ascii "DEVID") 48)
    recKey := hkdf384 s.sec.uds [] (ascii "MARGIN") 48 } }

/-! ### The directory (R467) -/

/-- A directory copy, when its magic and CRC match. -/
def parseDirectory (b : Bytes) : Option Directory :=
  if b.length = 4096 ∧ field b 0 4 = 0x52494446 ∧ crc32c (b.take 4092) = field b 4092 4 then
    some { seq := field b 8 8, slots := (List.range 7).map (fun i => field b (16 + i) 1) }
  else none

/-- The valid copy with the higher sequence number, with the copy's number. -/
def chooseDirectory : List (Option Directory) → Option (Directory × Nat)
  | [some a, some b] => if a.seq < b.seq then some (b, 1) else some (a, 0)
  | [some a, none] => some (a, 0)
  | [none, some b] => some (b, 1)
  | _ => none

/-- Boot slot of a kind in a directory. -/
def Directory.slotOf (d : Directory) (k : Nat) : Nat := nth d.slots (k - 1)

/-- Write the directory: to the other copy, with the sequence number plus 1; it is under way until DIRECTORY_WRITTEN. A
write that finds one under way follows it. -/
def State.writeDirectory (s : State) (slots : List Nat) : State :=
  let d : Directory := { seq := s.upd.dirUse.seq + 1, slots }
  { s with upd := { s.upd with
    dirUse := d
    dirBusy := if s.upd.dirBusy.isSome then s.upd.dirBusy else some d
    dirQueue := if s.upd.dirBusy.isSome then s.upd.dirQueue ++ [d] else s.upd.dirQueue } }

end Sys2Proof.Machine
end

