-- ==== Sys2Proof/Machine/Sessions.lean ====
section
/-! DEFINITION. The session commands and the swaps and checkpoints they start (R282 to R293, R311, R312, R509 to R512).
A command row carries out the oldest accepted command of its deckle (log entry 10). -/
namespace Sys2Proof.Machine

/-! ### Taking a command -/

/-- The oldest accepted command of deckle `d`, when it has that code, and the state without it; while the session
table is reloaded its commands wait (R505, entry 130). -/
def State.take (s : State) (d code : Nat) : Option (Cmd × State) :=
  match (s.deckle d).accepted with
  | c :: r =>
    if s.reloading (seqCode .sess) ∨ eCode c.entry ≠ code then none
    else some (c, s.modDeckle d (fun k => { k with accepted := r }))
  | [] => none

/-- The pause of session `i` has run out: the PAUSE completes TTL_EXPIRED, a waiting command ends CANCELLED, the swap
slots are freed and the session is CLOSED (R292). -/
def State.expire (s : State) (i : Nat) : State :=
  let x := s.session i
  if x.state == .paused && x.ttl == 0 && x.resumeReq.isNone then
    let s := s.endActive i 5 0 0 false 0
    let s := s.endWaiting i 2 0 0
    s.closeSession i
  else s

/-- Carry out the oldest accepted command of that code, in a session whose run-out pause has been ended first. -/
def State.command (s : State) (d code : Nat) (f : Cmd → Nat → State → State) : State :=
  match s.take d code with
  | none => s
  | some (c, s) => f c (eSession c.entry) (s.expire (eSession c.entry))

/-! ### OPEN (R254, R259, R265, R269, R287, R387, R512) -/

/-- What an OPEN opens: fields of the command, or of the checkpoint it names. -/
structure OpenSpec where
  seed     : Nat
  maxLen   : Nat
  fmt      : Nat
  priority : Nat
  quire    : Nat
  chunk    : Nat
  restart  : Bool
  deriving DecidableEq, Repr

/-- Fields of the command. -/
def openOfEntry (e : Bytes) : OpenSpec :=
  { seed := oSeed e, maxLen := oMaxLen e, fmt := oKvFmt e, priority := oPriority e, quire := oQuire e
    chunk := oChunkLog2 e, restart := false }

/-- Fields of a checkpoint header. -/
def openOfCkpt (h : Bytes) : OpenSpec :=
  { seed := ckSeed h, maxLen := ckMaxLen h, fmt := ckFmt h, priority := ckPriority h, quire := ckQuire h
    chunk := ckChunk h, restart := true }

/-- Why an OPEN is rejected before its region is sought (R287, R387), in the order of the rule's table. -/
def State.openBar (s : State) (d : Nat) (e : Bytes) (o : OpenSpec) : Option Err :=
  let k := oModel e
  let m := s.currentOf k
  if 16 ≤ k ∨ m.isNone ∨ !bit (s.slot k).mask d then some .badParam
  else if !s.quireBound d k o.quire (m.map (fun i => i.gen)) then some .quireBind
  else if 1 < o.fmt ∨ 7 < o.priority ∨ ¬(o.chunk = 0 ∨ (6 ≤ o.chunk ∧ o.chunk ≤ 14)) then some .badParam
  else if o.maxLen = 0 ∨ 4194304 < o.maxLen then some .badParam
  else if (s.slot k).unplaced then some .noPlace
  else if o.chunk ≠ 0 ∧ (s.reg .ringSize d ≤ oMember e ∨
      s.reg .ringNode (memberCopy d (oMember e)) ≠ s.reg .nodeId) then some .badParam
  else if o.chunk ≠ 0 ∧ 64 * 2 ^ o.chunk * s.reg .ringSize d < o.maxLen then some .noFit
  else none

/-- Positions this module holds of the session, and its region's pages. -/
def openSize (m : Image) (o : OpenSpec) (member : Nat) : Nat × Nat :=
  let n := localLen o.maxLen o.chunk member
  (n, regionPages m.layers m.kvHeads n (o.fmt == 1))

/-- The 256-byte header of a region (R256). -/
def regionHeader (d i first : Nat) (m : Image) (fmt n pages : Nat) : Bytes :=
  let b := blocksMax n (fmt == 1)
  leBytes 4 0x4B565247 ++ leBytes 2 1 ++ leBytes 1 fmt ++ leBytes 1 d ++ leBytes 4 i ++ leBytes 2 m.layers ++
  leBytes 2 m.kvHeads ++ leBytes 4 n ++ leBytes 4 b ++ leBytes 4 (blockOff m.layers m.kvHeads b) ++ leBytes 4 pages ++
  leBytes 4 first ++ leBytes 4 0 ++ leBytes 4 0 ++ leBytes 4 0 ++ leBytes 8 0 ++ List.replicate 200 0#8

/-- Try to give a waiting OPEN its region: it completes DONE with it, waits while victims swap out, or is REJECTED with
NO_FIT (R254, R259, R269, R285). -/
def State.tryOpen (s : State) (i : Nat) : State :=
  let x := s.session i
  match x.openReq with
  | none => s
  | some c =>
    let d := s.deckOf i
    let fail := fun (s : State) (e : Err) => { s with sessions := put {} s.sessions i {} }.reject d c e
    if s.reloading (seqCode .kv) then s
    else match s.currentOf x.model with
    | none => fail s .badParam
    | some m =>
      let n := localLen x.maxLen x.chunkLog2 x.member
      let pages := regionPages m.layers m.kvHeads n x.int4
      if 1048576 < n ∨ stackPages < pages then fail s .noFit
      else match s.makeRoom d pages with
        | (.wait, s) => s
        | (.noFit, s) => fail s .noFit
        | (.ok, s) => match s.placeRegion d pages with
          | none => fail s .noFit
          | some (st, k, s) =>
            let s := s.setRegion i st k pages
            let s := s.modSession i (fun x => { x with openReq := none, state := .opened, resident := true
                                                       kvAddr := k * 65536 })
            let s := s.writeMem (k * 65536) (regionHeader d i x.firstPos m (b2n x.int4) n pages)
            s.finishNow d c 1 0

/-- Begin to open session `i`: its descriptor, then its region. -/
def State.beginOpen (s : State) (d i : Nat) (c : Cmd) (o : OpenSpec) : State :=
  let e := c.entry
  let x : Session :=
    { openReq := some c, int4 := o.fmt == 1, ring := o.chunk != 0, chunkLog2 := o.chunk, member := oMember e
      restarted := o.restart, priority := o.priority, quire := o.quire, model := oModel e, seed := o.seed
      maxLen := o.maxLen, histAddr := oHistAddr e, firstPos := firstPosOf o.chunk (oMember e) }
  let s := s.dropSnap d i
  ({ s with sessions := put {} s.sessions i x }).tryOpen i

/-- A checkpoint header is as R512 asks. -/
def ckptOk (h : Bytes) : Bool :=
  ckMagic h == 0x4B435043 && ckVersion h == 1 && ckFlags h / 32 == 0 && allZero (slice h 0xE0 24) &&
  field h 0xFC 4 == 0 && ckHeadCrc h == crc32c (h.take 0xF8) && ckHistOff h == 0x100 &&
  ckHistCnt h == ckCommit h + ckFlags h % 2

/-- OPEN from a checkpoint whose header is `h` (R512): from the snapshot entry when it fits, with a region otherwise.
`history` is the pending token HISTORY[C]. -/
def State.openCkpt (s : State) (d i : Nat) (c : Cmd) (h : Bytes) (history : HostRead) : State :=
  let e := c.entry
  let o := openOfCkpt h
  let snap := get {} (s.deckle d).snaps i
  let pend := ckFlags h % 2 == 1
  let cur := s.currentOf (oModel e)
  let useSnap := bit (ckFlags h) 1 && snap.seq != 0 && snap.seq == ckSnapSeq h &&
    (cur.map (fun m => m.gen)) == some (ckGen h)
  if useSnap then
    match history, pend with
    | .fail, true => s.reject d c .deckHostRead
    | _, _ =>
      let tok := match history with
        | .data b => field b 0 4
        | _ => 0
      let kv := match cur with
        | some m => (openSize m o (oMember e)).2
        | none => 0
      let x : Session :=
        { state := .swapped, int4 := o.fmt == 1, restarted := true, priority := o.priority, quire := o.quire
          model := oModel e, seed := o.seed, maxLen := o.maxLen, histAddr := oHistAddr e, commitLen := ckCommit h
          hasPending := pend, pendingTok := if pend then tok else 0, kvPages := kv, swapSeq := snap.seq
          image := some snap, gen := ckGen h, genDigest := slice h 0x18 48 }
      let s := s.modDeckle d (fun k => { k with snaps := put {} k.snaps i {} })
      { s with sessions := put {} s.sessions i x }.finishNow d c 1 0
  else s.beginOpen d i c o

/-- OPEN (R287, R512). `header` is the checkpoint header, `history` HISTORY[C], where the command names a checkpoint; the
command waits for a read that is late. -/
def execOpenSession (d : Fin 16) (header history : HostRead) (s : State) : Out :=
  .next (match s.take d.val 1 with
    | none => s
    | some (c, t) =>
      let i := eSession c.entry
      let t := t.expire i
      let x := t.session i
      if x.state ≠ .closed ∨ x.openReq.isSome then t.reject d.val c .sessState
      else if oCkptAddr c.entry = 0 then
        match t.openBar d.val c.entry (openOfEntry c.entry) with
        | some e => t.reject d.val c e
        | none => t.beginOpen d.val i c (openOfEntry c.entry)
      else match header with
        | .late => s
        | .fail => t.reject d.val c .deckHostRead
        | .data h =>
          if !ckptOk h then t.reject d.val c .ckptFormat
          else if ckFlags h % 2 = 1 ∧ readLate history then s
          else match t.openBar d.val c.entry (openOfCkpt h) with
            | some e => t.reject d.val c e
            | none => t.openCkpt d.val i c h history)

/-! ### PREFILL and GENERATE (R286, R288, R289) -/

/-- Put a work request in its slot: it becomes active, or waits behind the active one (R286). -/
def State.enqueue (s : State) (i : Nat) (r : Request) : State :=
  let x := s.session i
  if x.active.isNone ∧ (x.waiting.map (fun w => w.kind == .checkpoint)).getD true ∧ x.swapping ≠ some .outPause then
    s.startRequest i r s.tail
  else s.modSession i (fun x => { x with waiting := some r })

/-- Both request slots are occupied (R286). DESIGN CHOICE: a PREFILL or GENERATE that waits for the boundary of a CANCEL,
PAUSE or CLOSE holds the first slot too, which it takes next (entry 114). -/
def Session.full (x : Session) : Bool :=
  (x.active.isSome && x.waiting.isSome) || (x.waiting.map (fun r => r.kind != .checkpoint)).getD false

/-- What bars a work command of a session whatever it is: no image, no place, invalid KV (R276, R289, R344, R603). -/
def State.workBar (s : State) (i : Nat) : Option Err :=
  let x := s.session i
  if x.full then some .sessBusy
  else if (s.currentOf x.model).isNone then some .badParam
  else if x.kvInvalid then some .kvInvalid
  else if (s.slot x.model).unplaced then some .noPlace
  else none

/-- The 32-bit words of a byte string. -/
def words32 (n : Nat) (b : Bytes) : List Nat := (List.range n).map (fun j => field b (4 * j) 4)

/-- PREFILL (R288). `tokens` is what the read of TOKENS_ADDR returned. -/
def execPrefill (d : Fin 16) (tokens : HostRead) (s : State) : Out :=
  .next (if readLate tokens then s else s.command d.val 2 (fun c i s =>
    let x := s.session i
    let n := pCount c.entry
    if ¬(x.state = .opened ∨ x.state = .decode ∨ x.state = .swapped) then s.reject d.val c .sessState
    else match s.workBar i with
      | some e => s.reject d.val c e
      | none =>
        if n = 0 then s.reject d.val c .badParam
        else match tokens with
          | .data b =>
            let toks := words32 n b
            let vocab := ((s.currentOf x.model).map (fun m => m.vocab)).getD 0
            if toks.any (fun t => decide (vocab ≤ t)) then s.reject d.val c .badToken
            else if x.maxLen < x.commitLen + n then s.reject d.val c .full
            else s.enqueue i { kind := .prefill, cmd := c, tokens := toks, remain := n }
          | _ => s.reject d.val c .deckHostRead))

/-- The range checks of a GENERATE (R284, R289). -/
def State.generateBad (s : State) (i : Nat) (e : Bytes) : Bool :=
  let heads := ((s.currentOf (s.session i).model).map (fun m => m.extraHeads)).getD 0
  let inv := (gInvT e).toNat
  let top := (gTopP e).toNat
  inv == 0 || decide (0x7F800000 ≤ inv) || top == 0 || decide (0x3F800000 < top) || decide (1024 < gTopK e) ||
  decide (heads < gDrafts e) || decide (gRingLog2 e < 4) || decide (20 < gRingLog2 e) || gMaxTokens e == 0

/-- GENERATE (R289). -/
def execGenerate (d : Fin 16) (s : State) : Out :=
  .next (s.command d.val 3 (fun c i s =>
    let x := s.session i
    let e := c.entry
    if ¬(x.state = .decode ∨ x.state = .swapped) then s.reject d.val c .sessState
    else match s.workBar i with
      | some r => s.reject d.val c r
      | none =>
        if s.generateBad i e then s.reject d.val c .badParam
        else if !x.hasPending then s.reject d.val c .noInput
        else if x.maxLen ≤ x.commitLen then s.reject d.val c .full
        else s.enqueue i { kind := .generate, cmd := c, remain := gMaxTokens e, credit := 2 ^ gRingLog2 e }))

/-! ### PAUSE, RESUME, CANCEL, CLOSE, SET_QUIRE (R291 to R293) -/

/-- PAUSE: it takes effect at the boundary of the next tick. -/
def execPause (d : Fin 16) (s : State) : Out :=
  .next (s.command d.val 4 (fun c i s =>
    let x := s.session i
    if ¬(x.state = .opened ∨ x.state = .decode ∨ x.state = .swapped) ∨ x.pausePending.isSome ∨
        (x.active.map (fun r => r.kind == .pause)).getD false then s.reject d.val c .sessState
    else if x.ring then s.reject d.val c .badParam
    else s.modSession i (fun x => { x with pausePending := some c, cancelAt := s.tick.now + 1 })))

/-- RESUME: the count stops and the swap-in begins in the allocation phase. -/
def execResume (d : Fin 16) (s : State) : Out :=
  .next (s.command d.val 5 (fun c i s =>
    let x := s.session i
    if x.state ≠ .paused then s.reject d.val c .sessState
    else if x.kvInvalid then s.reject d.val c .kvInvalid
    else if x.resumeReq.isSome then s.reject d.val c .sessBusy
    else s.modSession i (fun x => { x with resumeReq := some c })))

/-- The active or waiting request that a CANCEL can end. -/
def Session.cancellable (x : Session) : List Request :=
  (x.active.filter (fun r => r.kind != .pause)).toList ++ x.waiting.toList

/-- CANCEL: CANCEL_PENDING is set and the CANCEL completes DONE at the tail of this tick. -/
def execCancel (d : Fin 16) (s : State) : Out :=
  .next (s.command d.val 6 (fun c i s =>
    let x := s.session i
    let tag := cancelTag c.entry
    if x.state = .closed ∨ x.state = .paused then s.reject d.val c .sessState
    else if x.cancelPending then s.finishNow d.val c 1 0
    else if x.cancellable.isEmpty then s.reject d.val c .notActive
    else if tag ≠ 0 ∧ !x.cancellable.any (fun r => eTag r.cmd.entry == tag) then s.reject d.val c .tagMismatch
    else (s.modSession i (fun x => { x with cancelPending := true, cancelAt := s.tick.now + 1 })).finishNow d.val c 1 0))

/-- CLOSE: it takes effect at the boundary of the next tick. -/
def execClose (d : Fin 16) (s : State) : Out :=
  .next (s.command d.val 8 (fun c i s =>
    if (s.session i).state = .closed then s.reject d.val c .sessState
    else s.modSession i (fun x => { x with closePending := x.closePending ++ [c], cancelAt := s.tick.now + 1 })))

/-- SET_QUIRE: steps admitted from now on use the quire. -/
def execSetQuire (d : Fin 16) (s : State) : Out :=
  .next (s.command d.val 9 (fun c i s =>
    let x := s.session i
    let q := sqQuire c.entry
    if x.state = .closed then s.reject d.val c .sessState
    else if x.kvInvalid then s.reject d.val c .kvInvalid
    else if !s.quireBound d.val x.model q (s.nextGen i) then s.reject d.val c .quireBind
    else (s.modSession i (fun x => { x with quire := q })).finishNow d.val c 1 0))

/-! ### Their effect at the next boundary (R37, R292, R293) -/

/-- The requests of a session end as a CANCEL ends them: the active one CANCELLED, or DONE with CANCEL_LATE when its
last token was produced in the tick before; the waiting one CANCELLED. A PAUSE already active stays, unless the session
is closing. -/
def State.cancelRequests (s : State) (i : Nat) (closing : Bool) : State :=
  let x := s.session i
  let s := match x.active with
    | none => s
    | some r =>
      if r.kind = ReqKind.pause ∧ !closing then s
      else s.endActive i 2 0 0 false 0
  let snap := (s.session i).swapping == some .snapshot
  let s := s.endWaiting i 2 0 1
  if snap then (s.dropImage i).modSession i (fun x => { x with swapping := none, swapLeft := 0, swapDone := false }) else s

/-- The part of action 4 of R34 that concerns one session: an accepted CANCEL, PAUSE or CLOSE takes effect. -/
def State.stopSession (s : State) (i : Nat) : State :=
  let x := s.session i
  let d := s.deckOf i
  if x.closePending ≠ [] then
    let s := s.cancelRequests i true
    let s := match x.resumeReq with
      | some c => s.finish d c 2 0 0 false false 0 1
      | none => s
    let s := match x.pausePending with
      | some c => s.finish d c 2 0 0 false false 0 2
      | none => s
    let s := x.closePending.foldl (fun s c => s.finish d c 1 0 0 false false 0 3) s
    s.closeSession i
  else
    let s := if x.cancelPending ∨ x.pausePending.isSome then s.cancelRequests i false else s
    let s := s.modSession i (fun x => { x with cancelPending := false })
    match x.pausePending with
    | none => s.startWaiting i 1
    | some c =>
      let r : Request := { kind := .pause, cmd := c }
      let x := s.session i
      if x.state == .swapped && x.swapping.isNone then
        s.modSession i (fun x => { x with state := .paused, active := some r, ttl := pauseTtl c.entry
                                          pausePending := none })
      else if x.swapping.isSome then s
      else match s.beginSwapOut i .outPause with
        | some s => s.modSession i (fun x => { x with active := some r, ttl := pauseTtl c.entry, pausePending := none })
        | none => (s.modSession i (fun x => { x with pausePending := none })).reject d c .noFit

/-- Action 4 of R34: the times-to-live of paused sessions count down, and the commands accepted at the boundary before
take effect, session by session. -/
def State.stopSessions (s : State) : State :=
  (s.sessions.map (fun x => x.1)).foldl (fun s i =>
    let x := s.session i
    let s := if x.state == .paused && x.resumeReq.isNone && x.swapping.isNone then
        s.modSession i (fun x => { x with ttl := x.ttl - 1 }) else s
    if x.stopping && decide (x.cancelAt ≤ s.tick.now) then s.stopSession i else s) s

/-- TTL_EXPIRED: the count of the session has run out. -/
def execTtlExpired (i : Nat) (s : State) : Out := .next (s.expire i)

/-! ### Swaps (R273, R274) -/

/-- The directory read-back of a swap-out has returned: the region is released at the next boundary. -/
def execSwapOutComplete (i : Nat) (readBack : HostRead) (s : State) : Out :=
  let x := s.session i
  .next (if (x.swapping = some .outPressure ∨ x.swapping = some .outPause) ∧ x.swapLeft = 0 ∧ !readLate readBack then
    s.modSession i (fun x => { x with swapDone := true
                                      image := x.image.map (fun m => { m with counters := [], tags := [] }) })
  else s)

/-- The bytes of reads, none while one is late; a failed read gives none of its own. -/
def readAll : List HostRead → Option (Option (List Bytes))
  | [] => some (some [])
  | .late :: _ => none
  | .fail :: r => (readAll r).map (fun _ => none)
  | .data b :: r => (readAll r).map (fun o => o.map (fun l => b :: l))

/-- Every slot of a swap-in has been read: the operand holds what the reads of the image's host slots returned, data
slots in page order, then the directory slots. -/
def execSwapInComplete (i : Nat) (slots : List HostRead) (s : State) : Out :=
  let x := s.session i
  .next (if x.swapping = some .swapIn ∧ x.swapLeft = 0 ∧ !x.swapDone then
    match readAll slots with
    | none => s
    | some none => s.swapInFailed i .deckHostRead
    | some (some bs) => s.swapInDone i bs
  else s)

/-! ### CHECKPOINT (R290, R509 to R511) -/

/-- CHECKPOINT: the request waits for the session's next step boundary. -/
def execCheckpoint (d : Fin 16) (s : State) : Out :=
  .next (s.command d.val 7 (fun c i s =>
    let x := s.session i
    if x.state = .closed then s.reject d.val c .sessState
    else if x.kvInvalid then s.reject d.val c .kvInvalid
    else if x.waiting.isSome then s.reject d.val c .sessBusy
    else s.modSession i (fun x => { x with waiting := some { kind := .checkpoint, cmd := c } })))

/-- The end of the positions that this module holds of a session: its chunk's end in a ring (R265). -/
def Session.chunkEnd (x : Session) : Nat := if x.ring then x.firstPos + 64 * 2 ^ x.chunkLog2 else x.maxLen

/-- The session's next position lies in the part that this module holds: the whole session, or its chunk of a ring. -/
def Session.inChunk (x : Session) : Bool := !x.ring || (decide (x.firstPos ≤ x.len) && decide (x.len < x.chunkEnd))

/-- This module is the tail of a ring session: it holds position COMMIT_LEN (R267). -/
def Session.isTail (x : Session) : Bool := x.inChunk

/-- The header of a checkpoint of session `i` (R509). -/
def State.ckptHeader (s : State) (i snapSeq : Nat) (history : Bytes) : Bytes :=
  let x := s.session i
  let d := s.deckOf i
  let gen : Option Request := match x.active with
    | some r => if r.kind = ReqKind.generate then some r else none
    | none => none
  let pre := (x.active.map (fun r => r.kind == .prefill)).getD false
  let flags := b2n x.hasPending + 2 * b2n (snapSeq != 0) + 4 * b2n gen.isSome + 8 * b2n pre + 16 * b2n x.ring
  let remain := match x.active with
    | some r => if r.kind == .pause then 0 else r.remain
    | none => 0
  let cnt := x.commitLen + b2n x.hasPending
  let h := leBytes 4 0x4B435043 ++ leBytes 2 1 ++ leBytes 2 flags ++ leBytes 8 x.seed ++ leBytes 8 x.gen ++
    slice x.genDigest 0 48 ++ leBytes 4 x.maxLen ++ leBytes 4 x.commitLen ++ leBytes 4 i ++ leBytes 1 d ++
    leBytes 1 (b2n x.int4) ++ leBytes 1 x.priority ++ leBytes 1 x.chunkLog2 ++ leBytes 2 x.quire ++ leBytes 2 x.model ++
    leBytes 4 (s.activeIfLevel) ++ leBytes 8 s.tick.now ++ leBytes 8 snapSeq ++
    (match gen with
      | some r => slice r.cmd.entry 0x10 48
      | none => List.replicate 48 0#8) ++
    leBytes 4 remain ++ leBytes 4 ((gen.map (fun r => r.emitted)).getD 0) ++ leBytes 4 0x100 ++ leBytes 4 cnt ++
    sha384 history ++ List.replicate 24 0#8
  h ++ leBytes 4 (crc32c h) ++ leBytes 4 0

/-- CHECKPOINT_WRITE: at a step boundary the history, then the header are written, and with KV_SNAPSHOT a snapshot
begins (R290, R510, R511). `log` is what the read of the token log returned. -/
def execCheckpointWrite (d : Fin 16) (i : Nat) (log : HostRead) (s : State) : Out :=
  let x := s.session i
  .next (match x.waiting with
    | none => s
    | some r =>
      if r.kind ≠ .checkpoint ∨ r.ending ∨ s.ownerOf i ≠ some d.val ∨ s.inStep i ∨ x.swapping.isSome ∨
          x.commitDue ≠ 0 ∨ readLate log ∨
          !s.mayIssue (s.fnOf d.val) then s
      else
        let c := r.cmd
        let snap := cpSnapshot c.entry
        let cnt := x.commitLen + b2n x.hasPending
        let no := fun e => (s.modSession i (fun x => { x with waiting := none })).reject d.val c e
        if snap ∧ (x.state = .paused ∨ x.state = .swapped) then no .sessState
        else if snap ∧ x.ring then no .badParam
        else if !x.isTail then no .sessState
        else if cpSize c.entry < 256 + 4 * cnt then no .badParam
        else match log with
          | .data b =>
            let hist := slice b 0 (4 * cnt)
            let seq := if snap then x.swapSeq + 1 else 0
            match (if snap then s.beginSwapOut i .snapshot else some s) with
            | none => no .noFit
            | some s =>
              let head := s.ckptHeader i seq hist
              let s := s.modSession i (fun x => { x with waiting := some { r with ending := true } })
              let s := s.post (s.fnOf d.val) (cpAddr c.entry + 0x100) hist true
              s.post (s.fnOf d.val) (cpAddr c.entry) head true
          | _ => no .deckHostRead)

/-- CHECKPOINT_WRITTEN: the writes have finished, and with KV_SNAPSHOT the directory read-back has returned; the snapshot
entry of the index is the new one and the CHECKPOINT completes DONE (R511). -/
def execCheckpointWritten (i : Nat) (s : State) : Out :=
  let x := s.session i
  let d := s.deckOf i
  .next (match x.waiting with
    | none => s
    | some r =>
      if r.kind ≠ .checkpoint ∨ !r.ending ∨ (x.swapping = some .snapshot ∧ x.swapLeft ≠ 0) then s
      else
        let s := match x.swapping, x.image with
          | some .snapshot, some m =>
            let s := s.dropSnap d i
            let s := s.modDeckle d (fun k => { k with snaps := put {} k.snaps i { m with counters := [], tags := [] } })
            s.modSession i (fun x => { x with swapping := none, image := none })
          | _, _ => s
        (s.modSession i (fun x => { x with waiting := none })).finishNow d r.cmd 1 0)

/-! ### Failed host reads of these commands (R411) -/

/-- The prompt read of deckle `d`'s PREFILL failed: it completes REJECTED with HOST_READ. -/
def State.promptFailed (s : State) (d i : Nat) : State :=
  s.command d 2 (fun c j s => if i = j then s.reject d c .deckHostRead else s)

end Sys2Proof.Machine
end

