-- ==== Sys2Proof/Machine/Update.lean ====
section
/-! DEFINITION. Field update: write sessions, verification, activation and hand-over, PLDM firmware update (R465 to
R490). -/
namespace Sys2Proof.Machine

/-! ### Refusal and ends (R475, R478, R488, R489) -/

/-- UPD_STATUS takes a result, and PF vector 1 is raised; an error code is reported as well (R489). -/
def State.updResult (s : State) (e : Option Err) (cause detail : Nat) : State :=
  match e with
  | none => ({ s with upd := { s.upd with result := 0, cause := 0 } }).pfVector 1
  | some e =>
    let s := { s with upd := { s.upd with result := errCode e, cause } }
    s.route e 0 1 none { code := errCode e, isModule := true, page := 3, tick := s.tick.now, detail }

/-- A flash slot of a kind. -/
def State.flashSlot (s : State) (k n : Nat) : FlashSlot := get {} s.upd.flash (k * 2 + n)

/-- Change a flash slot. -/
def State.setFlash (s : State) (k n : Nat) (f : FlashSlot) : State :=
  { s with upd := { s.upd with flash := put {} s.upd.flash (k * 2 + n) f } }

/-- The flash slot of a kind that does not hold its active image. -/
def State.spareFlash (s : State) (k : Nat) : Nat := 1 - (s.activeImage k).fslot

/-- An image write is running. -/
def Update.writing (u : Update) : Bool := u.state == .receiving || u.state == .verifying || u.state == .paused

/-- The write in hand ends INVALID with a result; a PF session ends with it, a PLDM session goes back to READY XFER. -/
def State.writeFails (s : State) (e : Option Err) (cause : Nat) : State :=
  let k := s.upd.kind
  let s := s.setFlash k (s.spareFlash k) { state := .invalid }
  let s := { s with upd := { s.upd with state := .idle, session := s.upd.pldm, buffer := []
                                        pldmState := if s.upd.pldm then 2 else 0 } }
  s.updResult e cause k

/-! ### Writing (R476, R479) -/

/-- Begin a write of kind `k`: its flash slot that holds no active image is erased and enters WRITING. -/
def State.beginWrite (s : State) (k len : Nat) (expect : Bytes) : State :=
  let s := s.setFlash k (s.spareFlash k) { state := .writing }
  { s with upd := { s.upd with state := .receiving, session := true, kind := k, len, expect, bytes := 0, buffer := []
                               result := 0, cause := 0 } }

/-- UPD_EXPECT as a digest: byte 8w + i in bits [8i + 7:8i] of word w. -/
def State.updExpect (s : State) : Bytes :=
  leBytes 8 (s.reg .updExp0) ++ leBytes 8 (s.reg .updExp1) ++ leBytes 8 (s.reg .updExp2) ++ leBytes 8 (s.reg .updExp3) ++
  leBytes 8 (s.reg .updExp4) ++ leBytes 8 (s.reg .updExp5)

/-- The OP field returns to 0 once its command is taken (R562). -/
def State.cmdTaken (s : State) : State := s.setReg .imgOp 0 0

/-- A write that is transferring and has all its bytes goes on to verification. -/
def State.allBytes (s : State) : State :=
  if s.upd.state = .receiving ∧ s.upd.len ≤ s.upd.bytes then
    { s with upd := { s.upd with state := .verifying, buffer := [] } }
  else s

/-- WRITE: UPD_CMD has committed with OP WRITE (R475, R476, R478). -/
def execWrite (s : State) : Out :=
  .next (if s.reg .imgOp ≠ 1 then s
  else
    let k := s.reg .imgKind
    let t := s.cmdTaken
    if s.upd.session ∨ s.upd.state ≠ .idle then t.updResult (some .updBusy) 0 k
    else if s.updCause ≠ 0 then t.updResult (some .updRefused) s.updCause k
    else if k = 0 ∨ 7 < k then t.updResult (some .imgFormat) 0 k
    else (t.beginWrite k (s.reg .updLen) s.updExpect).allBytes)

/-- Bytes of the write buffer: 1 MiB. -/
def updBuffer : Nat := 1048576

/-- UPD_WIN: 8 bytes are appended to the buffer, of which `drained` have been programmed since the write before; a full
buffer drops them and fails the write (R476). While the write is paused nothing is programmed (R479). -/
def execUpdWin (data : BitVec 64) (drained : Nat) (flashOk : Bool) (s : State) : Out :=
  let u := s.upd
  .next (if ¬(u.state = .receiving ∨ u.state = .paused) ∨ u.pldm then s
  else if u.state = .receiving ∧ !flashOk then s.writeFails (some .flashWrite) 0
  else
    let buf := if u.state = .paused then u.buffer else u.buffer.drop drained
    if updBuffer < buf.length + 8 then s.writeFails (some .updOverrun) 0
    else
      ({ s with upd := { u with buffer := buf ++ leBytes 8 data.toNat
                                bytes := min u.len (u.bytes + 8) } }).allBytes)

/-- UPD_FREE. -/
def State.updFree (s : State) : Nat := updBuffer - s.upd.buffer.length

/-- OWNER_LOCK set during a write ends it, and its slot is INVALID (R479). -/
def State.lockEnds (s : State) : State :=
  if s.upd.writing ∧ s.sec.locked then s.writeFails (some .updRefused) 4 else s

/-- A transferring write pauses while a cause other than OWNER_LOCK holds, and resumes when all clear; OWNER_LOCK ends it
(R479). -/
def State.updPause (s : State) : State :=
  if s.sec.locked then s.lockEnds
  else if s.upd.state = .receiving ∧ s.updCause ≠ 0 then
    { s with upd := { s.upd with state := .paused, cause := s.updCause } }
  else if s.upd.state = .paused ∧ s.updCause = 0 then
    ({ s with upd := { s.upd with state := .receiving, cause := 0 } }).allBytes
  else s

/-- IMAGE_VERIFY_DONE: the slot has been read back, as the operand holds it, and is verified under R469; a passing image
is VALID in flash and STAGED on chip (R476). -/
def execImageVerifyDone (img : ImageIn) (readBack : Bool) (s : State) : Out :=
  .next (if s.upd.state ≠ .verifying then s
  else
    let k := s.upd.kind
    let img := { img with bytes := img.bytes.take s.upd.len }
    if !readBack then s.writeFails (some .flashWrite) 0
    else if slotSize k < s.upd.len then s.writeFails (some .imgFormat) 0
    else match s.verifyImage k img with
      | .error e => s.writeFails (some e) 0
      | .ok r =>
        if !allZero s.upd.expect ∧ r.digest ≠ s.upd.expect then s.writeFails (some .imgDigest) 0
        else
          let n := s.spareFlash k
          let r := { r with fslot := n }
          let s := s.setFlash k n { state := .valid, image := some r }
          let s := { s with upd := { s.upd with
            inactive := put none s.upd.inactive k (some { staged := true, image := r })
            state := .idle, session := s.upd.pldm, pldmState := if s.upd.pldm then 2 else 0 } }
          s.updResult none 0 k)

/-! ### Activation (R480 to R487) -/

/-- The inactive images of some kinds, all there. -/
def State.named (s : State) (ks : List Nat) : Option (List ImgRec) :=
  let l := ks.filterMap (fun k => (s.inactiveSlot k).map (fun c => c.image))
  if l.length = ks.length then some l else none

/-- The condition of R483 fails for an image. -/
def State.needsStop (s : State) (i : ImgRec) : Bool :=
  (i.kind == 1 && i.ifLevel != s.activeIfLevel &&
    (s.tick.running || s.slots.any (fun x => x.2.current.isSome || x.2.retiring.isSome || x.2.incoming.isSome))) ||
  (bit i.flags 1 && s.tick.running) ||
  (i.kind == 6 && i.proto != (s.activeImage 6).proto && s.ports.any (fun x => x.2.state == .up))

/-- The order of R480 over the kinds left, in `fuel` rounds. -/
def fixOrder (cand : Nat → Option ImgRec) : Nat → List Nat → SMap ImgRec → List Nat → Option (List Nat)
  | 0, left, _, acc => if left.isEmpty then some acc else none
  | fuel + 1, left, cur, acc =>
    if left.isEmpty then some acc
    else
      let fits := fun k => match cand k with
        | none => false
        | some i => cur.all (fun x => x.1 == k || compatible i x.2)
      match (bootOrder.filter left.contains).find? fits with
      | none => none
      | some k => match cand k with
        | none => none
        | some i => fixOrder cand fuel (left.filter (· != k)) (ins cur k i) (acc ++ [k])

/-- Start the activation of some kinds, or refuse it (R478, R480, R483). -/
def State.beginActivate (s : State) (ks : List Nat) : State :=
  if s.updCause ≠ 0 then s.updResult (some .updRefused) s.updCause 0
  else match s.named ks with
    | none => s.updResult (some .notStaged) 0 0
    | some l =>
      if l.any s.needsStop then s.updResult (some .needsStop) 0 0
      else match fixOrder (fun k => (s.inactiveSlot k).map (fun c => c.image)) 8 ks s.upd.active [] with
        | none => s.updResult (some .noOrder) 0 0
        | some order => { s with upd := { s.upd with state := .activating, session := true, order, cause := 0 } }

/-- ACTIVATE: UPD_CMD has committed with OP ACTIVATE; the first hand-over comes at the next boundary. -/
def execActivate (s : State) : Out :=
  .next (if s.reg .imgOp ≠ 2 then s
  else
    let t := s.cmdTaken
    if s.upd.session ∨ s.upd.state ≠ .idle then t.updResult (some .updBusy) 0 0
    else t.beginActivate ((maskBits 7 (s.reg .imgMask)).map (· + 1)))

/-- The update session ends. -/
def State.endUpdate (s : State) : State :=
  { s with upd := { s.upd with state := .idle, order := [], session := false, pldm := false, pldmState := 0 } }

/-- UPD_CANCEL: OP CANCEL ends a write as INVALID, or an activation after its hand-over in progress, and with it the session
(R475, R488). -/
def State.updCancel (s : State) : State :=
  if s.upd.writing then (s.writeFails none 0).endUpdate
  else if s.upd.state = .activating then s.endUpdate.updResult (some .actDeferred) 0 0
  else if s.upd.session then s.endUpdate
  else s

def execUpdCancel (s : State) : Out := .next (if s.reg .imgOp ≠ 3 then s else s.cmdTaken.updCancel)

/-- The settings pages of a kind (R465). -/
def settingsPages (k : Nat) : List Nat :=
  if k = 1 then [0x01, 0x04, 0x05, 0x0A, 0x0C, 0x0D, 0x0E, 0x0F, 0x12]
  else if k = 2 then [0x0B, 0x02]
  else if k = 3 then [0x13, 0x14, 0x15, 0x17]
  else if k = 4 then [0x08, 0x16, 0x09]
  else if k = 5 then [0x06, 0x07]
  else if k = 6 then [0x11]
  else [0x10]

/-- The fields of some pages that `f` accepts return to reset, in every copy. -/
def State.resetFields (s : State) (pages : List Nat) (f : Fld → Bool) : State :=
  let codes := (allFlds.filter (fun x => pages.contains (fldInfo x).kind && f x)).map fldCode
  { s with regs := s.regs.filter (fun x => !codes.contains (x.1 / 2 ^ 24)) }

/-- Kind of a page index. -/
def kindOfPage (p : Nat) : Nat := ((pageOf p).map (fun x => x.1)).getD 0

/-- An image with RWL_RESET returns the RWL fields of its pages to reset (R468, R483), TICK_PERIOD and the REFBUF_EN bits
among them. -/
def State.resetLocked (s : State) (k : Nat) : State :=
  let s := s.resetFields (settingsPages k) (fun x => (fldInfo x).acc == .rwl)
  if k = 2 then { s with tick := { s.tick with period := 12500, periodNext := none } }
  else if k = 4 then allVats.foldl (fun s v => s.modVat v (fun x => { x with refEn := false, refReady := false })) s
  else s

/-- The settings of a kind's pages return to reset: RW and RWT fields but PWR_LIMIT and COOLANT_IN; shadows pending there
are discarded (R485). DESIGN CHOICE: PORT_EN and a page's run bits are kept, since R482 carries link sessions and states
over (entry 93). -/
def State.resetSettings (s : State) (k : Nat) : State :=
  let ps := settingsPages k
  let s := s.resetFields ps (fun x => x != .pwrLimit && x != .coolantIn && (fldInfo x).acc != .rwl)
  let here := fun p => ps.contains (kindOfPage p)
  let s := { s with
    shadows := s.shadows.filter (fun w => !here w.page)
    errs := { s.errs with pages := (s.errs.pages.map (fun x => if here x.1 then
        (x.1, { x.2 with mask := 1, inj := 0, latchEn := false, latchTick := 0 }) else x)).filter (fun x => x.2 != {}) } }
  let s := if k = 1 then { s with power := { s.power with autoReset := false } } else s
  if k = 3 then allVats.foldl (fun s v => s.modVat v (fun x => { x with scrAddr := 0 })) s
  else if k = 6 then allPorts.foldl (fun s p => s.modPort p (fun x => { x with drainReg := 0, testing := x.drained })) s
  else s

/-- One kind hands over (R481, R482, R485). -/
def State.handKind (s : State) (k : Nat) : State :=
  match s.inactiveSlot k with
  | none => s
  | some c =>
    let old := s.activeImage k
    let new := c.image
    let s := { s with upd := { s.upd with
      active := put {} s.upd.active k new
      inactive := put none s.upd.inactive k (some { staged := false, image := old })
      calPrev := if k = 4 ∧ s.tick.inTick then some old.cal else s.upd.calPrev } }
    let s := if k = 1 then { s with sec := { s.sec with
        revoked := (List.range 4).foldl (fun m i => if bit new.revokes i && !bit m i then m + 2 ^ i else m) s.sec.revoked
        verifier := new.keySlot } } else s
    let s := s.writeDirectory ((List.range 7).map (fun i =>
      if i + 1 = k then new.fslot else s.upd.dirUse.slotOf (i + 1)))
    let s := s.deriveAlias
    let s := if bit new.flags 1 then s.resetLocked k else s
    if new.settings ≠ old.settings then
      (s.resetSettings k).route .settingsReset 0 1 none
        { code := errCode .settingsReset, isModule := true, page := 3, tick := s.tick.now, detail := k }
    else s

/-- The hand-over of a boundary or self-strobe, after the page commits of action 2: the refusal check, then the next
kind of the order (R481, R484, R486). -/
def State.handOver (s : State) : State :=
  if s.upd.state ≠ .activating then s
  else
    match s.upd.order with
    | [] => s.endUpdate.updResult none 0 0
    | k :: r =>
      if s.updCause ≠ 0 then s.endUpdate.updResult (some .actDeferred) s.updCause k
      else
        let s := { s with upd := { s.upd with order := r, kind := k } }.handKind k
        if r.isEmpty then s.endUpdate.updResult none 0 k else s

/-- DIRECTORY_WRITTEN: the directory write under way has reached the flash; the next one follows (R467, R481). -/
def execDirectoryWritten (s : State) : Out :=
  .next (match s.upd.dirBusy with
    | none => s
    | some d =>
      let n := 1 - s.upd.dirCopy
      { s with upd := { s.upd with
        dirs := setAt s.upd.dirs n (some d), dirCopy := n
        dirBusy := s.upd.dirQueue.head?, dirQueue := s.upd.dirQueue.drop 1 } })

/-! ### PLDM firmware update (R475, R477) -/

/-- An answer over PLDM to the management port. -/
def State.pldmReply (s : State) (b : Bytes) : State :=
  { s with sec := { s.sec with replies := s.sec.replies ++ [(17, b)] } }

/-- Completion codes of DSP0267 that the module answers with. PRESUMED (log entry 40): the spec names the standard. -/
def pldmOk : Bytes := [0x00#8]
def pldmNotUpdating : Bytes := [0x80#8]
def pldmBusy : Bytes := [0x81#8]
def pldmState : Bytes := [0x84#8]
def pldmNoActivate : Bytes := [0x8C#8]
def pldmUnable : Bytes := [0x8A#8]

/-- QUERY_DEVICE_IDENTIFIERS: the PF's device ID (R394) and the serial number. -/
def execQueryDeviceIdentifiers (s : State) : Out :=
  .next (s.pldmReply (pldmOk ++ leBytes 2 0x0FD7 ++ leBytes 8 s.sec.serial))

/-- GET_FIRMWARE_PARAMETERS: the active version of each kind, and the STAGED one as pending. -/
def execGetFirmwareParameters (s : State) : Out :=
  let pend := fun k => match s.inactiveSlot k with
    | some c => if c.staged then c.image.version else 0
    | none => 0
  .next (s.pldmReply (pldmOk ++ ((List.range 7).map (fun i =>
    leBytes 2 (i + 1) ++ leBytes 8 (s.activeImage (i + 1)).version ++ leBytes 8 (pend (i + 1)))).foldr (· ++ ·) []))

/-- REQUEST_UPDATE: a session starts unless another runs. -/
def execRequestUpdate (s : State) : Out :=
  .next (if s.upd.session ∨ s.upd.state ≠ .idle then (s.updResult (some .updBusy) 0 0).pldmReply pldmBusy
  else ({ s with upd := { s.upd with session := true, pldm := true, pldmState := 1, comps := [] } }).pldmReply pldmOk)

/-- PASS_COMPONENT_TABLE. -/
def execPassComponentTable (ids : List Nat) (s : State) : Out :=
  .next (if !s.upd.pldm then s.pldmReply pldmNotUpdating
  else if s.upd.pldmState ≠ 1 then s.pldmReply pldmState
  else ({ s with upd := { s.upd with comps := ids, pldmState := 2 } }).pldmReply pldmOk)

/-- UPDATE_COMPONENT: the write of one kind starts under the refusal check (R478). -/
def execUpdateComponent (kind len : Nat) (s : State) : Out :=
  .next (if !s.upd.pldm then s.pldmReply pldmNotUpdating
  else if s.upd.pldmState ≠ 2 ∨ kind = 0 ∨ 7 < kind then s.pldmReply pldmState
  else if s.updCause ≠ 0 then (s.updResult (some .updRefused) s.updCause kind).pldmReply pldmUnable
  else
    let s := s.beginWrite kind len (List.replicate 48 0#8)
    ({ s with upd := { s.upd with pldmState := 3 } }).allBytes.pldmReply pldmOk)

/-- FIRMWARE_DATA: a piece of at most 4,096 bytes that the module asked for. -/
def execFirmwareData (data : Bytes) (flashOk : Bool) (s : State) : Out :=
  .next (if !s.upd.pldm ∨ s.upd.state ≠ .receiving then s
  else if !flashOk then s.writeFails (some .flashWrite) 0
  else ({ s with upd := { s.upd with bytes := min s.upd.len (s.upd.bytes + min 4096 data.length) } }).allBytes)

/-- ACTIVATE_FIRMWARE: every STAGED kind is activated; only with SelfContainedActivationRequest = 1. -/
def execActivateFirmware (selfContained : Bool) (s : State) : Out :=
  .next (if !s.upd.pldm then s.pldmReply pldmNotUpdating
  else if !selfContained then s.pldmReply pldmNoActivate
  else if s.upd.pldmState ≠ 2 then s.pldmReply pldmState
  else
    let ks := (List.range 7).map (· + 1) |>.filter (fun k => match s.inactiveSlot k with
      | some c => c.staged
      | none => false)
    let t := s.beginActivate ks
    if t.upd.state = .activating then t.pldmReply pldmOk else t.pldmReply pldmUnable)

/-- GET_STATUS. -/
def execGetStatus (s : State) : Out := .next (s.pldmReply (pldmOk ++ leBytes 1 s.upd.pldmState ++ leBytes 2 s.upd.result))

/-- CANCEL_UPDATE_COMPONENT: the write in hand ends INVALID; the session stays. -/
def execCancelUpdateComponent (s : State) : Out :=
  .next (if !s.upd.pldm then s.pldmReply pldmNotUpdating
  else if s.upd.writing then (s.writeFails none 0).pldmReply pldmOk
  else s.pldmReply pldmState)

/-- CANCEL_UPDATE: the session ends, with a write in hand INVALID. -/
def execCancelUpdate (s : State) : Out :=
  .next (if !s.upd.pldm then s.pldmReply pldmNotUpdating
  else
    let s := if s.upd.writing then s.writeFails none 0 else s
    ({ s with upd := { s.upd with session := false, pldm := false, pldmState := 0
                                  state := if s.upd.state = UpdState.activating then UpdState.activating
                                            else UpdState.idle } }).pldmReply pldmOk)

end Sys2Proof.Machine
end

