-- ==== Sys2Proof/Machine/Sec.lean ====
section
/-! DEFINITION. The security block: owner commands, nonces, debug unlock, keys, SPDM answers and IDE streams (R407, R408,
R422 to R435). -/
namespace Sys2Proof.Machine

/-! ### Owner commands (R431) -/

/-- OWNER_DENIED: nothing else changes, and SEC_STS shows the last command denied (R431, R570). -/
def State.ownerDenied (s : State) : State :=
  ({ s with sec := { s.sec with lastCmd := 2 } }).corrected .ownerDenied 0 none

/-- Operation, target slot and signer of an owner command. -/
def ocOp (b : Bytes) : Nat := field b 0 1
def ocSlot (b : Bytes) : Nat := field b 1 1
def ocSigner (b : Bytes) : Nat := field b 2 1
def ocNonce (b : Bytes) : Bytes := slice b 8 48
def ocKey (b : Bytes) : Bytes := slice b 0x38 96
def ocSig (b : Bytes) : Bytes := slice b 0x98 96

/-- The command needs no signature and no nonce: SET_KEY while no slot is set, and LOCK. -/
def State.ownerFree (s : State) (b : Bytes) : Bool := (ocOp b == 1 && s.sec.owners.isEmpty) || ocOp b == 5

/-- Format of a command. -/
def ownerFormat (b : Bytes) : Bool :=
  b.length == 248 && decide (ocSlot b ≤ 3) && allZero (slice b 3 5) && (ocOp b == 1 || allZero (ocKey b)) &&
  (decide (ocSigner b ≤ 3) || ocSigner b == 0xFF)

/-- A set owner slot signed the command, and it carries the current nonce. -/
def State.ownerSigned (s : State) (b : Bytes) : Bool :=
  decide (ocSigner b ≤ 3) && (match get [] s.sec.owners (ocSigner b) with
    | [] => false
    | key => ecdsaVerify key (sha384 (b.take 0x98)) (ocSig b)) && s.sec.nonce == some (ocNonce b)

/-- Carry out an owner command that has been read: checked, then `act`, with the nonce it carries used up. -/
def State.ownerCommand (s : State) (r : HostRead) (op : Nat) (act : Bytes → Sec → Sec) : State :=
  match r with
  | .late => s
  | .fail => s.ownerDenied
  | .data b =>
    if 1 ≤ ocOp b ∧ ocOp b ≤ 6 ∧ ocOp b ≠ op then s
    else if ocOp b ≠ op ∨ !ownerFormat b ∨ !(s.ownerFree b || s.ownerSigned b) then s.ownerDenied
    else
      let sec := if s.ownerFree b then s.sec else { s.sec with nonce := none }
      { s with sec := { act b sec with lastCmd := 1 } }

def execSetKey (cmd : HostRead) (s : State) : Out :=
  .next (s.ownerCommand cmd 1 (fun b c => { c with owners := put [] c.owners (ocSlot b) (ocKey b) }))

def execClearKey (cmd : HostRead) (s : State) : Out :=
  .next (s.ownerCommand cmd 2 (fun b c => { c with owners := put [] c.owners (ocSlot b) [] }))

def execReqSigOn (cmd : HostRead) (s : State) : Out :=
  .next (s.ownerCommand cmd 3 (fun _ c => { c with reqSig := true }))

def execReqSigOff (cmd : HostRead) (s : State) : Out :=
  .next (s.ownerCommand cmd 4 (fun _ c => { c with reqSig := false }))

def execLock (cmd : HostRead) (s : State) : Out :=
  .next (s.ownerCommand cmd 5 (fun _ c => { c with locked := true })).lockEnds

def execUnlock (cmd : HostRead) (s : State) : Out :=
  .next (s.ownerCommand cmd 6 (fun _ c => { c with locked := false }))

/-- CHAL: any write draws a fresh nonce, which replaces the one before (R431). -/
def State.challenge (s : State) : State :=
  let (n, s) := s.draw
  let b := beBytes 48 n.toNat
  { s with sec := { s.sec with nonce := some b, nonceReg := b } }

def execChal (s : State) : Out := .next s.challenge

/-! ### Keys of a deckle (R415, R423, R425) -/

/-- Draw a new swap key and watermark key for deckle `d`; its swap counter starts at 0. -/
def State.newKeys (s : State) (d : Nat) : State :=
  let (a, s) := s.draw
  let (b, s) := s.draw
  s.modDeckle d (fun k => { k with swapKey := some a, wmKey := some b, swapCtr := 0 })

/-- Destroy a deckle's keys. -/
def State.dropKeys (s : State) (d : Nat) : State :=
  s.modDeckle d (fun k => { k with swapKey := none, wmKey := none, swapCtr := 0 })

/-- KEY_GEN: a request that needs a new key has waited 1 s and fails (R425). -/
def State.keyGenFailed (s : State) : State := s.corrected .keyGen 0 none

def execKeyGen (s : State) : Out := .next s.keyGenFailed

/-! ### Debug unlock (R432 to R435) -/

/-- The fields of a debug token. -/
def dtScope (b : Bytes) : Nat := field b 6 2
def dtKey (b : Bytes) : Bytes := slice b 0x68 96

/-- Every check of R433. -/
def State.tokenOk (s : State) (b : Bytes) : Bool :=
  b.length == 296 && field b 0 4 == 0x544B4244 && field b 4 2 == 1 && dtScope b / 4 == 0 && s.sec.debugPerm &&
  s.sec.lifecycle != 0 && !s.sec.locked && !s.sec.unlocked && slice b 8 48 == s.deviceId &&
  s.sec.nonce == some (slice b 0x38 48) && (s.vkeySlot (dtKey b)).isSome &&
  ecdsaVerify (dtKey b) (sha384 (b.take 0xC8)) (slice b 0xC8 96)

/-- End what session `i` still holds with ERROR and DEBUG_UNLOCK, and close it. An accepted CLOSE completes DONE: its
session is CLOSED. -/
def State.unlockSession (s : State) (i : Nat) : State :=
  let x := s.session i
  let d := s.deckOf i
  let code := errCode .debugUnlock
  let s := s.endActive i 3 code 0 false 0
  let s := s.endWaiting i 3 code 0
  let s := (x.pausePending.toList ++ x.resumeReq.toList ++ x.openReq.toList).foldl (fun s c =>
    s.finish d c 3 code 0 false false 0 1) s
  let s := x.closePending.foldl (fun s c => s.finish d c 1 0 0 false false 0 2) s
  s.closeSession i

/-- Remove every step of a deckle: no operation crosses the boundary. -/
def State.dropSteps (s : State) (d : Nat) : State :=
  (s.deckle d).steps.foldl (fun s t => s.dropStep d t.id) s

/-- Debug unlocks, in action 2 of R34 or at once while the tick is stopped (R434). -/
def State.debugUnlock (s : State) : State :=
  match s.sec.tokenDue with
  | none => s
  | some (reg, scan) =>
    let s := { s with sec := { s.sec with tokenDue := none } }
    let s := (s.sessions.map (fun x => x.1)).foldl (fun s i => s.unlockSession i) s
    let s := allDeckles.foldl (fun s d => (s.dropSteps d).modDeckle d (fun k => { k with snaps := [], swapUsed := [] })) s
    let s := (allDeckles.filter (fun d => (s.deckle d).opened)).foldl (fun s d => s.newKeys d) s
    let s := { s with sec := { s.sec with spdm := [], unlocked := true, scopeReg := reg, scopeScan := scan } }
    let s := s.dropIde
    let s := s.deriveAlias
    let c : Capture := { code := errCode .debugUnlock, isModule := true, page := 4, tick := s.tick.now }
    let s := allDeckles.foldl (fun s d => (s.toDeckle d c c.code).raiseVector (d + 1) 2) s
    s.report { err := .debugUnlock }

/-- DBG_TOKEN: a token has been read, or came over the management port (R433). A failure uses up the nonce. -/
def execDbgToken (token : HostRead) (s : State) : Out :=
  .next (match token with
    | .late => s
    | .fail => s.corrected .debugDenied 0 none
    | .data b =>
      let t := { s with sec := { s.sec with nonce := none } }
      if s.tokenOk b then
        let t := { t with sec := { t.sec with tokenDue := some (bit (dtScope b) 0, bit (dtScope b) 1) } }
        if s.tick.running then t else t.debugUnlock
      else t.corrected .debugDenied 0 none)

/-! ### SPDM (R407, R422, R427 to R430) -/

/-- The number of a requester in the tables of the security block. -/
def requesterCode : Requester → Nat
  | .pf => 0
  | .vf n => n.val + 1
  | .mgmt => 17

/-- A signature with fresh randomness. -/
def State.sign (s : State) (key : Nat) (digest : Bytes) : Bytes × State :=
  let (k, s) := s.draw
  (ecdsaSign key (scalarOf (beBytes 48 k.toNat)) digest, s)

/-- Record an answer. -/
def State.reply (s : State) (who : Requester) (b : Bytes) : State :=
  { s with sec := { s.sec with replies := s.sec.replies ++ [(requesterCode who, b)] } }

/-- The digests and versions of the active images, by kind. -/
def State.imageDigests (s : State) : List Bytes := (List.range 7).map (fun i => slice (s.activeImage (i + 1)).digest 0 48)
def State.imageVersions (s : State) : Bytes :=
  ((List.range 7).map (fun i => leBytes 8 (s.activeImage (i + 1)).version)).foldr (· ++ ·) []

/-- What the alias certificate states: the alias key, M, and digest and version of each image (R422). -/
def State.aliasBody (s : State) : Bytes :=
  ecPublic s.sec.alias_ ++ s.measureM ++ s.imageDigests.foldr (· ++ ·) [] ++ s.imageVersions

/-- GET_CERTIFICATE: slot 0 answers with the stored certificates and the alias certificate, signed with the DeviceID key;
another slot with nothing. -/
def execGetCertificate (req : Requester) (slot : Nat) (s : State) : Out :=
  .next (if slot = 0 then
    let (sig, s) := s.sign s.sec.devId (sha384 s.aliasBody)
    s.reply req (s.sec.cert ++ s.aliasBody ++ sig)
  else s.reply req [])

/-- Model slots whose mask includes deckle `d`, as a mask. -/
def State.slotsOf (s : State) (d : Nat) : Nat :=
  allSlots.foldl (fun m k => if bit (s.slot k).mask d then m + 2 ^ k else m) 0

/-- A deckle layout entry (R429). -/
def State.deckleEntry (s : State) (d : Nat) : Bytes :=
  leBytes 1 (b2n (s.deckle d).opened + 2 * s.reg .sealed d + 4 * b2n (decide (d < s.host.vfs))) ++ leBytes 1 (s.reg .wmRate d) ++
  leBytes 2 (s.reg .share d) ++ leBytes 4 (s.reg .sessBase d) ++ leBytes 4 (s.reg .sessCount d) ++
  leBytes 4 (s.reg .kvQuota d) ++ leBytes 8 (s.reg .dedicated d) ++ leBytes 2 (s.slotsOf d) ++
  leBytes 2 (s.reg .sbQuota d) ++ leBytes 4 0

/-- Measurement block `i` for a requester (R427, R430). -/
def State.measurement (s : State) (req : Requester) (i : Nat) : Bytes :=
  let sees := fun d => match req with
    | .vf n => n.val == d
    | _ => true
  let seesSlot := fun k => match req with
    | .vf n => bit (s.slotsOf n.val) k
    | _ => true
  if 1 ≤ i ∧ i ≤ 7 then s.imageDigests.getD (i - 1) []
  else if i = 8 then s.imageVersions
  else if i = 9 then s.fuseBlock
  else if i = 10 then s.sec.romDigest
  else if i = 11 then
    (allDeckles.map (fun d => if sees d then s.deckleEntry d else List.replicate 32 0#8)).foldr (· ++ ·) []
  else if i = 12 then
    (allSlots.map (fun k => match (s.slot k).current with
      | some m => if seesSlot k then leBytes 8 m.gen ++ m.digest else List.replicate 56 0#8
      | none => List.replicate 56 0#8)).foldr (· ++ ·) []
  else if i = 13 then
    leBytes 4 s.activeIfLevel ++ leBytes 2 (s.reg .nodeId) ++ leBytes 8 (s.reg .torusId) ++ leBytes 2 0
  else if i = 14 then
    ((List.range 4).map (fun k => match get [] s.sec.owners k with
      | [] => List.replicate 48 0#8
      | key => sha384 key)).foldr (· ++ ·) []
  else []

/-- GET_MEASUREMENTS: the blocks asked for, signed with the alias key over the nonce. -/
def execGetMeasurements (req : Requester) (nonce : Bytes) (indices : List Nat) (s : State) : Out :=
  let body := (indices.map (s.measurement req)).foldr (· ++ ·) []
  let (sig, s) := s.sign s.sec.alias_ (sha384 (body ++ nonce))
  .next (s.reply req (body ++ nonce ++ sig))

/-- KEY_EXCHANGE: an SPDM session is set up with a drawn ECDHE key; without entropy it fails after 1 s (R407, R425). -/
def execKeyExchange (req : Requester) (pubKey transcript : Bytes) (entropy : Bool) (s : State) : Out :=
  .next (if entropy then
    let (k, s) := s.draw
    let e := scalarOf (beBytes 48 k.toNat)
    let keys := hkdf384 (ecdhShared e pubKey) (sha384 transcript) (ascii "SPDM") 88
    let (sig, s) := s.sign s.sec.alias_ (sha384 (transcript ++ ecPublic e))
    ({ s with sec := { s.sec with spdm := put {} s.sec.spdm (requesterCode req) { keys } } }).reply req (ecPublic e ++ sig)
  else s.keyGenFailed)

/-! ### IDE streams (R407, R408) -/

/-- Change one of the two streams. -/
def HostPort.setIde (h : HostPort) (link : Bool) (v : Bool × Bool) : HostPort :=
  if link then { h with ideLink := v } else { h with ideSel := v }

/-- IDE_KM, inside an SPDM session of the PF: keys are programmed, a keyed stream becomes Secure, a stream is torn
down. -/
def execIdeKm (act : IdeAct) (s : State) : Out :=
  .next (if (get {} s.sec.spdm 0).keys = [] then s
  else match act with
    | .program link =>
      let was := if link then s.host.ideLink else s.host.ideSel
      let (_, s) := s.draw
      { s with host := s.host.setIde link (true, was.2) }
    | .go link =>
      if (if link then s.host.ideLink else s.host.ideSel).1 then
        { s with host := { s.host.setIde link (true, true) with stopIssue := false } }
      else s
    | .stop link =>
      let was := if link then s.host.ideLink else s.host.ideSel
      let other := if link then s.host.ideSel else s.host.ideLink
      let t := { s with host := s.host.setIde link (false, false) }
      if was.2 ∧ !other.2 ∧ s.reg .ideReq = 1 then
        ({ t with host := { t.host with stopIssue := true } }.report { err := .ideFail }).stopTick
      else t)

end Sys2Proof.Machine
end

