-- ==== Sys2Proof/Machine/Start.lean ====
section
/-! DEFINITION. Supplies, reset, the pins, the sideband, and the stages from power to READY (R440, R456 to R458, R522
to R544). -/
namespace Sys2Proof.Machine

/-! ### Core power -/

/-- Core power comes on and the module starts at BOOT, directory stage (R440, R542). THERMTRIP_N is released (R528); a
trip kept in LAST_SHUT stands in the THERM page's capture (R463). -/
def State.enterBoot (s : State) : State :=
  let (cause, index, tick) := s.therm.lastShut
  let s := { s with power := { s.power with phase := .boot, stage := 1, shutCause := 0, thermTripN := false } }
  if cause = 1 ∨ cause = 2 then
    let c : Capture := { code := errCode .thermTrip, isModule := true, page := 6, tick, detail := index }
    s.modPage 6 (fun p => { p with capture := p.capture <|> some c })
  else s

/-- REF_SEL is sampled; without a clock on XTAL_IN the crystal is taken and REF_FALLBACK is reported (R24, R525). -/
def State.sampleRef (s : State) (refSel clock : Bool) : State :=
  let s := { s with power := { s.power with refExt := refSel && clock, refFell := refSel && !clock } }
  when (refSel && !clock) (fun s => s.report { err := .refFallback }) s

/-- VIN_64 stays below 58 V for 5 µs: core power goes and the module is OFF (R440). -/
def execVin64Loss (s : State) : Out :=
  let s := s.corePowerOff
  .next { s with power := { s.power with phase := .off, vinOk := false, shutCause := 0 } }

/-- VIN_64 has stayed above 60 V for 100 ms: a module in OFF starts at BOOT (R440, R542). -/
def execVin64Qualified (s : State) : Out :=
  let s := { s with power := { s.power with vinOk := true } }
  .next (if s.power.phase = .off ∧ s.power.alwaysOn then s.enterBoot else s)

/-- The always-on domain leaves power-on reset and samples REF_SEL (R524, R525, R542). -/
def execAlwaysOnResetExit (refSel clock : Bool) (s : State) : Out :=
  let s := { s with power := { s.power with alwaysOn := true, i3cUp := true } }
  .next (s.sampleRef refSel clock)

/-- The module reset of R527: core power off, the always-on logic in reset, then BOOT when the supply allows. -/
def State.moduleReset (s : State) (refSel clock : Bool) : State :=
  let s := s.corePowerOff
  let s := { s with power := { s.power with i3cAddr := 0, i3cUp := true, shutCause := 0 }
                    errs := { last16 := s.errs.last16 } }
  let s := s.sampleRef refSel clock
  if s.power.vinOk then s.enterBoot else { s with power := { s.power with phase := .off } }

/-- A low pulse on MOD_RESET_N; one shorter than 10 µs is ignored (R527). -/
def execModResetN (longPulse refSel clock : Bool) (s : State) : Out :=
  .next (if longPulse then s.moduleReset refSel clock else s)

/-- VIN_64 falls below 40 V: the always-on domain stops and its retained records are lost (R458, R502, R507, R522). -/
def execVin64AlwaysOnLoss (s : State) : Out :=
  let s := s.corePowerOff
  .next { s with power := { phase := .off, vinOk := false, alwaysOn := false, stage := 0, i3cUp := false }
                 errs := {}, therm := {} }

/-- The always-on domain fails: the I3C port stops answering and reports stop; the module keeps serving (R508). -/
def execAlwaysOnDomainFail (s : State) : Out :=
  .next { s with power := { s.power with i3cUp := false } }

/-- The selected reference stops or leaves the crystal by more than 1,000 ppm (R525). -/
def execRefLost (s : State) : Out :=
  .next (if s.coreOn then s.report { err := .refLost } else s)

/-- A diode comparator or the model trips the hardware shutdown (R456, R457); `index` is the point, or 256 plus the
diode. -/
def State.trip (s : State) (model : Bool) (index : Nat) : State :=
  if s.coreOn then
    let t := s.report { err := .thermTrip, cause := if model then 2 else 1, detail := index }
    { t with power := { t.power with thermTripN := true } }
  else s

def execThermTrip (model : Bool) (index : Fin 512) (s : State) : Out := .next (s.trip model index.val)

/-- Every in-range diode has read below 75 °C for 10 s: THERMTRIP_N is released and the module starts at BOOT (R458). -/
def execThermtripRelease (s : State) : Out :=
  .next (if s.power.phase = .shutdown ∧ (s.power.shutCause = 1 ∨ s.power.shutCause = 2) then s.enterBoot else s)

/-- The power stage removes core power by itself (R492). -/
def execPstageFault (s : State) : Out :=
  .next (if s.coreOn then s.report { err := .pstageFault } else s)

/-- A vat's converter clock loses lock: the vat becomes RETIRED (R131). -/
def execClkLock (v : Fin 64) (s : State) : Out :=
  .next (if s.coreOn then s.report { err := .clkLock, inst := v.val, unit := v.val, vat := some v.val, cause := 2 }
         else s)

/-- No heartbeat for 16 intervals (R507): core power goes, or under AUTO_RESET the module resets. -/
def execHubHang (refSel clock : Bool) (s : State) : Out :=
  .next (if s.coreOn then
    if s.power.autoReset then
      let c : Capture := { code := errCode .hubHang, isModule := true, page := 5, tick := s.tick.now }
      { s with errs := s.errs.event c }.moduleReset refSel clock
    else s.report { err := .hubHang }
  else s)

/-- PWR_ON_BATT after its 1 ms debounce; it acts on refusals from the next boundary (R529). -/
def execPwrOnBatt (level : Bool) (s : State) : Out :=
  .next { s with power := { s.power with battRaw := level } }

/-! ### Boot stages (R542) -/

/-- BOOT_FAIL: core power stays on and the module stays in BOOT (R492). -/
def State.bootFail (s : State) : State :=
  let c : Capture := { code := errCode .bootFail, isModule := true, page := 4, tick := s.tick.now }
  let s := s.modPage 4 (fun p => p.take c)
  if s.power.i3cUp then { s with errs := s.errs.event c } else s

/-- The module is in BOOT at that stage. -/
def State.atStage (s : State) (n : Nat) : Bool := s.power.phase == .boot && s.power.stage == n

/-- Both directory copies are read; the valid one with the higher sequence number is taken (R467). -/
def execBootDirectory (copy0 copy1 : Bytes) (s : State) : Out :=
  .next (if s.atStage 1 then
    let dirs := [parseDirectory copy0, parseDirectory copy1]
    match chooseDirectory dirs with
    | none => ({ s with upd := { s.upd with dirs } }).bootFail
    | some (d, n) => { s with upd := { s.upd with dirs, dirUse := d, dirCopy := n }
                              power := { s.power with stage := 2 } }
  else s)

/-- The image of a flash slot, when it verifies. -/
def State.slotImage (s : State) (slots : List ImageIn) (k n : Nat) : Option ImgRec :=
  match slots[(k - 1) * 2 + n]? with
  | none => none
  | some img => match s.verifyImage k img with
    | .ok r => some { r with fslot := n }
    | .error _ => none

/-- Replace images one by one by their other slot, in the order of R420, until the set is compatible (R474). -/
def repairSet (other : Nat → Option ImgRec) : List Nat → SMap ImgRec → Option (SMap ImgRec)
  | [], m => if compatibleSet (m.map (fun x => x.2)) then some m else none
  | k :: r, m =>
    if compatibleSet (m.map (fun x => x.2)) then some m
    else match other k with
      | none => repairSet other r m
      | some i => repairSet other r (ins m k i)

/-- The seven images are verified and loaded, with slot fallback (R420, R474). The operand holds what the 14 flash
slots hold, kind by kind, slot 0 first. -/
def execBootImages (slots : List ImageIn) (s : State) : Out :=
  .next (if s.atStage 2 then
    let named := s.upd.dirUse.slotOf
    let img := fun k n => s.slotImage slots k n
    let flash : SMap FlashSlot := bootOrder.foldl (fun m k => [0, 1].foldl (fun m n =>
      put {} m (k * 2 + n) (match img k n with
        | some r => { state := .valid, image := some r }
        | none => { state := if (slots.getD ((k - 1) * 2 + n) {}).bytes.isEmpty then .empty else .invalid })) m) []
    let first : SMap ImgRec := bootOrder.foldl (fun m k =>
      match img k (named k) with
      | some r => ins m k r
      | none => match img k (1 - named k) with
        | some r => ins m k r
        | none => m) []
    let s := { s with upd := { s.upd with flash } }
    if first.length < 7 then s.bootFail
    else match repairSet (fun k => img k (1 - (get {} first k).fslot)) bootOrder first with
      | none => s.bootFail
      | some act =>
        let used := fun k => (get {} act k).fslot
        let inact : SMap (Option ChipSlot) := bootOrder.foldl (fun m k =>
          put none m k ((img k (1 - used k)).map (fun r => { staged := false, image := r }))) []
        let s := { s with upd := { s.upd with active := act, inactive := inact }
                          power := { s.power with stage := 3 } }
        let fell := bootOrder.filter (fun k => used k != named k)
        let s := fell.foldl (fun s k => s.report { err := .bootFallback, detail := k }) s
        if fell.isEmpty then s else s.writeDirectory ((List.range 7).map (fun i => used (i + 1)))
  else s)

/-- The bytes of a margin record: 0x6_1040 and its HMAC (R174). -/
def recBytes : Nat := 0x61040

/-- Entry of physical group `p` of vat `v` in a record. -/
def recEntry (b : Bytes) (v p : Nat) : Nat := field b (0x80 + 6208 * v + 4 * p) 4

/-- A record copy is authentic and holds no invalid plan code (R174 to R176). -/
def recordOk (key b : Bytes) : Bool :=
  b.length == recBytes + 48 && field b 0 4 == 0x464D5244 && field b 4 2 == 1 &&
  hmac384 key (b.take recBytes) == slice b recBytes 48 &&
  allVats.all (fun v => allGroups.all (fun p => let c := recEntry b v p % 8; c != 5 && c != 7))

/-- Sequence number of a record. -/
def recSeqOf (b : Bytes) : Nat := field b 8 8

/-- Keys are derived, revoke bits burned, record copies authenticated (R421, R425, R469, R542, R544). -/
def execBootIdentity (rec0 rec1 : Bytes) (entropy : Bool) (s : State) : Out :=
  .next (if s.atStage 3 then
    let s := s.deriveDevice
    let hub := s.activeImage 1
    let s := { s with sec := { s.sec with
      revoked := (List.range 4).foldl (fun m i => if bit hub.revokes i && !bit m i then m + 2 ^ i else m) s.sec.revoked
      verifier := hub.keySlot } }
    if !entropy then s.bootFail
    else
      let s := s.deriveAlias
      let ok := fun b => recordOk s.sec.recKey b
      let q := fun b => if ok b then recSeqOf b else 0
      let seed := if ok rec0 && ok rec1 then some (if recSeqOf rec0 < recSeqOf rec1 then rec1 else rec0)
                  else if ok rec0 then some rec0 else if ok rec1 then some rec1 else none
      { s with upd := { s.upd with seed, recs := [some rec0, some rec1], recSeqs := [q rec0, q rec1]
                                   recSeq := (seed.map recSeqOf).getD 0 }
               power := { s.power with stage := 4 } }
  else s)

/-- The boot engine starts the PCIe controller (R530, R542). -/
def execHostPortStart (s : State) : Out :=
  .next (if s.atStage 4 then { s with host := { s.host with started := true }, power := { s.power with stage := 5 } }
         else s)

/-- The link reaches DL_Active for the first time since core power-on: READY (R542, R543). `ms` is the time since then. -/
def execLinkTrained (ms : Nat) (s : State) : Out :=
  .next (if s.atStage 5 && s.host.perstN then
    { s with host := { s.host with linkUp := true }
             power := { s.power with stage := 6, phase := .up, bootMs := min ms 65535 } }
  else s)

/-! ### Sideband and test access (R526, R531) -/

/-- The I3C port answers: the always-on domain is powered and has not failed. -/
def State.i3cAnswers (s : State) : Bool := s.power.alwaysOn && s.power.i3cUp

/-- Dynamic address assignment by ENTDAA. -/
def execEntdaa (addr : Fin 128) (s : State) : Out :=
  .next (if s.i3cAnswers then { s with power := { s.power with i3cAddr := addr.val } } else s)

/-- Dynamic address assignment by SETDASA, from the static address 0x2D only. -/
def execSetdasa (sta addr : Fin 128) (s : State) : Out :=
  .next (if s.i3cAnswers && sta.val == 0x2D then { s with power := { s.power with i3cAddr := addr.val } } else s)

/-- An HDR entry: the target ignores the transfer until its exit pattern, and nothing changes (R526, R541). -/
def execI3cHdrEntry (s : State) : Out := .next s

/-- What the test access port decodes an instruction as (R531). -/
def State.tapDecode (s : State) (t : TapInst) : TapInst :=
  match t with
  | .extest | .clamp | .highz => if !s.host.perstN && !s.tick.running then t else .bypass
  | .scan => if s.sec.unlocked && s.sec.scopeScan then t else .bypass
  | _ => t

/-- What the test data register reads where the instruction decoded selects IDCODE (R531). -/
def State.tapRegister (s : State) : Option Nat := if s.power.tap = .idcode then some 0x1FD754C3 else none

/-- PERST_N rises, and link training may run (R531, R542); an instruction that needs it low decodes as BYPASS from then on. -/
def execPerstNRelease (s : State) : Out :=
  let t := { s with host := { s.host with perstN := true } }
  .next { t with power := { t.power with tap := t.tapDecode t.power.tap } }

def execTapInstruction (t : TapInst) (s : State) : Out :=
  .next (if s.power.alwaysOn then { s with power := { s.power with tap := s.tapDecode t } } else s)

end Sys2Proof.Machine
end

