-- ==== Sys2Proof/Machine/Therm.lean ====
section
/-! DEFINITION. Telemetry, the thermal model, the levels and the throttle step (R136 to R143, R440 to R460), and the
blocks being reloaded (R504, R505). -/
namespace Sys2Proof.Machine

/-! ### Reloads (R504, R505) -/

/-! ### Telemetry (R137 to R143) -/

/-- Converters left out of the dealing of channels (R142). -/
def Therm.out (t : Therm) (c : Nat) : Bool := get 0 t.sweepOf c != 0

/-- The converter that samples analogue channel `c`: channel by channel over the converters in use (R140, R142). -/
def Therm.convOf (t : Therm) (c : Nat) : Nat :=
  let live := (List.range 4).filter (fun k => !t.out k)
  nth live (c % live.length)

/-- Corrected value of an analogue channel (R141). -/
def correctTelem (raw : Nat) (tofs tgain chOfs chGain : Int) : Nat :=
  let v := divRne (((16 * (raw : Int) - tofs) * (65536 + tgain) - chOfs * 65536) * (65536 + chGain)) (16 * 2 ^ 32)
  (clampInt 0 4095 v).toNat

/-- Store one channel's value. -/
def State.storeTelem (s : State) (c k value : Nat) : State :=
  let x : Telem := { valid := true, strobe := k, tick := s.tick.now % 65536, value }
  { s with therm := { s.therm with telem := put {} s.therm.telem c x } }

/-- Value of a channel; 0 before its first conversion. -/
def State.telemValue (s : State) (c : Nat) : Nat := (get {} s.therm.telem c).value

/-- Move a correction toward a reference measurement by at most `k` (R141). -/
def toward (k cur tgt : Int) : Int := cur + clampInt (-k) k (tgt - cur)

/-- The reference results of one tick-aligned sweep: corrections move, and a fourth sweep more than 8 LSB off fails the
converter (R141, R142). -/
def State.takeRefs (s : State) (refs : List (Int × Int × Nat)) : State :=
  (List.range 4).foldl (fun s k =>
    match refs[k]? with
    | none => s
    | some (ofs, gain, dev) =>
      let c := get {} s.therm.tconv k
      if c.failed then s
      else
        let bad := if 8 < dev then c.bad + 1 else 0
        let c := { c with tofs := toward 1 c.tofs ofs, tgain := toward 2 c.tgain gain, bad, failed := decide (4 ≤ bad) }
        let s := { s with therm := { s.therm with tconv := put {} s.therm.tconv k c } }
        if !c.failed then s
        else if ((s.therm.tconv.filter (fun x => x.2.failed)).length) < 3 then
          s.report { err := .telemConvFail, detail := k }
        else s.report { err := .telemLost, detail := k }) s

/-- One telemetry strobe; `k` is 0 at a tick strobe or self-strobe, else the intermediate strobe (R137, R143). A
converter that failed is left out from the next tick strobe on. -/
def State.takeTelem (s : State) (k : Nat) (inp : StrobeIn) : State :=
  let out := s.therm.tconv.filterMap (fun x => if x.2.failed then some (x.1, 1) else none)
  let s := if k ≠ 0 then s else { s with therm := { s.therm with sweepOf := out } }
  let cal := (s.activeImage 4).cal
  let s := (List.range (min 194 inp.raw.length)).foldl (fun s c =>
    let t := get {} s.therm.tconv (s.therm.convOf c)
    s.storeTelem c k (correctTelem (nth inp.raw c % 4096) t.tofs t.tgain (get 0 cal.chOfs c) (get 0 cal.chGain c))) s
  if k ≠ 0 then s
  else
    let s := (List.range (min 258 inp.raw.length - 194)).foldl (fun s i =>
      s.storeTelem (194 + i) 0 (nth inp.raw (194 + i) % 65536)) s
    s.takeRefs inp.refs

/-! ### Power limit and conversion rate (R442, R443) -/

/-- E in quarter watts, for the step in force. -/
def State.limitE (s : State) : Nat := max 2400 (2400 + 225 * s.reg .pwrLimit - 225 * s.therm.step)

/-- CAP_RATE: conversions per reference period. -/
def State.capRate (s : State) : Nat :=
  let t := (s.activeImage 5).therm
  (s.limitE - t.pFixed) * 10 ^ 15 / (4 * t.eConv * 50000000)

/-- P_EST of one evaluation, in 0.1 microwatt (R444). -/
def State.powerNow (s : State) : Nat :=
  let t := (s.activeImage 5).therm
  let i := s.telemValue
  let sum := sumTo 64 (fun v => 30 * (i v * i (64 + v))) + sumTo 4 (fun d => i (128 + d) * t.vBias) +
    sumTo 8 (fun k => 100 * (i (132 + k) * t.vStack)) + sumTo 6 (fun p => 20 * (i (140 + p) * t.vOpt)) + t.pHub
  sum * 65536 / t.eta

/-- The tick's mean estimate exceeds E plus 28.125 W (R445). -/
def State.overBudget (s : State) : Bool :=
  decide (s.therm.pCnt * ((2 * s.limitE + 225) * 2500000) < s.therm.pSum * 2)

/-- The mean estimate of the interval in quarter watts. -/
def Therm.meanPower (t : Therm) : Nat := t.pSum / (t.pCnt * 2500000)

/-! ### The thermal model (R446 to R451) -/

/-- Power inputs of the model, in 0.1 microwatt: vats 0 to 63, bias 64 to 67, stacks 68 to 75, optics 76 to 81, hub 82,
power-stage loss 83 (R448). -/
def State.powerInput (s : State) (j : Nat) : Int :=
  let t := (s.activeImage 5).therm
  let i := s.telemValue
  if j < 64 then (30 * (i j * i (64 + j)) : Nat)
  else if j < 68 then (i (128 + (j - 64)) * t.vBias : Nat)
  else if j < 76 then (100 * (i (132 + (j - 68)) * t.vStack) : Nat)
  else if j < 82 then (20 * (i (140 + (j - 76)) * t.vOpt) : Nat)
  else if j = 82 then (t.pHub : Nat)
  else ((s.powerNow * (65536 - t.eta) / 65536 : Nat) : Int)

/-- The coefficients in use: those of the period, and the conservative set while the model is degraded (R449, R451). -/
def coeffs (l : List (Bool × Nat × SMap Int)) (cons : Bool) (period : Nat) : SMap Int :=
  match l.find? (fun x => x.1 == cons && x.2.1 == period) with
  | some x => x.2.2
  | none => []

/-- Entries of row `i` of a sparse matrix with `w` columns, applied to a vector. -/
def rowTimes (m : SMap Int) (w i : Nat) (f : Nat → Int) : Int :=
  m.foldl (fun a x => if x.1 / w = i then a + x.2 * f (x.1 % w) else a) 0

/-- Temperature of point `i`, in 2^-16 of a code of R139. -/
def Therm.point (t : Therm) (i : Nat) : Int := get 0 t.points i

/-- More than 8 diodes are excluded (R451). -/
def Therm.degraded (t : Therm) : Bool := decide (8 < t.excl.length)

/-- One integration step (R449). A and c are in 2^-16, B in 2^-32 per 0.1 microwatt (log entry 42). -/
def State.thermStep (s : State) : State :=
  let img := (s.activeImage 5).therm
  let cons := s.therm.degraded
  let a := coeffs img.a cons s.tick.period
  let b := coeffs img.b cons s.tick.period
  let c := coeffs img.c cons s.tick.period
  let cool : Int := (s.reg .coolantIn : Nat)
  let pts := (List.range 256).foldl (fun m i =>
    put 0 m i (divRne (rowTimes a 256 i s.therm.point) 65536 + divRne (rowTimes b 128 i s.powerInput) (2 ^ 32) +
      get 0 c i * cool)) []
  { s with therm := { s.therm with points := pts } }

/-- Reading of diode `t`, in 2^-16 of a code. -/
def State.diode (s : State) (t : Nat) : Int := ((s.telemValue (146 + t) * 65536 : Nat) : Int)

/-- The diodes included in the model. -/
def Therm.diodes (t : Therm) : List Nat := (List.range 48).filter (fun d => !t.excl.contains d)

/-- Residual of each diode against its point before correction. -/
def State.residual (s : State) (t : Nat) : Int :=
  s.diode t - s.therm.point (nth (s.activeImage 5).therm.diodePoint t)

/-- Exclude a diode until the next module reset; the ninth degrades the model (R450, R451). -/
def State.excludeDiode (s : State) (t : Nat) : State :=
  if s.therm.excl.contains t then s
  else
    let s := { s with therm := { s.therm with excl := t :: s.therm.excl } }
    let s := s.report { err := .sensorBroken, detail := t }
    if s.therm.degraded ∧ !s.therm.degradedSaid then
      ({ s with therm := { s.therm with degradedSaid := true } }).report { err := .sensorsDegraded }
    else s

/-- Twice the median of some residuals; none of an empty list. -/
def median2 (l : List Int) : Option Int :=
  let l := sortBy (fun a b => decide (a ≤ b)) l
  let n := l.length
  if n = 0 then none
  else if n % 2 = 1 then some (2 * l.getD (n / 2) 0)
  else some (l.getD (n / 2 - 1) 0 + l.getD (n / 2) 0)

/-- Six degrees in 2^-16 of a code. -/
def sixDeg : Int := 96 * 65536

/-- A residual disagrees with the model and with the diode's neighbours (R450). -/
def disagrees (r : Nat → Int) (incl : List Nat) (near : List Nat) (t : Nat) : Bool :=
  decide (sixDeg < (r t).natAbs) &&
  match median2 ((near.filter incl.contains).map r) with
  | none => false
  | some m => decide (2 * sixDeg < (2 * r t - m).natAbs)

/-- A diode whose channel has no value, or reads above 150 °C, is excluded before the model uses it (R450, R456). -/
def State.dropDead (s : State) : State :=
  s.therm.diodes.foldl (fun s t =>
    let x := get {} s.therm.telem (146 + t)
    if x.valid && decide (x.value ≤ 3040) then s else s.excludeDiode t) s

/-- A code of R139 in 2^-16 of a code. -/
def degrees (code : Nat) : Int := ((code * 65536 : Nat) : Int)

/-- The largest of some temperatures and where it stands; the first of equals. -/
def hottest (l : List (Nat × Int)) : Nat × Int :=
  l.foldl (fun best x => if best.2 < x.2 then x else best) (l.headD (0, 0))

/-- One evaluation: power, model, observer, hi, broken diodes and levels (R444, R449, R450, R453). -/
def State.evaluate (s : State) : State :=
  let img := (s.activeImage 5).therm
  let s := { s with therm := { s.therm with pSum := s.therm.pSum + s.powerNow, pCnt := s.therm.pCnt + 1 } }
  let s := s.dropDead
  let n := if s.therm.fast then 1 else 8
  let s := (List.range n).foldl (fun s _ => s.thermStep) s
  let incl := s.therm.diodes
  let rl := (List.range 48).map s.residual
  let r := fun t => rl.getD t 0
  let g := coeffs img.g s.therm.degraded s.tick.period
  let pts := (List.range 256).foldl (fun m i => put 0 m i (s.therm.point i +
    divRne (rowTimes g 64 i (fun t => if incl.contains t then r t else 0)) 65536)) []
  let s := { s with therm := { s.therm with points := pts } }
  let pt := hottest ((List.range 256).map (fun i => (i, s.therm.point i)))
  let dd := hottest (incl.map (fun t => (256 + t, s.diode t)))
  let top := if !incl.isEmpty ∧ pt.2 < dd.2 then dd else pt
  let hiTick := if s.therm.hiSeen then max s.therm.hiTick top.2 else top.2
  let s := { s with therm := { s.therm with hi := top.2, hiPoint := top.1, hiSeen := true, hiTick } }
  let s := incl.foldl (fun s t =>
    let n := if disagrees r incl (img.neighbours.getD t []) t then get 0 s.therm.badRuns t + 1 else 0
    let s := { s with therm := { s.therm with badRuns := put 0 s.therm.badRuns t n } }
    if 8 ≤ n then s.excludeDiode t else s) s
  let hi := top.2
  let s := if degrees 2160 ≤ hi ∧ !s.therm.warn then
      ({ s with therm := { s.therm with warn := true } }).report { err := .tempWarn }
    else if hi < degrees 2096 then { s with therm := { s.therm with warn := false } } else s
  let s := if degrees 2272 ≤ hi ∧ !s.therm.throttle then
      ({ s with therm := { s.therm with throttle := true } }).report { err := .tempThrottle }
    else s
  if degrees 2432 ≤ pt.2 then s.trip true pt.1 else s

/-! ### Stepping (R454, R455) -/

/-- The decision after the last evaluation of a tick or self-strobe interval. -/
def State.decideStep (s : State) : State :=
  let t := s.therm
  let tooHigh := s.overBudget
  let s := if tooHigh then
      ({ s with therm := { s.therm with guardCnt := satAdd 32 t.guardCnt 1 } }).report { err := .powerGuard }
    else s
  let since := min (t.since + 1) 255
  let hi := t.hiTick
  let s := if hi < degrees 2208 then { s with therm := { s.therm with throttle := false } } else s
  if degrees 2272 ≤ hi ∨ tooHigh then
    if t.stepNext < 15 ∧ 4 ≤ since then
      { s with therm := { s.therm with cool := 0, stepNext := t.stepNext + 1, since := 0 } }
    else { s with therm := { s.therm with cool := 0, since } }
  else if degrees 2208 ≤ hi then { s with therm := { s.therm with cool := 0, since } }
  else if t.cool + 1 = 64 then { s with therm := { s.therm with cool := 0, since, stepNext := t.stepNext - 1 } }
  else { s with therm := { s.therm with cool := t.cool + 1, since } }

/-- Fast rate is selected (R138, R452); also while the THERM tables reload (R505). -/
def State.selectFast (s : State) : Bool :=
  decide (degrees 2192 ≤ s.therm.hi) || s.therm.hotMid || s.therm.degraded || s.reg .forceFast == 1 ||
  s.reloading (seqCode .therm)

/-- P_EST of the interval that ends becomes readable, and the next one begins. -/
def State.latchPower (s : State) : State :=
  if s.therm.pCnt = 0 then s
  else { s with therm := { s.therm with pEst := s.therm.meanPower, pSum := 0, pCnt := 0, hiSeen := false } }

/-- The step decided takes effect, and PF vector 3 falls due with a change (R38, R455). -/
def State.stepEffect (s : State) : State :=
  if s.therm.step = s.therm.stepNext then s
  else { s with therm := { s.therm with step := s.therm.stepNext, stepSaid := true } }

/-- EVALUATION_PHASE: phase 2 of a tick; while the tables reload the step holds (R505). -/
def State.evalPhase (s : State) : State :=
  if s.reloading (seqCode .therm) then { s with therm := { s.therm with fastNext := true } }
  else
    let s := s.evaluate
    if !s.coreOn then s
    else
      let s := if s.therm.fast then s else s.decideStep
      { s with therm := { s.therm with fastNext := s.selectFast, hotMid := false } }

/-- The THERM block makes intermediate strobes: at fast rate, in the execution phase of a tick or while no tick runs (R137,
R459). -/
def State.midStrobes (s : State) : Bool := s.therm.fast && (s.tick.stage == .execution || !s.tick.running)

/-- INTERMEDIATE_STROBE `k`: a sweep and an evaluation; the seventh is the tick's last (R137, R454). While no tick runs
the decision is the self-strobe's (R459). -/
def State.midStrobe (s : State) (k : Nat) (inp : StrobeIn) : State :=
  let s := s.takeTelem k inp
  if s.reloading (seqCode .therm) then s
  else
    let s := s.evaluate
    if !s.coreOn then s
    else
      let s := if degrees 2192 ≤ s.therm.hi then { s with therm := { s.therm with hotMid := true } } else s
      if k = 7 ∧ s.tick.inTick then s.decideStep else s

def execIntermediateStrobe (k : Fin 8) (strobe : StrobeIn) (s : State) : Out :=
  .next (if k.val = 0 ∨ !s.midStrobes then s else s.midStrobe k.val strobe)

/-- What a self-strobe's evaluation decides takes effect at once (R455, R459). -/
def State.decideNow (s : State) : State :=
  let s := s.decideStep
  let fast := s.selectFast
  let s := { s with therm := { s.therm with fast, fastNext := fast, hotMid := false } }
  let s := s.latchPower
  if s.therm.step = s.therm.stepNext then s
  else ({ s with therm := { s.therm with step := s.therm.stepNext } }).pfVector 3

/-- The evaluation of a self-strobe (R459). -/
def State.evalSelf (s : State) : State :=
  if s.reloading (seqCode .therm) then s
  else
    let s := s.evaluate
    if !s.coreOn then s else s.decideNow

end Sys2Proof.Machine
end

