-- ==== Sys2Proof/Machine/Web.lean ====
section
/-! DEFINITION. The check of every web access at its target (R28, R417, R418). -/
namespace Sys2Proof.Machine

/-- What a web access meets. -/
inductive WebVerdict where
  | ok | unmapped | foreign
  deriving DecidableEq, Repr

/-- The operation holds the 4 KiB STAGE unit of address `a`, from its admission to its completion (R417). -/
def OpRec.holdsUnit (o : OpRec) (a : Nat) : Bool :=
  o.state == .waiting && o.places.any (fun x =>
    decide (x.1 / 4096 ≤ a / 4096) && decide (0 < x.2) && decide (a / 4096 ≤ (x.1 + x.2 - 1) / 4096))

/-- The deckle that owns a STAGE unit: that of the first admitted operation that holds it (R417). -/
def State.stageOwner (s : State) (a : Nat) : Option Nat := (s.sched.ops.find? (fun o => o.holdsUnit a)).map (fun o => o.deckle)

/-- Deckle `d` may access the 4 KiB unit of a scratchpad: its accumulator allotment, or a STAGE unit that it owns. -/
def State.scrOwned (s : State) (d a : Nat) : Bool :=
  let v := (a - scrBase) / 0x2000000
  let u := (a - scrBase) % 0x2000000 / 4096
  let x := s.vat v
  let al := s.allot d v
  (decide (x.accBase + al.1 ≤ u) && decide (u < x.accBase + al.1 + al.2)) ||
  (decide (x.stageBase ≤ u) && decide (u < x.stageBase + x.stageSize) && s.stageOwner a == some d)

/-- Deckle `d` may access the stack page of address `a`: its own page; a slot image's page only to read. -/
def State.pageAllowed (s : State) (d a : Nat) (write : Bool) : Bool :=
  let o := s.owner (a / 65536)
  o == ownDeckle d || (!write && decide (0x80 ≤ o) && decide (o < 0x90) && bit (s.slot (o - 0x80)).mask d)

/-- Check one byte. -/
def State.webByte (s : State) (d a : Nat) (write : Bool) : WebVerdict :=
  if !backed a then .unmapped
  else if a < scrBase then (if s.pageAllowed d a write then .ok else .foreign)
  else if s.scrOwned d a then .ok else .foreign

/-- Check a range: its first byte, its last byte and the first byte of every 4 KiB unit in between. -/
def State.webCheck (s : State) (d a n : Nat) (write : Bool) : WebVerdict :=
  if n = 0 then .ok
  else
    let units := (List.range ((a + n - 1) / 4096 - a / 4096)).map (fun i => (a / 4096 + 1 + i) * 4096)
    let l := (a :: units).map (fun b => s.webByte d b write) ++ [s.webByte d (a + n - 1) write]
    if l.contains .unmapped then .unmapped else if l.contains .foreign then .foreign else .ok

end Sys2Proof.Machine
end

