-- ==== Sys2Proof/Machine/Felt.lean ====
section
/-! DEFINITION. Felt ports, lanes, link sessions, frames, routing, tick alignment and membership (R349 to R391, R592,
R593). Ports 0 to 5 are +X, −X, +Y, −Y, +Z, −Z; times are in half nanoseconds where a frame carries them. -/
namespace Sys2Proof.Machine

/-! ### Nodes and routes (R361 to R364) -/

/-- Size of dimension `d`. -/
def State.dimSize (s : State) (d : Nat) : Nat :=
  1 + (if d = 0 then s.reg .sxM1 else if d = 1 then s.reg .syM1 else s.reg .szM1)

/-- Coordinate of a node in dimension `d`. -/
def coord (n d : Nat) : Nat := bits n (5 * d + 4) (5 * d)

/-- The neighbour of a node in dimension `d`, in the + or − direction. -/
def State.stepNode (s : State) (n d : Nat) (plus : Bool) : Nat :=
  let m := s.dimSize d
  setBits n (5 * d + 4) (5 * d) (if plus then (coord n d + 1) % m else (coord n d + m - 1) % m)

/-- The node that port `p` leads to. -/
def State.neighbour (s : State) (p : Nat) : Nat := s.stepNode (s.reg .nodeId) (p / 2) (p % 2 == 0)

/-- The link between a node and its neighbour: dimension, and the node at the − end. -/
def State.linkOf (s : State) (n d : Nat) (plus : Bool) : Nat × Nat := (d, if plus then n else s.stepNode n d false)

/-- The link of port `p`. -/
def State.portLink (s : State) (p : Nat) : Nat × Nat := s.linkOf (s.reg .nodeId) (p / 2) (p % 2 == 0)

/-- A leg of `k` hops passes neither an absent position nor a down link. -/
def State.legOk (s : State) (d : Nat) (plus : Bool) : Nat → Nat → Bool
  | 0, _ => true
  | k + 1, n =>
    let m := s.stepNode n d plus
    !s.torus.downLinks.contains (s.linkOf n d plus) && s.torus.present.contains m && s.legOk d plus k m

/-- Direction in which dimension `d` is travelled toward a coordinate; none when both legs are broken. -/
def State.legDir (s : State) (n d target : Nat) : Option Bool :=
  let m := s.dimSize d
  let up := (target + m - coord n d) % m
  let down := m - up
  let first := decide (up ≤ down)
  if s.legOk d first (if first then up else down) n then some first
  else if s.legOk d (!first) (if first then down else up) n then some (!first)
  else none

/-- The route to a node, dimension by dimension: the port of its first hop; none when a leg is broken. -/
def State.routeFrom (s : State) (dest : Nat) : List Nat → Nat → Option Nat → Option (Option Nat)
  | [], _, port => some port
  | d :: r, n, port =>
    if coord n d = coord dest d then s.routeFrom dest r n port
    else match s.legDir n d (coord dest d) with
      | none => none
      | some plus =>
        s.routeFrom dest r (setBits n (5 * d + 4) (5 * d) (coord dest d))
          (port <|> some (2 * d + if plus then 0 else 1))

/-- The port by which frames for a node leave; none when the node is unreachable. -/
def State.routePort (s : State) (dest : Nat) : Option Nat :=
  (s.routeFrom dest [0, 1, 2] (s.reg .nodeId) none).join

/-- A node can be reached. -/
def State.reachable (s : State) (dest : Nat) : Bool :=
  dest == s.reg .nodeId || (s.torus.present.contains dest && (s.routePort dest).isSome)

/-! ### Root, parent and tables (R363, R369) -/

/-- Nodes one up link away, both ends present. -/
def State.adjacent (s : State) (n : Nat) : List Nat :=
  (List.range 6).filterMap (fun p =>
    let m := s.stepNode n (p / 2) (p % 2 == 0)
    if s.dimSize (p / 2) ≤ 1 ∨ !s.torus.present.contains m ∨
        s.torus.downLinks.contains (s.linkOf n (p / 2) (p % 2 == 0)) then none
    else some m)

/-- Hop distances over up links from a frontier, level by level. -/
def State.levels (s : State) : Nat → Nat → List Nat → SMap Nat → SMap Nat
  | 0, _, _, m => m
  | k + 1, dist, front, m =>
    let next := front.foldl (fun a n => (s.adjacent n).foldl (fun a x =>
      if a.contains x || m.any (fun y => y.1 == x) then a else a ++ [x]) a) []
    if next.isEmpty then m else s.levels k (dist + 1) next (next.foldl (fun m n => ins m n (dist + 1)) m)

/-- Hop distances from a node. -/
def State.hops (s : State) (n : Nat) : SMap Nat := s.levels s.torus.present.length 0 [n] [(n, 0)]

/-- Recompute the time root, the parent and the unreachable count. -/
def State.retable (s : State) : State :=
  let me := s.reg .nodeId
  let root := (s.hops me).headD (me, 0)
  let far := s.hops root.1
  let cand := (List.range 6).filterMap (fun p =>
    let m := s.neighbour p
    if s.dimSize (p / 2) ≤ 1 ∨ !s.torus.present.contains m ∨ s.torus.downLinks.contains (s.portLink p) ∨
        (s.port p).state ≠ .up then none
    else (far.find? (fun x => x.1 == m)).map (fun x => (x.2, m, p)))
  let best := cand.foldl (fun (b : Option (Nat × Nat × Nat)) x => match b with
    | none => some x
    | some y => if x.1 < y.1 ∨ (x.1 = y.1 ∧ x.2.1 < y.2.1) then some x else b) none
  let parent := if root.1 = me then none else best.map (fun x => x.2.2)
  let unreach := (s.torus.present.filter (fun n => !s.reachable n)).length
  { s with torus := { s.torus with root := root.1, parent, unreach, alignErr := if root.1 = me then 0 else s.torus.alignErr } }

/-- Low 32 bits of the SHA-384 digest of the membership tables. The order of the digested bytes is the model's (log entry
43): the present nodes, then the down links, 4 bytes each. -/
def State.tableDigest (s : State) : Nat :=
  let b := (s.torus.present.map (leBytes 4)).foldr (· ++ ·) [] ++
    (s.torus.downLinks.map (fun x => leBytes 4 (x.1 * 2 ^ 15 + x.2))).foldr (· ++ ·) []
  beNat (sha384 b) % 2 ^ 32

/-! ### Proposals (R378 to R380, R383) -/

/-- Propose a change: planned ones take effect MEMB_LEAD ticks on, failures 2 ticks on. Only a member proposes. -/
def State.propose (s : State) (planned : Bool) (entries : List MembEntry) : State :=
  if s.torus.member ≠ 2 then s
  else
    let at_ := s.tick.now + (if planned then s.reg .membLead else 2)
    let q : Proposal := { by_ := s.reg .nodeId, number := s.torus.nextProp, at_, entries }
    { s with torus := { s.torus with nextProp := s.torus.nextProp + 1, proposals := s.torus.proposals ++ [q]
                                     sent := q :: s.torus.sent } }

/-- A LEAVE of one of the two ends of port `p` is pending. -/
def State.leavePending (s : State) (p : Nat) : Bool :=
  s.torus.proposals.any (fun q => q.entries.any (fun e =>
    e.kind == 1 && (e.node == s.reg .nodeId || e.node == s.neighbour p)))

/-- Propose LINK_DOWN or LINK_UP of port `p`'s link. -/
def State.proposeLink (s : State) (p : Nat) (up : Bool) : State :=
  let l := s.portLink p
  s.propose up [{ kind := if up then 3 else 2, dim := l.1, node := l.2 }]

/-- MEMBERSHIP_PROPOSAL: recorded for its tick and forwarded the first time it is received. -/
def State.takeProposal (s : State) (q : Proposal) : State :=
  if s.torus.member = 0 ∨ s.torus.sent.any (fun x => x.by_ == q.by_ && x.number == q.number) then s
  else { s with torus := { s.torus with proposals := s.torus.proposals ++ [q], sent := q :: s.torus.sent } }

def execMembershipProposal (p : Fin 6) (by_ number at_ : Nat) (entries : List MembIn) (s : State) : Out :=
  .next (if (s.port p.val).state ≠ .up then s
         else s.takeProposal { by_, number, at_, entries := entries.map (fun e => { kind := e.kind, dim := e.dim, node := e.node }) })

/-- LEAVE: the module proposes its own removal (R383). -/
def State.requestLeave (s : State) : State := s.propose true [{ kind := 1, dim := 0, node := s.reg .nodeId }]

def execLeave (s : State) : Out := .next s.requestLeave

/-! ### Sending (R353, R354) -/

/-- A frame leaves by port `q` under the next sequence number of its session (R353, R374). -/
def State.sendFrame (s : State) (q : Nat) (f : FrameOut) : State :=
  s.modPort q (fun x => { x with txFrames := (x.txFrames + 1) % 2 ^ 64, txSeq := x.txSeq + 1
                                 sent := x.sent ++ [{ f with seq := x.txSeq % 2 ^ 32 }]
                                 unacked := x.unacked ++ [{ f with seq := x.txSeq % 2 ^ 32 }] })

/-- A control frame of one byte goes to the neighbour of every up port, on VC0: 1 a withdrawal, 2 a request to join. DESIGN
CHOICE: the spec has the module signal its neighbours and gives the frame no content (entry 128). -/
def State.signal (s : State) (ports : List Nat) (code : Nat) : State :=
  (ports.filter (fun p => (s.port p).state == .up)).foldl (fun s p => s.sendFrame p
    { kind := 2, vc := 0, first := true, last := true, deckle := 0, dest := (s.port p).neighId, src := s.reg .nodeId, seq := 0
      payload := leBytes 1 code }) s

/-! ### Work across modules (R268, R381, R384) -/

/-- A step fails with a code of the felt block: its live members' requests end with ERROR. -/
def State.stepUnreachable (s : State) (d id order : Nat) : State :=
  match s.stepOf d id with
  | none => s
  | some t => s.report { err := .unreachable, deckle := some d, named := t.live, order }

/-- Every cross-module exchange on the scoreboard fails with UNREACHABLE (R381). -/
def State.failCross (s : State) (order : Nat) : State :=
  ((s.sched.ops.filter (fun o => o.cross)).map (fun o => (o.deckle, o.step))).foldl
    (fun s x => s.stepUnreachable x.1 x.2 order) s

/-- The ring sessions of a deckle: their KV is invalid and their requests end with RING_MEMBER (R268). -/
def State.failRing (s : State) (d order : Nat) : State :=
  let l := (s.openSessions d).filter (fun i => (s.session i).ring)
  if l.isEmpty then s else s.report { err := .ringMember, deckle := some d, named := l, order }

/-- The nodes of a deckle's ring (R387). -/
def State.ringNodes (s : State) (d : Nat) : List Nat :=
  (List.range (s.reg .ringSize d)).map (fun j => s.reg .ringNode (memberCopy d j))

/-- What the removal of some nodes does to work (R384). -/
def State.lostNodes (s : State) (gone : List Nat) (order : Nat) : State :=
  let s := allDeckles.foldl (fun s d =>
    if (s.ringNodes d).any gone.contains then s.failRing d order else s) s
  let hit := allDeckles.foldl (fun a d => a ++ ((s.deckle d).steps.filter (fun t =>
    let k := s.slot t.slot
    match k.images.find? (fun m => m.gen == t.gen) with
    | some m => decide (1 < m.modules) && (List.range m.modules).any (fun i => gone.contains (get 0 k.members i))
    | none => false)).map (fun t => (d, t.id))) []
  hit.foldl (fun s x => s.stepUnreachable x.1 x.2 order) s

/-- Deckle `d` has cross-module work: an exchange on the scoreboard, a ring session, or a session of an image over several
modules (R50). -/
def State.crossWork (s : State) (d : Nat) : Bool :=
  s.sched.ops.any (fun o => o.cross && o.deckle == d) || (s.openSessions d).any (fun i =>
    (s.session i).ring || (((s.slot (s.session i).model).current.map (fun m => decide (1 < m.modules))).getD false))

/-- Deckle `d` is told that its cross-module work cannot run: UNREACHABLE in its capture, and its VF vector 2 (R50, R390). -/
def State.tellUnreachable (s : State) (d : Nat) : State :=
  (s.toDeckle d { code := errCode .unreachable, tick := s.tick.now } (errCode .unreachable)).raiseVector (d + 1) 2

/-- Withdrawal from cross-module work, reported with a code (R50, R381). The operations of ring sessions end with
RING_MEMBER (R268), every other cross-module exchange with UNREACHABLE. DEDUCED: R50 reports the condition to the deckles
with cross-module work and R390 gives ALIGN_LOST to management only, so those deckles are given UNREACHABLE (entry 104). -/
def State.withdrawTorus (s : State) (e : Err) (p order : Nat) : State :=
  let s := { s with torus := { s.torus with member := 3, alignGood := 0 } }
  let s := (s.report { err := e, inst := p }).signal allPorts 1
  let told := allDeckles.filter s.crossWork
  let s := told.foldl State.tellUnreachable s
  let s := allDeckles.foldl (fun s d => s.failRing d order) s
  s.failCross order

/-- Proposals for tick `n` apply, as a union in which LEAVE overrides JOIN and LINK_DOWN overrides LINK_UP (R379,
R380). -/
def State.applyMembership (s : State) (n : Nat) : State :=
  let due := s.torus.proposals.filter (fun q => q.at_ == n)
  let s := { s with torus := { s.torus with proposals := s.torus.proposals.filter (fun q => decide (n < q.at_)) } }
  if due.isEmpty then s
  else
    let es := due.foldl (fun a q => a ++ q.entries) []
    let nodes := fun k => (es.filter (fun e => e.kind == k)).map (fun e => e.node)
    let links := fun k => (es.filter (fun e => e.kind == k)).map (fun e => (e.dim, e.node))
    let leaves := nodes 1
    let joins := (nodes 0).filter (fun x => !leaves.contains x)
    let downs := links 2
    let present := sortBy (fun a b => decide (a ≤ b))
      ((s.torus.present.filter (fun x => !leaves.contains x)) ++
        (joins.filter (fun x => !s.torus.present.contains x)).eraseDups)
    let kept := s.torus.downLinks.filter (fun l => !(links 3).contains l || downs.contains l)
    let downLinks := kept ++ (downs.filter (fun l => !kept.contains l)).eraseDups
    let me := s.reg .nodeId
    let member := if leaves.contains me then (if s.torus.member = 3 then 3 else 0)
      else if joins.contains me then 2 else s.torus.member
    let gone := leaves.filter (fun x => s.torus.present.contains x)
    let s := { s with torus := { s.torus with present, downLinks, member, epoch := s.torus.epoch + 1 } }
    s.retable.lostNodes gone 0

/-! ### Link sessions (R372 to R376) -/

/-- Lanes out of a port. -/
def Port.out (x : Port) : List Nat := x.drained ++ x.mapped.filter (fun l => !x.drained.contains l)

/-- LANES_UP. -/
def Port.lanesUp (x : Port) : List Nat :=
  if x.state == .session || x.state == .up then (List.range 32).filter (fun l => !x.out.contains l) else []

/-- The port goes to another state and its link session ends; a port that leaves UP without a pending LEAVE makes
LINK_DOWN be proposed (R376, R383). -/
def State.endLink (s : State) (p : Nat) (dest : PortState) : State :=
  let was := (s.port p).state
  let s := s.modPort p (fun x => { x with state := dest, key := none, txSeq := 0, rxSeq := 0, authTick := 0, time := {}
                                          xfers := [], unacked := [], timeOut := none, refused := false })
  if was = .up ∧ !s.leavePending p then s.proposeLink p false else s

/-- A third lane is out: the port is FAILED (R358). -/
def State.portFail (s : State) (p : Nat) : State :=
  (s.report { err := .portFail, inst := p }).endLink p .failed

/-- A lane fails and is mapped out (R356). -/
def State.mapOut (s : State) (p lane : Nat) : State :=
  let x := s.port p
  if x.mapped.contains lane ∨ !(x.state = .session ∨ x.state = .up) then s
  else
    let s := s.modPort p (fun x => { x with mapped := x.mapped ++ [lane] })
    let s := s.report { err := .laneMapout, inst := p, detail := lane }
    if 2 < (s.port p).out.length then s.portFail p else s

def execLaneFail (p : Fin 6) (lane : Fin 32) (s : State) : Out := .next (s.mapOut p.val lane.val)

/-- PORT_EN: 0 ends the session and the port is DOWN at once; 1 clears every counter (R592, R593). -/
def State.writePortEn (s : State) (p : Nat) (on : Bool) : State :=
  let x := s.port p
  if on then
    if x.enable then s
    else s.modPort p (fun x => { x with
      enable := true, fecCorr := 0, fecUncorr := 0, retry := 0, authFail := 0, txFrames := 0, rxFrames := 0, fwdFrames := 0
      symLast := [], symNow := [] })
  else (s.endLink p .down).modPort p (fun x => { x with enable := false, mapped := [], testing := [] })

def execPortEn (p : Fin 6) (value : Bool) (s : State) : Out := .next (s.writePortEn p.val value)

/-- PORT_LIGHT_RECEIVED: an enabled port that was DOWN trains. -/
def execPortLightReceived (p : Fin 6) (s : State) : Out :=
  .next (s.modPort p.val (fun x => if x.enable && x.state == .down then { x with state := .training } else x))

/-- PORT_TRAINED: with 30 lanes or more the port enters SESSION, the others count as mapped out; with fewer it retries
(R372). -/
def execPortTrained (p : Fin 6) (lanes : Nat) (s : State) : Out :=
  let bad := (List.range 32).filter (fun l => !bit lanes l)
  .next (s.modPort p.val (fun x =>
    if x.state == .training && decide (bad.length ≤ 2) then { x with state := .session, mapped := bad } else x))

/-- What R373 finds wrong with a neighbour. -/
def State.neighBad (s : State) (p : Nat) (n : NeighIn) : Option Err :=
  if !n.chainOk ∨ !n.sigOk ∨ !n.debugLocked ∨ (s.reg .attest p = 1 ∧ n.digests ≠ s.imageDigests) then some .attestFail
  else if s.dimSize (p / 2) = 1 ∨ n.torusId ≠ s.reg .torusId ∨
      n.dims ≠ (s.dimSize 0, s.dimSize 1, s.dimSize 2) ∨ n.period ≠ s.tick.period ∨
      n.proto ≠ (s.activeImage 6).proto ∨ n.nodeId ≠ s.neighbour p then some .neighbourCfg
  else none

/-- This end's messages of a session: a fresh nonce, its configuration, a fresh ephemeral key, and its signature of the
transcript with its alias key (R373). Answers the ephemeral private scalar. -/
def State.linkHello (s : State) (p : Nat) (n : NeighIn) : Nat × State :=
  let (nonce, s) := s.draw
  let (k, s) := s.draw
  let e := scalarOf (beBytes 48 k.toNat)
  let (sig, s) := s.sign s.sec.alias_ (sha384 n.transcript)
  (e, s.modPort p (fun x => { x with hello := some {
    nonce := beBytes 48 nonce.toNat, node := s.reg .nodeId, torus := s.reg .torusId
    dims := (s.dimSize 0, s.dimSize 1, s.dimSize 2), period := s.tick.period, proto := (s.activeImage 6).proto
    pub := ecPublic e, sig } }))

/-- Session keys: one key and one salt per direction; the end whose messages come first sends under the first (R374). -/
def State.linkKeys (s : State) (p e : Nat) (n : NeighIn) : State :=
  let b := hkdf384 (ecdhShared e n.pubKey) (sha384 n.transcript) (ascii "FELT") 72
  let one := (slice b 0 32, field b 64 4)
  let two := (slice b 32 32, field b 68 4)
  let (tx, rx) := if n.lower then (two, one) else (one, two)
  s.modPort p (fun x => { x with key := some (tx.1, tx.2, rx.1, rx.2), txSeq := 0, rxSeq := 0, unacked := [] })

/-- LINK_SESSION: the messages and checks of R373; the port reaches UP with its keys, or stays in SESSION until its retry. -/
def State.linkSession (s : State) (p : Nat) (n : NeighIn) : State :=
  if (s.port p).state ≠ .session ∨ (s.port p).refused then s
  else if !n.entropy then s.keyGenFailed
  else
    let (e, s) := s.linkHello p n
    match s.neighBad p n with
    | some e => (s.report { err := e, inst := p }).modPort p (fun x => { x with refused := true })
    | none =>
        let s := (s.linkKeys p e n).modPort p (fun x => { x with state := .up, neighId := n.nodeId, time := {}, xfers := [] })
        if s.torus.downLinks.contains (s.portLink p) then s.proposeLink p true else s

def execLinkSession (p : Fin 6) (neigh : NeighIn) (s : State) : Out := .next (s.linkSession p.val neigh)

/-- SESSION_RETRY: 1 s after a failed check the port returns to TRAINING. -/
def execSessionRetry (p : Fin 6) (s : State) : Out :=
  .next (s.modPort p.val (fun x => if x.state == .session && x.refused then { x with state := .training, refused := false } else x))

/-- REKEY_FAIL: the session ends (R375). -/
def State.rekeyFail (s : State) (p : Nat) : State :=
  if (s.port p).state ≠ .up then s else (s.report { err := .rekeyFail, inst := p }).endLink p .session

def execRekeyFail (p : Fin 6) (s : State) : Out := .next (s.rekeyFail p.val)

/-- REKEY_DUE: new keys inside the session, numbering from 0; a neighbour that no longer attests ends the session
(R375, R391). -/
def execRekeyDue (p : Fin 6) (neigh : NeighIn) (s : State) : Out :=
  .next (if (s.port p.val).state ≠ .up ∨ !neigh.entropy then s
         else if !neigh.chainOk ∨ !neigh.sigOk ∨ !neigh.debugLocked then s.rekeyFail p.val
         else
           let (e, s) := s.linkHello p.val neigh
           s.linkKeys p.val e neigh)

/-! ### Lane drain (R357) -/

/-- LANE_DRAIN: newly named lanes leave service, cleared ones are tested; refused under R18 or beyond two lanes out. -/
def State.writeDrain (s : State) (p mask : Nat) : State :=
  let x := s.port p
  let want := maskBits 32 mask
  let adds := want.filter (fun l => !x.drained.contains l)
  let drained := x.drained ++ adds
  if !adds.isEmpty ∧ s.refused18 then s
  else if !adds.isEmpty ∧ 2 < (Port.out { x with drained }).length then s.corrected .laneLimit p none
  else s.modPort p (fun x => { x with drainReg := mask, drained, testing := drained.filter (fun l => !want.contains l) })

def execLaneDrain (p : Fin 6) (mask : Nat) (s : State) : Out := .next (s.writeDrain p.val mask)

/-- LANE_TEST_PASS: a released lane is mapped back in. -/
def execLaneTestPass (p : Fin 6) (lane : Fin 32) (s : State) : Out :=
  .next (s.modPort p.val (fun x =>
    if x.testing.contains lane.val then
      { x with testing := x.testing.filter (· != lane.val), drained := x.drained.filter (· != lane.val)
               mapped := x.mapped.filter (· != lane.val) }
    else x))

/-! ### Frames (R351 to R354, R365 to R367, R385) -/

/-- EXCH_ID of an operation that takes a transfer from another module. -/
def OpRec.takes (o : OpRec) : Option Nat :=
  match o.tmpl with
  | some t => (match t.exch with
    | .recvFrom _ e => if o.cross then some e else none
    | _ => none)
  | none => none

/-- The lower VC of a routed class: exchanges have 1 and 2, bulk 3 and 4 (R360). -/
def lowerVc (vc : Nat) : Nat := if vc ≤ 2 then 1 else 3

/-- The hop by port `q` crosses the dateline of its dimension: from S − 1 to 0 in the + direction, from 0 to S − 1 in the −
direction (R365). -/
def State.dateline (s : State) (q : Nat) : Bool :=
  let c := coord (s.reg .nodeId) (q / 2)
  if q % 2 = 0 then c + 1 == s.dimSize (q / 2) else c == 0

/-- The VC on which a frame leaves by port `q`: the lower one of its class where it enters the network or turns into the
dimension of `q`, the upper one from the hop over the dateline to the end of the dimension (R365). `via` is the port it
arrived by. -/
def State.outVc (s : State) (via : Option Nat) (vc q : Nat) : Nat :=
  let here := match via with
    | some p => if p / 2 = q / 2 then vc else lowerVc vc
    | none => lowerVc vc
  if s.dateline q then lowerVc vc + 1 else here

/-- Bytes in frames of at most 4,000 each (R351); at most `n` frames. -/
def framesOf : Nat → Bytes → List Bytes
  | 0, _ => []
  | n + 1, b => if b.isEmpty then [] else b.take 4000 :: framesOf n (b.drop 4000)

/-- A transfer of class `vc` leaves for a node by its route: its descriptor, then its bytes (R364, R365, R367). -/
def State.sendTransfer (s : State) (vc deckle node : Nat) (bs : Bytes) : State :=
  match s.routePort node with
  | none => s
  | some q =>
    let l := framesOf (bs.length / 4000 + 1) bs
    l.zipIdx.foldl (fun s x => s.sendFrame q
      { vc := s.outVc none vc q, first := x.2 == 0, last := x.2 + 1 == l.length, deckle, dest := node
        src := s.reg .nodeId, seq := 0, payload := x.1 }) s

/-- A transfer is refused: a CONTROL frame with one byte goes back to its source on the same VC class (R385, entry 111). -/
def State.sendRefusal (s : State) (f : FrameIn) : State :=
  match s.routePort f.src with
  | none => s
  | some q => s.sendFrame q { kind := 2, vc := s.outVc none f.vc q, first := true, last := true, deckle := f.deckle, dest := f.src
                              src := s.reg .nodeId, seq := 0, payload := leBytes 1 1 }

/-- Hold a transfer's bytes until its exchange completes, within the resources of the same deckle (R42, R49, R385). -/
def State.deliver (s : State) (p : Nat) (f : FrameIn) : State :=
  let key := f.src * 8 + f.vc
  let none_ : Xfer := { addr := 0, ok := false }
  let first := f.first
  let typ := field f.payload 0 1
  let x : Xfer := if first then
      { addr := field f.payload 8 8, ok := typ == 1 && field f.payload 16 8 == s.tick.now && s.torus.member == 2
        exch := field f.payload 24 4 }
    else get none_ (s.port p).xfers key
  let data := if first then f.payload.drop 32 else f.payload
  let op := s.sched.ops.find? (fun o => o.deckle == f.deckle && o.takes == some x.exch)
  let v := if op.isSome then s.webCheck f.deckle x.addr data.length true else .ok
  let ok := x.ok && v == .ok
  let s := if ok then { s with sched := { s.sched with
      staged := s.sched.staged ++ [{ deckle := f.deckle, exch := x.exch, addr := x.addr, data }] } } else s
  let s := if x.ok && v != .ok then
      let named := match op with
        | some o => s.opSessions o
        | none => []
      (s.report { err := .xferForeign, inst := p, deckle := some f.deckle, addr := x.addr, named, order := s.tail }).sendRefusal f
    else s
  let next : Xfer := if f.last then none_ else { x with addr := x.addr + data.length, ok }
  s.modPort p (fun y => { y with xfers := put none_ y.xfers key next })

/-- A frame for another node leaves by its route, unless the module does not forward (R365, R366, R381, R382). -/
def State.forward (s : State) (p : Nat) (f : FrameIn) : State :=
  if s.torus.member ≠ 2 then s
  else match s.routePort f.dest with
    | none => s
    | some q =>
      (s.modPort p (fun x => { x with fwdFrames := (x.fwdFrames + 1) % 2 ^ 64 })).sendFrame q
        { kind := f.kind, vc := s.outVc (some p) f.vc q, first := f.first, last := f.last, deckle := f.deckle
          dest := f.dest, src := f.src, seq := 0, payload := f.payload }

/-- The corrected symbols of a frame, each a byte and its lane; a lane over LANE_ERR_LIM in this tick is mapped out (R356). -/
def State.takeSymbols (s : State) (p : Nat) (l : List (Nat × Nat)) : State :=
  l.foldl (fun s x =>
    let s := s.modPort p (fun y => { y with
      fecCorr := (y.fecCorr + 1) % 2 ^ 64, symNow := put 0 y.symNow x.2 (satAdd 32 (get 0 y.symNow x.2) 1) })
    if s.reg .laneErrLim p < get 0 (s.port p).symNow x.2 then s.mapOut p x.2 else s) s

/-- A codeword of the frame has more than two bytes in error: byte k belongs to codeword k mod 16 (R352). -/
def fecBad (f : FrameIn) : Bool :=
  (List.range 16).any (fun c => decide (2 < (f.errs.filter (fun e => e.1 % 16 == c)).length))

/-- What a frame says of the frames sent the other way: those acknowledged leave the replay buffer, and after a discarded
one every frame left is sent again as it was (R354). -/
def State.takeAck (s : State) (p ack : Nat) (replay : Bool) : State :=
  s.modPort p (fun x =>
    let left := x.unacked.drop (x.unacked.length - (x.txSeq - ack))
    { x with unacked := left, sent := if replay then x.sent ++ left else x.sent
             retry := if replay then satAdd 32 x.retry left.length else x.retry })

/-- Control of a link on VC0 from the neighbour: a withdrawal, after which its removal is proposed as a failure change, or a
request to join, after which its JOIN is (R381, R382). -/
def State.linkControl (s : State) (p : Nat) (bs : Bytes) : State :=
  let n := (s.port p).neighId
  match field bs 0 1 with
  | 1 => if s.torus.present.contains n then s.propose false [{ kind := 1, dim := 0, node := n }] else s
  | 2 => if s.torus.present.contains n then s else s.propose true [{ kind := 0, dim := 0, node := n }]
  | _ => s

/-- FRAME_RECEIVE: one frame, decoded and authenticated. -/
def State.frameIn (s : State) (p : Nat) (f : FrameIn) : State :=
  let x := s.port p
  if !(x.state = .session ∨ x.state = .up) ∨ s.reloading (64 + p) then s
  else if fecBad f then s.modPort p (fun x => { x with fecUncorr := satAdd 32 x.fecUncorr 1 })
  else
    let s := s.takeSymbols p f.errs
    if f.tagBad then
      let s := s.modPort p (fun x => { x with authFail := satAdd 32 x.authFail 1, authTick := x.authTick + 1 })
      if 16 ≤ (s.port p).authTick ∧ (s.port p).state = .up then (s.report { err := .linkAuth, inst := p }).endLink p .session
      else s
    else if f.seq % 2 ^ 32 ≠ (s.port p).rxSeq % 2 ^ 32 then s
    else
      let s := s.modPort p (fun x => { x with rxSeq := x.rxSeq + 1, rxFrames := (x.rxFrames + 1) % 2 ^ 64 })
      let s := s.takeAck p f.ack f.replay
      if (s.port p).state ≠ .up ∨ f.kind = 0 ∨ 4 < f.vc then s
      else if f.vc = 0 then (if f.kind = 2 then s.linkControl p f.payload else s)
      else if f.dest = s.reg .nodeId then (if f.kind = 1 then s.deliver p f else s)
      else s.forward p f

def execFrameReceive (p : Fin 6) (frame : FrameIn) (s : State) : Out := .next (s.frameIn p.val frame)

/-! ### Tick alignment (R48, R50, R368 to R371, R381, R382) -/

/-- At a strobe each up port sends a TIME frame (R368). -/
def State.sendTimes (s : State) : State :=
  allPorts.foldl (fun s p => s.modPort p (fun x => if x.state == .up then
    { x with timeOut := some { tick := s.tick.now, epoch := s.torus.epoch, digest := s.tableDigest, err := s.torus.alignErr
                               t := x.time.tHere } } else x)) s

/-- TIME_FRAME: φ and δ, the module's error by its parent, the comparison of tables; the first frame of a neighbour that
is not present, or its first after 2 ticks without one, makes its JOIN be proposed (R382, R383). -/
def State.timeFrame (s : State) (p : Nat) (f : TimeIn) : State :=
  let x := s.port p
  if x.state ≠ .up then s
  else
    let digest := s.tableDigest
    let worse := decide (s.torus.epoch < f.epoch) || (decide (s.torus.epoch = f.epoch) && decide (f.digest ≠ digest))
    let t : TimeInfo := { tick := s.tick.now + 1, nTick := f.tick, epoch := f.epoch, digest := f.digest, err := f.err
                          tHere := f.tHere, tThere := f.tThere, phi := f.tThere - f.tHere, delta := f.tThere + f.tHere
                          differ := if worse then x.time.differ + 1 else 0 }
    let s := s.modPort p (fun x => { x with time := t })
    let s := if s.torus.parent = some p then
        { s with torus := { s.torus with alignErr := f.err + divRne t.phi 4 } } else s
    let back := decide (x.time.tick = 0) || decide (x.time.tick + 2 ≤ s.tick.now + 1)
    let s := if back ∧ !s.torus.present.contains x.neighId then
        s.propose true [{ kind := 0, dim := 0, node := x.neighId }] else s
    if s.torus.member = 2 ∧ 2 ≤ t.differ then s.withdrawTorus .epochMismatch p s.tail else s

def execTimeFrame (p : Fin 6) (frame : TimeIn) (s : State) : Out := .next (s.timeFrame p.val frame)

/-- TIME_FRAME_MISSING: no TIME frame for 2 ticks from a member on an up link; its LEAVE is proposed (R383). -/
def execTimeFrameMissing (p : Fin 6) (s : State) : Out :=
  let x := s.port p.val
  .next (if x.state ≠ .up ∨ !s.torus.present.contains x.neighId ∨ s.tick.now + 1 < x.time.tick + 2 then s
         else s.propose false
           [{ kind := 1, dim := 0, node := x.neighId }])

/-- Every up port's neighbour has shown this module's tables. -/
def State.tablesMatch (s : State) : Bool :=
  allPorts.all (fun p =>
    let x := s.port p
    x.state != .up || (x.time.epoch == s.torus.epoch && x.time.digest == s.tableDigest))

/-- The slip of this tick and the counts behind withdrawal and rejoining, from the TIME frames of phase 1 (R370, R371). -/
def State.slipTick (s : State) : State :=
  if s.torus.member = 0 then s
  else
    let e := s.torus.alignErr
    let fresh := match s.torus.parent with
      | some p => (s.port p).time.tick == s.tick.now + 1
      | none => true
    let n := s.torus.slips.length
    let slip := if fresh then -(clampInt (-8) 8 (divRne e 20))
      else if n = 0 then 0 else divRne (s.torus.slips.foldl (· + ·) 0) n
    let slips := (s.torus.slips ++ [slip]).drop (n + 1 - 64)
    let good := decide (e.natAbs ≤ 100) && s.tablesMatch
    { s with torus := { s.torus with
      slip, slips, alignBad := if 200 < e.natAbs then s.torus.alignBad + 1 else 0
      alignGood := if good then s.torus.alignGood + 1 else 0 } }

/-- ALIGN_LOST: the error has exceeded 200 ns for 16 consecutive ticks (R50). -/
def execAlignLost (s : State) : Out :=
  .next (if s.torus.member = 2 ∧ 16 ≤ s.torus.alignBad then s.withdrawTorus .alignLost (s.torus.parent.getD 0) s.tail else s)

/-- AUTO_REJOIN: a withdrawn module joins again through the neighbour on port `p`, whose tables it holds. -/
def execAutoRejoin (p : Fin 6) (s : State) : Out :=
  .next (if s.torus.member = 3 ∧ s.reg .joinAuto = 1 ∧ 64 ≤ s.torus.alignGood ∧ (s.port p.val).state = .up then
    ({ s with torus := { s.torus with member := 1 } }).signal [p.val] 2 else s)

/-- FIRST_ALIGNED_STROBE: a module that waits to join starts its tick at a strobe aligned to the neighbour on port `p`,
takes its tick number and the tables it sent (R382). -/
def execFirstAlignedStrobe (p : Fin 6) (present : List Nat) (down : List (Nat × Nat)) (s : State) : Out :=
  .next (if s.torus.waiting ∧ (s.port p.val).state = .up then
    let t := (s.port p.val).time
    let s := { s with
      torus := { s.torus with waiting := false, member := 1, present := sortBy (fun a b => decide (a ≤ b)) present
                              downLinks := down, epoch := t.epoch }
      tick := { s.tick with running := true, started := true, starting := true, stopReq := false, now := t.nTick } }
    s.retable
  else s)

/-! ### Exchanges (R49, R367, R460) -/

/-- CAP_WAIT_SIGNAL: the peer waits for its cap, so the exchange is held and will be withdrawn without counting. -/
def execCapWaitSignal (d : Fin 16) (seq : Nat) (s : State) : Out :=
  .next { s with sched := { s.sched with ops := s.sched.ops.map (fun o =>
    if o.deckle == d.val && o.seq == seq && o.cross then { o with peerWaits := true } else o) } }

end Sys2Proof.Machine
end

