-- ==== Sys2Proof/Machine/Switch.lean ====
section
/-! DEFINITION. What a slot's images do once loaded: switch, rewrite, drain, unload, discard, the stuck-bit map, and the
re-placement of a vat's tiles (R334, R338 to R345, R546, R549, R603). -/
namespace Sys2Proof.Machine

/-! ### Requests and steps of a slot -/

/-- A PREFILL or GENERATE. -/
def Request.works (r : Request) : Bool := r.kind == .prefill || r.kind == .generate

/-- The sessions of slot `k`, every deckle's, ascending. -/
def State.slotSessions (s : State) (k : Nat) : List Nat :=
  (s.sessions.filter (fun x => x.2.state != .closed && x.2.model == k)).map (fun x => x.1)

/-- A step is pinned to generation `g` of slot `k`. -/
def State.stepPinned (s : State) (k g : Nat) : Bool :=
  allDeckles.any (fun d => (s.deckle d).steps.any (fun t => t.slot == k && t.gen == g))

/-- Session `i` has a request that a DRAIN switch pinned. -/
def Session.drains (x : Session) : Bool :=
  (x.active.map (fun r => r.pin.isSome)).getD false || (x.waiting.map (fun r => r.pin.isSome)).getD false

/-- Deckle `d` still has a request pinned to slot `k`'s RETIRING image. -/
def State.draining (s : State) (k d : Nat) : Bool :=
  (s.slotSessions k).any (fun i => s.ownerOf i == some d && (s.session i).drains)

/-- The requests of session `i` that `f` accepts end with REAM_CHANGED (R341, R603). -/
def State.reamChanged (s : State) (i : Nat) (f : Request → Bool) : State :=
  let hitW := ((s.session i).waiting.map f).getD false
  let s := if hitW then s.endWaiting i 4 0 0 else s
  let hitA := ((s.session i).active.map f).getD false
  let s := if hitA then s.endActive i 4 0 0 false 0 else s
  if hitA then s.startWaiting i 0 else s

/-- A step left without its image may not go on: its requests end with REAM_CHANGED and ERR_CODE QUIRE_BIND (R342). -/
def State.quireGone (s : State) (i order : Nat) : State :=
  (s.endActive i 4 (errCode .quireBind) 0 false order).startWaiting i order

/-! ### Groups of a slot -/

/-- The groups that hold tiles of slot `k`: vat and physical number. -/
def State.slotGroups (s : State) (k : Nat) : List (Nat × Nat) :=
  s.groupList.filter (fun x => (s.group x.1 x.2).modelSlot == k)

/-- The scratchpad layout of a vat's SCR page follows the image whose tiles it holds; reset without any (R589). -/
def State.setLayout (s : State) (v : Nat) (p : Option Plan) : State :=
  if (s.groupsOf v).any (fun q => (s.group v q).modelSlot != 16) then
    match p with
    | none => s
    | some p => s.modVat v (fun x => { x with
        accBase := 0, accSize := p.accSize, corrBase := p.accSize, corrSize := p.corrSize
        stageBase := p.accSize + p.corrSize, stageSize := p.stageSize })
  else s.modVat v (fun x => { x with accBase := 0, accSize := 3584, corrBase := 3584, corrSize := 1800
                                     stageBase := 5384, stageSize := 760 })

/-- The home group of logical group `l` of vat `h` has its number back: nothing is lent any more. -/
def State.takeBack (s : State) (h l : Nat) : State :=
  match (s.groupsOf h).find? (fun p => (s.group h p).lent == some l) with
  | none => s
  | some p => s.modGroup h p (fun g => { g with lent := none, logical := l
                                                state := if g.state == .spare then .inService else g.state })

/-- The groups of slot `k` hold nothing any more: a home group keeps its logical number, a borrowed one returns to
SPARE (R343, R603). -/
def State.emptySlotGroups (s : State) (k : Nat) : State :=
  let gs := s.slotGroups k
  let s := gs.foldl (fun s x => match (s.group x.1 x.2).homeVat with
    | some h => s.takeBack h (s.group x.1 x.2).logical
    | none => s) s
  let s := gs.foldl (fun s x => s.modGroup x.1 x.2 (fun g =>
    if g.homeVat.isSome then { g.emptied with state := if g.state == .retired then .retired else .spare
                                              rewriting := false, readyNext := none }
    else { g with modelSlot := 16, tiles := [] })) s
  (allVats.filter (fun v => gs.any (fun x => x.1 == v))).foldl (fun s v => s.setLayout v none) s

/-! ### Switch (R338, R546, R549) -/

/-- A vat that PLACE names is OFF or CALIBRATING (R549). -/
def State.placeDown (s : State) (m : Image) : Bool :=
  m.mine.any (fun p => (s.vat p.vat).state == .off || (s.vat p.vat).state == .calibrating)

/-- SWITCH: a switch descriptor has been read; it takes effect at the next boundary (R338). DESIGN CHOICE: one that would
replace the resident ream of a module in service while a condition of R18 holds is refused with SLOT_BUSY; R16 and R18 make
it an in-service change and name no code (entry 123). -/
def execSwitch (desc : HostRead) (s : State) : Out :=
  .next (s.withDesc desc 2 (fun b =>
    let k := dSlot b
    let x := s.slot k
    if s.slotBusy k ∨ (x.current.isSome ∧ s.tick.running ∧ s.refused18) then s.reamRefused b 0 .slotBusy
    else if (x.incoming.map (fun m => m.state == .ready)).getD false then
      s.modSlot k (fun x => { x with op := some { op := 2, desc := b, due := some s.tick.now } })
    else s.reamRefused b 0 .reamFormat))

/-- Pin the requests of the DRAIN deckles of slot `k` to generation `g`; the deckles that have any (R338). -/
def State.pinDrains (s : State) (k g : Nat) : List Nat × State :=
  let ds := allDeckles.filter (fun d => s.reg .reamPolicy d == 1)
  let hit := (s.slotSessions k).filter (fun i => match s.ownerOf i with
    | some d => ds.contains d
    | none => false)
  let pin := fun r : Request => if r.works && r.pin.isNone then { r with pin := some g } else r
  let s := hit.foldl (fun s i => s.modSession i (fun x =>
    { x with active := x.active.map pin, waiting := x.waiting.map pin })) s
  (ds.filter (fun d => s.draining k d), s)

/-- Both images are turnover images, so both serve side by side (R340). -/
def sideBySide (old : Option Image) (new : Image) : Bool :=
  new.turnover && (old.map (fun m => m.turnover)).getD true

/-- The switch of slot `k` takes effect at a boundary or self-strobe (action 5 of R34). -/
def State.switchEffect (s : State) (k : Nat) : State :=
  let x := s.slot k
  match x.op, x.incoming with
  | some op, some m =>
    if op.op ≠ 2 ∨ op.due.isNone then s
    else if !m.turnover ∧ s.placeDown m then
      (s.modSlot k (fun x => { x with op := none })).reamRefused op.desc 0 .placeClash
    else
      let old := x.current.map (fun i => { i with state := .retiring })
      let (ds, s) := match old with
        | some i => s.pinDrains k i.gen
        | none => ([], s)
      let side := sideBySide old m
      let s := s.modSlot k (fun x => { x with
        retiring := old, current := some { m with state := .current }, incoming := none, mask := m.mask
        switchTick := s.tick.now, drained := ds, rewriteDue := !side, unplaced := false, moving := false
        op := if side then none else some { op with due := none } })
      if side then s.pfStatus op.desc 0 0 else s
  | _, _ => s

/-- UNLOAD: the descriptor has been read; it takes effect at the next boundary (R603). -/
def execUnload (desc : HostRead) (s : State) : Out :=
  .next (s.withDesc desc 4 (fun b =>
    if s.slotBusy (dSlot b) then s.reamRefused b 0 .slotBusy
    else s.modSlot (dSlot b) (fun x => { x with op := some { op := 4, desc := b, due := some s.tick.now } })))

/-- The unload of slot `k` takes effect. -/
def State.unloadEffect (s : State) (k : Nat) : State :=
  let x := s.slot k
  match x.op with
  | none => s
  | some op =>
    if op.op ≠ 4 then s
    else
      let s := s.modSlot k (fun x => { lastGen := x.lastGen })
      let s := (s.slotSessions k).foldl (fun s i => s.reamChanged i Request.works) s
      let s := s.release (x.images.foldl (fun a m => a ++ m.pages) [])
      (s.emptySlotGroups k).pfStatus op.desc 0 0

/-- Action 5 of R34 for every slot. -/
def State.slotEffects (s : State) : State :=
  allSlots.foldl (fun s k => (s.switchEffect k).unloadEffect k) s

/-! ### Rewrite (R334, R339, R340) -/

/-- The RETIRING image of slot `k` leaves the stacks. -/
def State.freeRetiring (s : State) (k : Nat) : State :=
  match (s.slot k).retiring with
  | none => s
  | some m => (s.release m.pages).modSlot k (fun x => { x with retiring := none, rewriteEnd := false })

/-- Deckle `d`'s drain of slot `k` has reached its limit: the requests still pinned to the RETIRING image end with
REAM_CHANGED (R341). -/
def State.expireDrain (s : State) (k d : Nat) : State :=
  let x := s.slot k
  if x.drained.contains d ∧ x.switchTick + s.reg .drainLimit d ≤ s.tick.now then
    let hit := (s.slotSessions k).filter (fun i => s.ownerOf i == some d && (s.session i).drains)
    let s := hit.foldl (fun s i => s.reamChanged i (fun r => r.pin.isSome)) s
    s.modSlot k (fun x => { x with drained := x.drained.filter (· != d) })
  else s

/-- What a boundary finds due of the slots: a drain whose limit has come ends its requests, a finished rewrite serves and
frees the old image, a turnover image no step or drained request is pinned to is freed, a drain that has ended is struck
off, and a rewrite whose conditions hold starts. -/
def State.slotBoundary (s : State) : State :=
  allSlots.foldl (fun s k =>
    let s := (s.slot k).drained.foldl (fun s d => s.expireDrain k d) s
    let s := s.modSlot k (fun x => { x with drained := x.drained.filter (fun d => s.draining k d) })
    let x := s.slot k
    let s := if x.rewriteEnd then (s.freeRetiring k).modSlot k (fun x => { x with rewriteEnd := false }) else s
    let x := s.slot k
    let busy := match x.retiring with
      | some m => s.stepPinned k m.gen || !x.drained.isEmpty
      | none => false
    if x.rewriteDue ∧ !busy then s.modSlot k (fun x => { x with rewriteDue := false, rewriting := true })
    else if x.retiring.isSome ∧ !x.rewriteDue ∧ !x.rewriting ∧ !busy then s.freeRetiring k
    else s) s

/-- Write the tiles of one logical group of an image into the group that serves it. -/
def State.writeGroup (s : State) (k : Nat) (m : Image) (v l : Nat) : State :=
  match s.locate v l with
  | none => s
  | some (w, p) =>
    let tiles : SMap Tile := (m.mine.filter (fun q => q.vat == v && q.logical == l)).foldl (fun a q =>
      match s.tileRecord m q.tile with
      | none => a
      | some (b, outs) => ins a q.slot (tileOf b outs k m.gen)) []
    s.modGroup w p (fun g => { g with modelSlot := k, tiles })

/-- The logical groups that PLACE assigns to this member. -/
def Image.logicals (m : Image) : List (Nat × Nat) :=
  m.mine.foldl (fun a p => if a.contains (p.vat, p.logical) then a else a ++ [(p.vat, p.logical)]) []

/-- Write every tile of a resident image into the arrays (R334). -/
def State.writeImage (s : State) (k : Nat) (m : Image) : State :=
  let s := s.emptySlotGroups k
  let s := m.logicals.foldl (fun s x => s.writeGroup k m x.1 x.2) s
  (allVats.filter (fun v => m.mine.any (fun p => p.vat == v))).foldl (fun s v => s.setLayout v m.plan) s

/-- REWRITE_COMPLETE: the arrays hold the new image, each row verified under R111; it serves from the next boundary, at
which the RETIRING pages are freed, and at once while no tick runs (R339, R546). `stuck` names the stuck cells found, by
vat and physical group. -/
def execRewriteComplete (slot : Fin 16) (stuck : List (Nat × Nat × List StuckIn)) (s : State) : Out :=
  let k := slot.val
  let x := s.slot k
  .next (match x.current with
    | none => s
    | some m =>
      if !x.rewriting then s
      else
        let s := if m.turnover then s.emptySlotGroups k else s.writeImage k m
        let s := (s.slotGroups k).foldl (fun s g =>
          s.verifyGroup g.1 g.2 ((stuck.filter (fun y => y.1 == g.1 && y.2.1 == g.2)).foldl (fun a y => a ++ y.2.2) [])) s
        let s := s.modSlot k (fun x => { x with rewriting := false, rewriteEnd := true, op := none })
        let moved := if m.turnover then 0 else 8192 * m.mine.length
        let s := match x.op with
          | some op => if op.op = 2 then s.pfStatus op.desc moved 0 else s
          | none => s
        if s.tick.running then s
        else (s.freeRetiring k).modSlot k (fun x => { x with rewriteEnd := false }))

/-- DRAIN_LIMIT_EXPIRY. -/
def execDrainLimitExpiry (slot d : Fin 16) (s : State) : Out := .next (s.expireDrain slot.val d.val)

/-! ### DISCARD and STUCK_EXPORT (R328, R345) -/

/-- DISCARD: removes a READY image, or stops a running load as if it had failed. -/
def execDiscard (desc : HostRead) (s : State) : Out :=
  .next (s.withDesc desc 3 (fun b =>
    let k := dSlot b
    let x := s.slot k
    match x.op with
    | some op =>
      if op.op = 1 ∨ op.op = 6 then (s.failLoad k .discarded).pfStatus b 0 0
      else s.reamRefused b 0 .slotBusy
    | none => match x.incoming with
      | some m => ((s.release m.pages).modSlot k (fun x => { x with incoming := none })).pfStatus b 0 0
      | none => s.pfStatus b 0 0))

/-- The stuck cells of a slot's CURRENT tiles in the order of R345: tile, row, column, value, NEW. -/
def State.stuckMap (s : State) (k gen : Nat) : List (Nat × Nat × Nat × Bool × Bool) :=
  let all := (s.slotGroups k).foldl (fun a x => (s.group x.1 x.2).tiles.foldl (fun a t =>
    if t.2.gen = gen then a ++ t.2.stuck.map (fun c => (t.2.index, c.row, c.col, c.held, c.fresh)) else a) a) []
  sortBy (fun a b => decide ((a.1 * 256 + a.2.1) * 512 + a.2.2.1 ≤ (b.1 * 256 + b.2.1) * 512 + b.2.2.1)) all

/-- One entry of the map. -/
def stuckEntry (e : Nat × Nat × Nat × Bool × Bool) : Bytes :=
  leBytes 4 e.1 ++ leBytes 2 (e.2.2.1 + 32768 * b2n e.2.2.2.1) ++ leBytes 1 e.2.1 ++ leBytes 1 (b2n e.2.2.2.2)

/-- STUCK_EXPORT: the stuck-bit map of the CURRENT image goes to the host buffer, as much of it as the buffer holds. -/
def execStuckExport (desc : HostRead) (s : State) : Out :=
  .next (s.withDesc desc 5 (fun b =>
    let k := dSlot b
    let x := s.slot k
    if s.slotBusy k then s.reamRefused b 0 .slotBusy
    else if !s.mayIssue 0 then s
    else
      let gen := (x.current.map (fun m => m.gen)).getD 0
      let place := (x.current.map (fun m => slice m.manifest 0x40 48)).getD (List.replicate 48 0#8)
      let l := if x.current.isSome then s.stuckMap k gen else []
      let fit := l.take ((dLen b - 128) / 8)
      let head := leBytes 4 0x54534D53 ++ leBytes 2 1 ++ leBytes 2 0 ++ leBytes 4 l.length ++ leBytes 4 0 ++
        leBytes 8 gen ++ place ++ List.replicate 56 0#8
      let data := (head ++ fit.foldr (fun e a => stuckEntry e ++ a) []).take (dLen b)
      let s := s.post 0 (dAddr b) data
      let s := (s.slotGroups k).foldl (fun s g => s.modGroup g.1 g.2 (fun g =>
        { g with tiles := g.tiles.map (fun t => (t.1, { t.2 with stuck := t.2.stuck.map (fun c =>
          { c with fresh := false }) })) })) s
      s.pfStatus b data.length 0))

/-! ### Re-placement (R343, R344) -/

/-- The vats that can receive a moved group, in the order of R343: the vat's own die, then the others. -/
def State.receivers (s : State) (v : Nat) : List Nat :=
  let run := allVats.filter (fun w => w != v && (s.vat w).state == .run)
  run.filter (fun w => dieOf w == dieOf v) ++ run.filter (fun w => dieOf w != dieOf v)

/-- Move group `p` of vat `v` to a spare of the first vat that keeps 16; none without one. -/
def State.moveGroup (s : State) (v p : Nat) : Option State :=
  match (s.receivers v).find? (fun w => decide (16 < (s.spares w).length)) with
  | none => none
  | some w => (s.pickSpare w).map (fun q =>
      let k := (s.group v p).modelSlot
      let s := s.takeOver v p w q
      let s := if (s.vat v).state == .retired ∨ (s.group v p).homeVat.isSome then
          s.modGroup v p (fun g => { g.emptied with state := if g.homeVat.isSome then .spare else g.state })
        else s
      s.modSlot k (fun x => { x with moving := true }))

/-- Move a list of groups of vat `v`; none when the spares do not suffice. -/
def moveGroups (v : Nat) : List Nat → State → Option State
  | [], s => some s
  | p :: r, s => (s.moveGroup v p).bind (moveGroups v r)

/-- The image of slot `k` is unplaced: its requests end with ERROR NO_PLACE, deckle by deckle (R344). -/
def State.unplace (s : State) (k order : Nat) : State :=
  let s := s.modSlot k (fun x => { x with unplaced := true })
  let hit := (s.slotSessions k).filter (fun i => (s.session i).active.isSome || (s.session i).waiting.isSome)
  let ds := allDeckles.filter (fun d => hit.any (fun i => s.ownerOf i == some d))
  if ds.isEmpty then s.report { err := .noPlace, order }
  else ds.foldl (fun s d =>
    let named := hit.filter (fun i => s.ownerOf i == some d)
    (s.report { err := .noPlace, deckle := some d, named, order })) s

/-- The groups of vat `v` that hold tiles of slot `k` and are not yet served elsewhere. -/
def State.toMove (s : State) (v k : Nat) : List Nat :=
  (s.groupsOf v).filter (fun p =>
    let g := s.group v p
    g.modelSlot == k && g.state != .retired && g.state != .spare && g.logical != 0x7FF &&
    s.locate (g.homeVat.getD v) g.logical == some (v, p))

/-- The logical group that group `p` of vat `v` is home to. -/
def State.homeOf (s : State) (v p : Nat) : Option Nat :=
  let g := s.group v p
  if g.state == .retired || g.rewriting then none
  else if g.lent.isSome then g.lent
  else if g.homeVat.isNone && g.logical != 0x7FF && g.state != .spare then some g.logical
  else none

/-- The groups of vat `v` whose logical group a borrowed group serves, with that number. -/
def State.toReturn (s : State) (v : Nat) : List (Nat × Nat × Nat × Nat) :=
  (s.groupsOf v).filterMap (fun p => (s.homeOf v p).bind (fun l => match s.locate v l with
    | some (w, q) => if w ≠ v then some (p, l, w, q) else none
    | none => none))

/-- VAT_REPLACE: the tiles of resident CURRENT images leave a RETIRED or SERVICE vat for spares of other vats, or return
to a vat that runs again (R343, R344, R549). -/
def State.replaceVat (s : State) (v order : Nat) : State :=
  let st := (s.vat v).state
  let slots := allSlots.filter (fun k => ((s.slot k).current.map (fun m => !m.turnover)).getD false)
  if st == .retired || st == .service then
    slots.foldl (fun s k =>
      let l := s.toMove v k
      if l.isEmpty then s
      else match moveGroups v l s with
        | some s => s
        | none => s.unplace k order) s
  else if st == .run then
    let back := s.toReturn v
    let down := back.any (fun x => ((s.slot (s.group x.2.2.1 x.2.2.2).modelSlot).current.map s.placeDown).getD false)
    if back.isEmpty then s
    else if down then s.corrected .placeClash 0 none
    else back.foldl (fun s x =>
      let b := s.group x.2.2.1 x.2.2.2
      (s.modGroup v x.1 (fun g => { g with state := .recal, rewriting := true, readyNext := none, logical := x.2.1, lent := none
                                           modelSlot := b.modelSlot, tiles := freshTiles b.tiles })).modSlot b.modelSlot
        (fun k => { k with moving := true })) s
  else s

def execVatReplace (v : Fin 64) (s : State) : Out := .next (s.replaceVat v.val s.tail)

end Sys2Proof.Machine
end

