-- ==== Sys2Proof/Machine/VatPages.lean ====
section
/-! DEFINITION. The pages of the vats and the stacks: state requests, reference buffers, correction words, scratchpad
access, histograms, page withdrawal (R126, R132 to R135, R567, R583, R584, R590, R595). -/
namespace Sys2Proof.Machine

/-! ### State requests (R583) -/

/-- A stress window is open on vat `v`. -/
def State.stressOn (s : State) (v : Nat) : Bool :=
  decide (s.test.phase ≠ .idle ∧ s.test.phase ≠ .done) && s.test.vat == v

/-- RUN requested on a vat; refused until REFBUF_READY, whatever the vat's state (R133). -/
def State.requestRun (s : State) (v : Nat) : State :=
  let x := s.vat v
  if x.state = .retired then s
  else if !x.refReady then s.corrected .refNotReady v none
  else if (x.state = .idle ∨ x.state = .service) ∧ !s.stressOn v then
    if s.tick.running then s.modVat v (fun x => { x with runReq := true })
    else s.modVat v (fun x => { x with state := .run, runReq := false, serviceReq := false, idleReq := false })
  else s

def execVatRun (v : Fin 64) (s : State) : Out := .next (s.requestRun v.val)

/-- DRAIN requested on a vat, refused under R18. -/
def State.requestDrain (s : State) (v : Nat) : State :=
  let x := s.vat v
  if x.state = .retired then s
  else if s.refused18 then s.corrected .serviceRefused v none
  else if x.state = .run then s.modVat v (fun x => { x with state := .draining, idleReq := true })
  else s

def execVatDrain (v : Fin 64) (s : State) : Out := .next (s.requestDrain v.val)

/-- SERVICE requested on a vat, refused under R18. -/
def State.requestService (s : State) (v : Nat) : State :=
  let x := s.vat v
  if x.state = .retired then s
  else if s.refused18 then s.corrected .serviceRefused v none
  else if x.state = .idle then s.modVat v (fun x => { x with state := .service, runReq := false })
  else if x.state = .run ∨ x.state = .draining then
    s.modVat v (fun x => { x with state := .draining, serviceReq := true })
  else s

def execVatService (v : Fin 64) (s : State) : Out := .next (s.requestService v.val)

/-- An operation admitted on a vat is still to run. -/
def State.vatBusy (s : State) (v : Nat) : Bool :=
  s.sched.ops.any (fun o => o.unit == v && !o.failed && (o.state == .waiting || o.state == .running))

/-- Groups of a vat in a state. -/
def State.countGroups (s : State) (v : Nat) (st : GroupState) : Nat :=
  ((s.groupsOf v).filter (fun p => (s.group v p).state == st)).length

/-- The vats' requests act at a tick boundary (R583). -/
def State.vatBoundary (s : State) : State :=
  allVats.foldl (fun s v =>
    let x := s.vat v
    if x.runReq then s.modVat v (fun x =>
        { x with runReq := false, serviceReq := false, idleReq := false
                 state := if (x.state == .idle || x.state == .service) && x.refReady then .run else x.state })
      else if x.state == .draining && !s.vatBusy v then s.modVat v (fun x =>
        { x with state := if x.serviceReq then .service else .idle, serviceReq := false, idleReq := false })
      else s) s

/-- The group counts of the VAT pages follow at a boundary (R584), and the group-map window shows the groups as they now
stand (R591). -/
def State.showGroups (s : State) : State :=
  allVats.foldl (fun s v =>
    let spare := s.countGroups v .spare
    let recal := s.countGroups v .recal
    let ret := s.countGroups v .retired
    let n := 1536 - spare - recal - ret
    let x := s.vat v
    if x.cntIn = n ∧ x.cntSpare = spare ∧ x.cntRecal = recal ∧ x.cntRetired = ret then s
    else s.modVat v (fun x => { x with cntIn := n, cntSpare := spare, cntRecal := recal, cntRetired := ret }))
    { s with groupShown := s.groups }

/-! ### Reference buffers (R132 to R135) -/

/-- REFBUF_EN: locked in RUN, CALIBRATING and DRAINING. -/
def State.writeRefEn (s : State) (v : Nat) (on : Bool) : State :=
  let x := s.vat v
  if x.state = .run ∨ x.state = .calibrating ∨ x.state = .draining then s.setWwr (pageIndex 0x16 v)
  else if on then s.modVat v (fun x => { x with refEn := true })
  else s.modVat v (fun x => { x with refEn := false, refReady := false })

def execRefbufEn (v : Fin 64) (value : Bool) (s : State) : Out := .next (s.writeRefEn v.val value)

/-- REFBUF_READY: the 2,000-period count ends; banks not settled are marked REF_FAULT. -/
def execRefbufReady (v : Fin 64) (unsettled : List Nat) (s : State) : Out :=
  .next (if (s.vat v.val).refEn ∧ !(s.vat v.val).refReady then
    let s := s.modVat v.val (fun x => { x with refReady := true })
    (unsettled.filter (fun p => decide (p < 1536) && !(s.group v.val p).refFault)).foldl (fun s p =>
      let s := s.modGroup v.val p (fun g => { g with refFault := true })
      let s := s.modVat v.val (fun x => { x with refFaults := satAdd 16 x.refFaults 1 })
      s.route .refFault v.val 1 none
        { code := errCode .refFault, isModule := true, page := pageIndex 0x16 v.val, tick := s.tick.now, unit := v.val
          group := p }) s
  else s)

/-! ### Correction words (R123, R124, R126) -/

/-- Reset word of a converter: converter 8 starts idle. -/
def convReset (i : Nat) : Conv := if i = 8 then { state := .spareIdle } else {}

/-- Converter `i` of a group, and its change. -/
def Group.conv (g : Group) (i : Nat) : Conv := get (convReset i) g.convs i
def Group.setConv (g : Group) (i : Nat) (c : Conv) : Group := { g with convs := put (convReset i) g.convs i c }

/-- Trim word of a column, and its change. -/
def Group.trim (g : Group) (c : Nat) : Trim := get {} g.trims c
def Group.setTrim (g : Group) (c : Nat) (t : Trim) : Group := { g with trims := put {} g.trims c t }

/-! ### The spare converter (R91, R127, R128, R153) -/

/-- A converter of the bank is SUSPECT. -/
def Group.hasSuspect (g : Group) : Bool := (List.range 9).any (fun i => (g.conv i).state == .suspect)

/-- The converter that a column belongs to: its check group's, or its pair of reference columns' (R91, R150). -/
def ownConv (col : Nat) : Nat := if col < 256 then col / 32 else if col < 272 then (col - 256) / 2 else (col - 272) / 2

/-- The converter that serves a column outside a rolling calibration: its own, or converter 8 in its place (R122, R127). -/
def Group.serverOf (g : Group) (col : Nat) : Nat := if (g.conv 8).covers = some (ownConv col) then 8 else ownConv col

/-- The bank of group `p` rotates (R153): its vat is IDLE, RUN or DRAINING with its buffers ready, its group is neither in
RECAL nor RETIRED, and no converter is SUSPECT. -/
def State.rotates (s : State) (v p : Nat) : Bool :=
  let x := s.vat v
  let g := s.group v p
  (x.state == .idle || x.state == .run || x.state == .draining) && x.refReady && !s.reloading (seqCode .cal) &&
  !(g.state == .recal) && !(g.state == .retired) && !g.hasSuspect

/-- The converter of the bank in rolling calibration: the next of the cycle, from the start of the execution phase until its
calibration of that tick ends (R128, R153). -/
def State.rolling (s : State) (v p : Nat) : Option Nat :=
  if s.tick.stage = .execution ∧ s.rotates v p ∧ (s.group v p).calTick ≠ s.tick.now + 1 then some ((s.group v p).nextConv)
  else none

/-- Every converter of the bank calibrates: initial calibration of its vat (R127, R176). -/
def State.bankCal (s : State) (v : Nat) : Bool :=
  (s.vat v).state == .calibrating || (s.test.phase == .recal && s.test.vat == v)

/-- Converter `i` as it stands now: in CAL during initial calibration or its rolling calibration, while converter 8 covers
it (R123, R127). -/
def State.convNow (s : State) (v p i : Nat) : Conv :=
  let c := (s.group v p).conv i
  if s.bankCal v then { c with state := .cal, covers := none }
  else match s.rolling v p with
    | none => c
    | some j => if i = j then { c with state := .cal } else if i = 8 then { c with state := .serving, covers := some j } else c

/-- The converter that serves a column now. -/
def State.serverNow (s : State) (v p col : Nat) : Nat :=
  if (s.convNow v p 8).covers = some (ownConv col) then 8 else ownConv col

/-- The selection of CORR_SEL lies outside its range. -/
def State.corrBad (s : State) (v : Nat) : Bool :=
  decide (1535 < s.reg .corrGroup v) ||
  (if s.reg .corrKind v = 0 then decide (8 < s.reg .corrIndex v) else decide (287 < s.reg .corrIndex v))

/-- CORR_DATA: a read, or under debug a write of the target fields. -/
def State.accessCorr (s : State) (v : Nat) (value : Option Nat) : State :=
  if s.corrBad v then s.corrected .corrSelRange v none
  else match value with
    | none => s
    | some w =>
      if !s.debugReg then s
      else
        let p := s.reg .corrGroup v
        let i := s.reg .corrIndex v
        if s.reg .corrKind v = 0 then s.modGroup v p (fun g =>
          g.setConv i { g.conv i with gainTgt := toSigned 12 (bits w 55 44), ofsTgt := toSigned 10 (bits w 25 16) })
        else s.modGroup v p (fun g => g.setTrim i { g.trim i with target := toSigned 7 (bits w 22 16) })

def execCorrData (v : Fin 64) (value : Option Nat) (s : State) : Out := .next (s.accessCorr v.val value)

/-! ### Scratchpad access (R208, R590) -/

/-- SCR_DATA: outside debug nothing is written; SCR_ADDR advances by 8 and wraps. -/
def State.accessScr (s : State) (v : Nat) (value : Option Nat) : State :=
  let a := (s.vat v).scrAddr
  let s := match value with
    | some w => if s.debugReg then s.writeNum (scrAddrOf v a) 8 w else s
    | none => s
  s.modVat v (fun x => { x with scrAddr := if a + 8 < scrBytes then a + 8 else 0 })

def execScrData (v : Fin 64) (value : Option Nat) (s : State) : Out := .next (s.accessScr v.val value)

/-! ### Histograms (R567) -/

/-- HIST_SEL: changing VAT or GROUP copies that group's bins of its last complete window and sets WIN. -/
def State.writeHistSel (s : State) (w : Nat) : State :=
  let v := bits w 29 24
  let p := bits w 18 8
  let same := decide (s.reg .histVat = v ∧ s.reg .histGroup = p)
  let s := ((s.setReg .histVat 0 v).setReg .histGroup 0 p).setReg .histPair 0 (bits w 3 0)
  if same then s
  else if 1535 < p then { s with histSnap := [] }
  else { s with histSnap := put 0 (s.group v p).histLast 32 ((s.tick.now / 1024 - 1) % 65536) }

def execHistSel (value : Nat) (s : State) : Out := .next (s.writeHistSel value)

/-- HIST_DATA: a read returns a pair of bins, and PAIR advances. -/
def State.readHist (s : State) : State := s.setReg .histPair 0 ((s.reg .histPair + 1) % 16)

def execHistData (s : State) : Out := .next s.readHist

/-! ### Page withdrawal (R595) -/

/-- RETIRE_PAGE: an in-service change, refused under R18. -/
def execRetirePage (st : Fin 8) (page : Fin 1048576) (s : State) : Out :=
  .next (if s.refused18 then s.corrected .retireRefused st.val none else s.retirePageAt (pageKey st.val page.val))

/-- UNRETIRE: the page returns to the pool. -/
def execUnretire (st : Fin 8) (page : Fin 1048576) (s : State) : Out :=
  .next (if s.refused18 then s.corrected .retireRefused st.val none
         else { s with pageOut := put 0 s.pageOut (pageKey st.val page.val) 0 })

end Sys2Proof.Machine
end

