-- ==== Sys2Proof/Machine/Calib.lean ====
section
/-! DEFINITION. Margins, calibration passes, rolling and fall-back calibration, re-planning, initial calibration, ageing
and the margin record (R121, R146 to R179, R548, R566, R572, R573). -/
namespace Sys2Proof.Machine

/-! ### Margin codes (R121, R146) -/

/-- 16 Σ t² − S², which is σ² times (16 LSB units)². -/
def spread (l : List Int) : Int := 16 * l.foldl (fun a t => a + t * t) 0 - (l.foldl (· + ·) 0) ^ 2

/-- The margin of 16 samples at level `k` is at least `c` / 200 LSB. -/
def marginAtLeast (l : List Int) (k c : Nat) : Bool :=
  let a : Int := (l.foldl (· + ·) 0 - 16 * lsb * k).natAbs
  let r := 25 * (8 * lsb - a) - 2 * lsb * c
  decide (0 ≤ r) && decide (spread l * 22500 ≤ (120 * lsb + r) ^ 2)

/-- Margin code of 16 samples at level `k`: the largest code reached, 0 for a margin clamped to 0. -/
def marginCode (l : List Int) (k : Nat) : Nat :=
  (((List.range 101).reverse).find? (fun c => marginAtLeast l k c)).getD 0

/-- SIGMA: floor of σ times 1,024, saturating at 255 (R177). -/
def sigmaCode (l : List Int) : Nat :=
  (((List.range 256).reverse).find? (fun (n : Nat) => decide (((n : Int) * lsb) ^ 2 ≤ 4096 * spread l))).getD 0

/-- Count expected of a column whose cells are `cell`, under a row pattern (R107, R150): its ones among the rows driven. -/
def levelOf (pat : BitVec 256) (half : Nat) (cell : Nat → Bool) : Nat :=
  ((List.range 256).filter (fun r =>
    pat.getLsbD r && cell r && !(half == 1 && decide (128 ≤ r)) && !(half == 2 && decide (r < 128)))).length

/-- The cells of a group's columns under a block: row and column. -/
abbrev Cells := Nat → Nat → Bool

/-- The cells that a block in a calibration window reads through the digital port (R150). -/
def Group.blockCells (g : Group) (b : BlockIn) : Cells := g.cell b.tile

/-- The cells under initial calibration: its own patterns in the data and check columns (R176). -/
def Group.initCells (g : Group) (cal : CalConst) (b : BlockIn) : Cells := fun r c =>
  if c < 272 then (get 0#256 cal.cells c).getLsbD r else g.cell b.tile r c

/-- The row patterns of a block, from the active CAL image (R150). -/
def patsOf (cal : CalConst) (b : BlockIn) : List (BitVec 256) := cal.pats.getD b.pats []

/-- The count expected of a column in a sample. -/
def expectAt (pats : List (BitVec 256)) (cells : Cells) (col : Nat) (l : LevelIn) : Nat :=
  levelOf (pats.getD l.pat 0#256) l.half (fun r => cells r col)

/-- The corrections that group `g` applies to a column, by the converter that serves it (R121, R122). -/
def Group.corrOf (g : Group) (col : Nat) (i : Nat) : Int × Int × Int := ((g.conv i).ofs, (g.trim col).applied, (g.conv i).gain)

/-- The corrected values of one sample of a column of group `g`. -/
def Group.values (g : Group) (col : Nat) (x : LevelIn) : List Int :=
  let c := g.corrOf col (g.serverOf col)
  x.fines.map (fun f => fineValue f c.1 c.2.1 c.2.2)

/-- Every margin code of a block. -/
def Group.codes (g : Group) (pats : List (BitVec 256)) (cells : Cells) (b : BlockIn) : List Nat :=
  b.cols.foldl (fun a x => a ++ x.2.map (fun l => marginCode (g.values x.1 l) (expectAt pats cells x.1 l))) []

/-- Largest SIGMA of a block. -/
def Group.sigmas (g : Group) (b : BlockIn) : Nat :=
  b.cols.foldl (fun a x => x.2.foldl (fun a l => max a (sigmaCode (g.values x.1 l))) a) 0

/-- The all-ones column gave another count than the row drivers in some slot of a block (R98, R150). -/
def Group.onesBad (g : Group) (pats : List (BitVec 256)) (b : BlockIn) : Bool :=
  b.cols.any (fun x => x.1 == 272 && x.2.any (fun l =>
    (g.values 272 l).any (fun t => fineCode t != levelOf (pats.getD l.pat 0#256) l.half (fun _ => true))))

/-- The lowest of some codes; none of an empty list. -/
def lowest (l : List Nat) : Option Nat := l.foldl (fun a c => some (match a with
  | none => c
  | some m => min m c)) none

/-! ### Plans (R162, R165 to R168) -/

/-- Candidate order of R165. -/
def State.planOrder (s : State) : List Nat := if s.reg .planOrder = 0 then [0, 2, 1, 3, 4, 6] else [0, 1, 4, 2, 3, 6]

/-- The plan of R165 for measured lows; none when no plan meets the floor. -/
def choosePlan (order : List Nat) (m : Nat → Option Nat) : Option Nat :=
  match order.find? (fun p => match m p with
    | some c => decide (66 ≤ c)
    | none => false) with
  | some p => some p
  | none =>
    let best := order.foldl (fun (b : Option (Nat × Nat)) p => match m p, b with
      | some c, some x => if x.2 < c then some (p, c) else b
      | some c, none => some (p, c)
      | none, _ => b) none
    match best with
    | some x => if 60 ≤ x.2 then some x.1 else none
    | none => none

/-- Spares that meet 0.33 LSB under plan A or C (R168). -/
def State.fastSpares (s : State) (v : Nat) : List Nat :=
  (s.spares v).filter (fun p => fastPlan (s.group v p).plan && decide (66 ≤ (s.group v p).merit))

/-- A new plan serves: PLAN_CHANGE is reported, and weights under a slow plan move to a fast spare (R167, R168). -/
def State.setPlan (s : State) (v p plan : Nat) : State :=
  let g := s.group v p
  if g.plan = plan then s.modGroup v p (fun g => { g with planNext := none })
  else
    let s := s.modGroup v p (fun g => { g with plan, planNext := none })
    let s := s.report { err := .planChange, unit := v, group := p, detail := plan }
    if fastPlan plan ∨ g.logical = 0x7FF ∨ g.state = .spare then s
    else match s.bestGroup v (s.fastSpares v) with
      | some q => s.takeOver v p v q
      | none => s

/-- Plans chosen by re-planning take effect at a boundary (R167). -/
def State.planBoundary (s : State) : State :=
  s.groupList.foldl (fun s x => match (s.group x.1 x.2).planNext with
    | some p => s.setPlan x.1 x.2 p
    | none => s) s

/-- SLOW_PPM of a vat (R172). -/
def Vat.slowPpm (x : Vat) : Nat := (x.ageBase - x.ageNow) * 1000000 / x.ageBase

/-- The vat calibrates and re-plans: initialised, not retired, no stress window on it (R149, R179). -/
def State.vatPlans (s : State) (v : Nat) : Bool :=
  let st := (s.vat v).state
  (st == .idle || st == .run || st == .draining || st == .service) && !s.stressOn v

/-- A re-plan of a group starts; a request while one runs is ignored (R169, R170). -/
def State.startReplan (s : State) (v p : Nat) : State :=
  let g := s.group v p
  if g.replan.isSome ∨ !s.vatPlans v ∨ !(g.state = .inService ∨ g.state = .spare) then s
  else s.modGroup v p (fun g => { g with replan := some { left := s.planOrder }, slowAt := (s.vat v).slowPpm })

/-- Re-plan every group of a vat. -/
def State.replanVat (s : State) (v : Nat) : State := forAll allGroups (fun p s => s.startReplan v p) s

/-- REPLAN_REQ: one vat or all (R169, R566). -/
def State.requestReplan (s : State) (all : Bool) (v : Nat) : State :=
  if all then forAll allVats (fun v s => s.replanVat v) s else s.replanVat v

def execReplanReq (all : Bool) (v : Fin 64) (s : State) : Out := .next (s.requestReplan all v.val)

/-- PERIODIC_REPLAN: a tick that is a positive multiple of 2^20 (R169). -/
def execPeriodicReplan (s : State) : Out := .next (forAll allVats (fun v s => s.replanVat v) s)

/-- REPLAN_CANDIDATE_END: the candidate's 16 ticks end (R170). DESIGN CHOICE: a re-plan in which no candidate's block was
measured has no plan that meets the floor, and retires the group (entry 103). -/
def State.endCandidate (s : State) (v p : Nat) : State :=
  match (s.group v p).replan with
  | none => s
  | some r =>
    let cand := nth r.left 0
    let lows := match r.low with
      | some c => r.lows ++ [(cand, c)]
      | none => r.lows
    let found := match r.low with
      | some c => decide (66 ≤ c)
      | none => false
    let left := r.left.drop 1
    if !found ∧ !left.isEmpty then
      s.modGroup v p (fun g => { g with replan := some { left, lows } })
    else
      let s := s.modGroup v p (fun g => { g with replan := none, replanCnt := satAdd 8 g.replanCnt 1 })
      match choosePlan s.planOrder (fun q => (lows.find? (fun x => x.1 == q)).map (fun x => x.2)) with
      | some q => s.modGroup v p (fun g => { g with planNext := some q })
      | none => (s.report { err := .replanFail, unit := v, group := p }).retireGroup v p 5 140

def execReplanCandidateEnd (v : Fin 64) (group : Nat) (s : State) : Out := .next (s.endCandidate v.val group)

/-! ### Calibration passes (R149, R150, R157, R166) -/

/-- Proposal of a column's trim from a block: the applied trim plus the mean deviation, in 1/64 LSB (R157). -/
def Group.proposal (g : Group) (pats : List (BitVec 256)) (cells : Cells) (col : Nat) (ls : List LevelIn) : Int :=
  let d := ls.foldl (fun a l => a + ((g.values col l).foldl (· + ·) 0 - 16 * lsb * (expectAt pats cells col l : Nat))) 0
  (g.trim col).applied + divRne (4 * d) (4194304 * ls.length)

/-- Take one column's proposal (R157): the group, and whether the proposal lay out of range. DESIGN CHOICE: of two
successive proposals within 0.04 LSB, the later is written to the target (entry 99). -/
def Group.takeTrim (g : Group) (pats : List (BitVec 256)) (cells : Cells) (col : Nat) (ls : List LevelIn) : Group × Bool :=
  let q := g.proposal pats cells col ls
  if ls.isEmpty then (g, false)
  else if q < -64 ∨ 63 < q then (g, true)
  else
    let t := g.trim col
    let agree := match t.lastAvg with
      | some a => decide ((q - a).natAbs ≤ 2)
      | none => false
    (g.setTrim col { t with target := if agree then q else t.target, lastAvg := some q }, false)

/-- The proposals of a block: the group, and the columns whose proposal lay out of range. -/
def Group.takeTrims (g : Group) (pats : List (BitVec 256)) (cells : Cells) (b : BlockIn) : Group × List Nat :=
  b.cols.foldl (fun x c =>
    let y := x.1.takeTrim pats cells c.1 c.2
    (y.1, if y.2 then x.2 ++ [c.1] else x.2)) (g, [])

/-- Calibration failures of a group: the all-ones column (ONES_MISMATCH) and trims out of range (TRIM_RANGE); each makes it
due for fall-back calibration (R98, R157, R158). -/
def State.calFailures (s : State) (v p : Nat) (ones : Bool) (cols : List Nat) : State :=
  let s := if ones then (s.report { err := .onesMismatch, unit := v, group := p }).makeDue v p else s
  cols.foldl (fun s c => (s.report { err := .trimRange, unit := v, group := p, detail := c }).makeDue v p) s

/-- Histogram bin of a code (R148). -/
def histBin (c : Nat) : Nat := c / 4

/-- Margins measured under the serving plan (R148, R166, R169). -/
def State.takeMargins (s : State) (v p : Nat) (codes : List Nat) (sigma : Nat) : State :=
  match lowest codes with
  | none => s
  | some low =>
    let s := s.modGroup v p (fun g => { g with
      marginMin := if g.measured then min g.marginMin low else low, measured := true, lastLow := low
      sigma := max g.sigma sigma
      hist := codes.foldl (fun h c => put 0 h (histBin c) (satAdd 32 (get 0 h (histBin c)) 1)) g.hist })
    let s := if (s.group v p).marginMin ≤ 65 ∧ !(s.group v p).lowDone then
        ((s.modGroup v p (fun g => { g with lowDone := true })).report
          { err := .marginLow, unit := v, group := p, detail := low }).startReplan v p
      else s
    if low < 60 then
      let s := s.report { err := .floorBreach, unit := v, group := p, detail := low }
      (s.modGroup v p (fun g => { g with state := .recal, breach := true, replan := none, planNext := none })).makeDue v p
    else s

/-- The constants of the calibration passes: in the tick whose boundary handed CAL over, those of the image before (R482). -/
def State.passCal (s : State) : CalConst := s.upd.calPrev.getD (s.activeImage 4).cal

/-- One calibration block of a group. -/
def State.takeBlock (s : State) (v : Nat) (b : BlockIn) : State :=
  let p := b.group
  let g := s.group v p
  if !(g.state = .inService ∨ g.state = .spare) then s
  else
    let pats := patsOf s.passCal b
    let cells := g.blockCells b
    let codes := g.codes pats cells b
    let r := g.takeTrims pats cells b
    let s := (s.modGroup v p (fun _ => r.1)).calFailures v p (g.onesBad pats b) r.2
    let s := match g.replan with
      | some r => if nth r.left 0 = b.plan then
          s.modGroup v p (fun g => { g with replan := some { r with low := lowest (codes ++ r.low.toList) } }) else s
      | none => s
    if b.plan = g.plan then s.takeMargins v p codes (g.sigmas b) else s

/-- CALIBRATION_WINDOW: the blocks that end in a vat's window of this tick, between its boundary and its allocation; none
while the engine reloads (R505), and none before REFBUF_READY, which is recorded (R133, R149, R179). -/
def execCalibrationWindow (v : Fin 64) (blocks : List BlockIn) (s : State) : Out :=
  .next (if s.reloading (seqCode .cal) ∨ !s.vatPlans v.val ∨ !(s.tick.stage = .started ∨ s.tick.stage = .evaluated) then s
         else if !(s.vat v.val).refReady then s.corrected .refNotReady v.val none
         else blocks.foldl (fun s b => s.takeBlock v.val b) s)

/-- MARGIN_WINDOW_END: a window of 1,024 ticks ends (R148, R177). -/
def Group.windowEnd (g : Group) : Group :=
  let g := if g.measured && !g.partialWin then { g with marginLast := g.marginMin, histLast := g.hist, valid := true } else g
  { g with marginMin := 0, measured := false, sigma := 0, lowDone := false, hist := [], partialWin := false }

def execMarginWindowEnd (s : State) : Out :=
  .next (s.groupList.foldl (fun s x => s.modGroup x.1 x.2 Group.windowEnd) s)

/-! ### Converter calibration (R153 to R156) -/

/-- 224 levels of 64 fine steps, over 2,048 samples. -/
def calSpan : Int := 14336 * 2048

/-- Two successive measurements, as sums at levels 16 and 240, agree (R155). -/
def calAgree (a b : Nat × Nat) : Bool :=
  let da : Int := (a.2 : Int) - a.1
  let db : Int := (b.2 : Int) - b.1
  let na := 14336 * (a.1 : Int) - 1024 * da
  let nb := 14336 * (b.1 : Int) - 1024 * db
  decide (0 < da) && decide (0 < db) && decide (100 * ((nb - na).natAbs : Int) ≤ 256 * calSpan) &&
    decide (2000 * calSpan * ((da - db).natAbs : Int) ≤ da * db)

/-- OFS_TGT and GAIN_TGT of two agreeing measurements; none out of range (R154). -/
def calTargets (a b : Nat × Nat) : Option (Int × Int) :=
  let da : Int := (a.2 : Int) - a.1
  let db : Int := (b.2 : Int) - b.1
  let na := 14336 * (a.1 : Int) - 1024 * da
  let nb := 14336 * (b.1 : Int) - 1024 * db
  let ofs := divRne (na + nb) (2 * calSpan).toNat
  let gain := divRne (32768 * (calSpan * (da + db) - 2 * da * db)) (da * db).toNat
  if ofs < -512 ∨ 511 < ofs ∨ gain < -2048 ∨ 2047 < gain then none else some (ofs, gain)

/-- The procedure of R154 over its measurements: the first agreeing pair of at most four decides. -/
def calibrate : Nat → ConvIn → Option (Int × Int)
  | n + 1, a :: b :: r => if calAgree a b then calTargets a b else calibrate n (b :: r)
  | _, _ => none

/-- Converter `i` fails acceptance: it becomes SUSPECT, converter 8 covers it, the group is due (R129, R158). -/
def State.suspectConv (s : State) (v p i : Nat) : State :=
  let s := s.modGroup v p (fun g =>
    let g := g.setConv i { g.conv i with state := .suspect, covers := none }
    if i = 8 then g else g.setConv 8 { g.conv 8 with state := .serving, covers := some i })
  (s.report { err := .convSuspect, inst := v, unit := v, group := p, detail := i }).makeDue v p

/-- CONVERTER_CAL_DONE: the rolling calibration that runs in a bank ends: the next converter of the cycle is due in the next
tick, and the columns that overflowed on this one have been checked (R130, R153, R154). -/
def State.convDone (s : State) (v p i : Nat) (meas : ConvIn) : State :=
  if s.rolling v p ≠ some i then s
  else
    let s := s.modGroup v p (fun g => { g with
      nextConv := (i + 1) % 9, calTick := s.tick.now + 1, checkCols := g.checkCols.filter (fun c => ownConv c != i) })
    match calibrate 4 meas with
    | some t => s.modGroup v p (fun g => g.setConv i { g.conv i with ofsTgt := t.1, gainTgt := t.2 })
    | none => s.suspectConv v p i

def execConverterCalDone (v : Fin 64) (group : Nat) (conv : Fin 9) (meas : ConvIn) (s : State) : Out :=
  .next (s.convDone v.val group conv.val meas)

/-- One step toward a target. -/
def stepTo (cur tgt : Int) : Int := if cur < tgt then cur + 1 else if tgt < cur then cur - 1 else cur

/-- One correction step of a bank (R156). -/
def Group.correctStep (g : Group) : Group :=
  (List.range 9).foldl (fun g i =>
    let c := g.conv i
    if c.ofs ≠ c.ofsTgt then g.setConv i { c with ofs := stepTo c.ofs c.ofsTgt }
    else if c.gain ≠ c.gainTgt then g.setConv i { c with gain := toward 3 c.gain c.gainTgt }
    else g.trims.foldl (fun g x =>
      if g.serverOf x.1 = i then g.setTrim x.1 { x.2 with applied := stepTo x.2.applied x.2.target } else g) g) g

/-- Action 6 of R34: every correction in progress advances by one step; none while the engine reloads. -/
def State.correctStep (s : State) : State :=
  if s.reloading (seqCode .cal) then s
  else s.groupList.foldl (fun s x => s.modGroup x.1 x.2 Group.correctStep) s

/-- Applied corrections are set equal to their targets (R125). -/
def Group.applyAll (g : Group) : Group :=
  let g := (List.range 9).foldl (fun g i =>
    let c := g.conv i
    g.setConv i { c with ofs := c.ofsTgt, gain := c.gainTgt }) g
  g.trims.foldl (fun g x => g.setTrim x.1 { x.2 with applied := x.2.target }) g

/-- A bank's calibration blocks so far, outside the calibration window: the group, the lowest code of each plan, and the
failures. -/
structure BankRun where
  g     : Group
  lows  : List (Nat × Nat) := []
  ones  : Bool := false
  trims : List Nat := []
  deriving DecidableEq, Repr

/-- One more block of a bank that serves nothing (R160, R176). DESIGN CHOICE: it is measured with the targets reached so far
in force, and the last block of a plan gives that plan's lowest code (entry 100). -/
def BankRun.settle (cal : CalConst) (cells : Group → BlockIn → Cells) (x : BankRun) (b : BlockIn) : BankRun :=
  let pats := patsOf cal b
  let r := x.g.takeTrims pats (cells x.g b) b
  { g := r.1.applyAll, ones := x.ones || x.g.onesBad pats b, trims := x.trims ++ r.2
    lows := match lowest (x.g.codes pats (cells x.g b) b) with
      | some c => x.lows.filter (fun y => y.1 != b.plan) ++ [(b.plan, c)]
      | none => x.lows }

/-- Lowest code measured under a plan. -/
def BankRun.low (x : BankRun) (plan : Nat) : Option Nat := (x.lows.find? (fun y => y.1 == plan)).map (fun y => y.2)

/-! ### Fall-back calibration (R158 to R161) -/

/-- The group that heads a vat's queue: floor breaches first, then by due tick, then by number (R159). -/
def State.fallHead (s : State) (v : Nat) : Option Nat :=
  let l := (s.groupsOf v).filter (fun p =>
    let g := s.group v p
    g.due.isSome && !g.rewriting && g.state != .retired && !g.inFall && g.readyNext.isNone)
  let key := fun p =>
    let g := s.group v p
    (if g.breach then 0 else 1, g.due.getD 0)
  l.foldl (fun best p => match best with
    | none => some p
    | some b =>
      if (key p).1 < (key b).1 ∨ ((key p).1 = (key b).1 ∧ (key p).2 < (key b).2) then some p else some b) none

/-- The group of a vat that is in fall-back calibration. -/
def State.falling (s : State) (v : Nat) : Option Nat := (s.groupsOf v).find? (fun p => (s.group v p).inFall)

/-- FALLBACK_START: at the start of the execution phase, the head of the vat's queue goes to RECAL with every converter in
CAL (R127, R133, R159, R179). -/
def execFallbackStart (v : Fin 64) (s : State) : Out :=
  .next (if s.reloading (seqCode .cal) ∨ (s.falling v.val).isSome ∨ s.tick.stage ≠ .execution ∨ !s.vatPlans v.val then s
  else if !(s.vat v.val).refReady then s.corrected .refNotReady v.val none
  else match s.fallHead v.val with
    | none => s
    | some p => s.modGroup v.val p (fun g =>
      let g := (List.range 9).foldl (fun g i => g.setConv i { g.conv i with state := .cal, covers := none }) g
      { g with state := .recal, inFall := true, recalNext := false, replan := none, planNext := none }))

/-- Converter `i` after a calibration of the whole bank: its targets and its state; false when it is not accepted. -/
def Group.bankConv (g : Group) (i : Nat) (meas : ConvIn) : Group × Bool :=
  let rest : ConvState := if i = 8 then .spareIdle else .serving
  match calibrate 4 meas with
  | some t => (g.setConv i { g.conv i with state := rest, covers := none, ofsTgt := t.1, gainTgt := t.2 }, true)
  | none => (g.setConv i { g.conv i with state := .suspect, covers := none }, false)

/-- The converters of a whole bank: the group, and the converters not accepted. -/
def Group.bankConvs (g : Group) (meas : Nat → ConvIn) : Group × List Nat :=
  (List.range 9).foldl (fun (x : Group × List Nat) i =>
    let y := x.1.bankConv i (meas i)
    (y.1, if y.2 then x.2 else x.2 ++ [i])) (g, [])

/-- A group's measurements restart with a fall-back calibration that it passes (R160, R177). -/
def Group.restart (g : Group) (low : Nat) : Group :=
  { g with hist := [], histLast := [], marginMin := 0, measured := false, sigma := 0, valid := false, partialWin := true
           lastLow := low, breach := false, due := none, wmMiss := false, recalNext := false, replan := none
           planNext := none, checkCols := [] }

/-- Converters not accepted in a calibration of the whole bank: each is recorded as CONV_SUSPECT (R129). -/
def State.reportSuspects (s : State) (v p : Nat) (l : List Nat) : State :=
  l.foldl (fun s i => s.report { err := .convSuspect, inst := v, unit := v, group := p, detail := i }) s

/-- FALLBACK_END: acceptance and plan choice (R160, R161). The group that passes returns, and takes its plan, at the next
tick boundary (R167); until then it stays in RECAL. One that fails is retired. -/
def State.endFall (s : State) (v p : Nat) (convs : List ConvIn) (blocks : List BlockIn) : State :=
  let r := (s.group v p).bankConvs (fun i => convs.getD i [])
  let x := blocks.foldl (BankRun.settle s.passCal Group.blockCells) { g := r.1.applyAll }
  let s := (s.modGroup v p (fun _ => x.g)).reportSuspects v p r.2
  match r.2, choosePlan s.planOrder x.low with
  | [], some q =>
    let s := (s.modGroup v p (fun g => g.restart ((x.low q).getD 0))).calFailures v p x.ones x.trims
    s.modGroup v p (fun g => { g with
      planNext := some q, readyNext := some (if g.logical = 0x7FF then .spare else .inService) })
  | _, _ => (s.report { err := .fallbackFail, unit := v, group := p }).retireGroup v p 2 2600

def execFallbackEnd (v : Fin 64) (convs : List ConvIn) (blocks : List BlockIn) (s : State) : Out :=
  .next (match s.falling v.val with
  | none => s
  | some p => if (s.group v.val p).readyNext.isSome then s else s.endFall v.val p convs blocks)

/-! ### Initial calibration (R176, R548) -/

/-- INIT_CAL on one vat. -/
def State.initCalOne (s : State) (v : Nat) : State :=
  let x := s.vat v
  if !(x.state = .off ∨ x.state = .idle) then s
  else if !x.refReady then s.corrected .refNotReady v none
  else s.modVat v (fun x => { x with state := .calibrating })

/-- INIT_CAL: each vat named; RECORD_BAD when a vat begins without a valid record (R176). -/
def State.requestInit (s : State) (mask : Nat) : State :=
  let t := forAll (maskBits 64 mask) (fun v s => s.initCalOne v) s
  if s.upd.seed.isNone ∧ allVats.any (fun v => (t.vat v).state = .calibrating ∧ (s.vat v).state ≠ .calibrating) then
    t.report { err := .recordBad }
  else t

def execInitCal (mask : Nat) (s : State) : Out := .next (s.requestInit mask)

/-- Entry of a group in the seed record. -/
def State.seedEntry (s : State) (v p : Nat) : Option Nat := s.upd.seed.map (fun b => recEntry b v p)

/-- What initial calibration found of a group: the group with every correction at its target, its plan and margin when it
passes, the converters not accepted, and the calibration failures. -/
structure InitOut where
  g     : Group
  pass  : Option (Nat × Nat)
  bad   : List Nat
  ones  : Bool
  trims : List Nat
  deriving DecidableEq, Repr

/-- What initial calibration makes of one group (R176): its reference columns are written, its converters calibrate, its
blocks settle its trims, and its plan is chosen, the recorded plan first. One converter that fails is covered by converter
8; a group with more, or with a REF_FAULT, does not pass (R127, R135). -/
def State.initGroup (s : State) (v : Nat) (x : InitIn) : InitOut :=
  let cal := (s.activeImage 4).cal
  let g := s.group v x.group
  let g := { g with refs := true, refStuck := refCells x.stuck }
  let r := g.bankConvs (fun i => ((x.convs.find? (fun c => c.1 == i)).map (fun c => c.2)).getD [])
  let g := match r.2 with
    | [i] => if i = 8 then r.1 else r.1.setConv 8 { r.1.conv 8 with state := .serving, covers := some i }
    | _ => r.1
  let y := x.blocks.foldl (BankRun.settle cal (fun g => g.initCells cal)) { g := g.applyAll }
  let seed := s.seedEntry v x.group
  let first := match seed with
    | some e => [e % 8]
    | none => []
  let order := first ++ s.planOrder.filter (fun q => !first.contains q)
  let need := match seed with
    | some e => if bits e 7 6 = 2 then 66 else 60
    | none => 60
  let out := match choosePlan order y.low with
    | none => none
    | some q =>
      let low := (y.low q).getD 0
      if low < need ∨ 1 < r.2.length ∨ g.refFault then none else some (q, low)
  { g := y.g, pass := out, bad := r.2, ones := y.ones, trims := y.trims }

/-- The records of a group's initial calibration: CONV_SUSPECT, with converter 8 in its place and the group due, and what
else makes it due (R98, R129, R157, R158). -/
def State.initRecords (s : State) (v p : Nat) (x : InitOut) : State :=
  let s := match x.pass, x.bad with
    | some _, [i] => s.suspectConv v p i
    | _, l => s.reportSuspects v p l
  if x.pass.isNone then s
  else
    let s := s.calFailures v p x.ones x.trims
    if x.g.refStuck.isEmpty then s else s.makeDue v p

/-- Initial calibration of a vat ends: plans, spares and logical numbers; true when the vat passes (R176). Groups retired
since module reset stay so. FLOOR_BREACH, VALID and a pending fall-back calibration stand: only a reset or a fall-back
calibration clears them (R177). -/
def State.initVat (s : State) (v : Nat) (l : List InitIn) : State × Bool :=
  let live := l.filter (fun x => decide (x.group < 1536) && (s.group v x.group).state != .retired)
  let res := live.map (fun x => (x.group, s.initGroup v x))
  let pass := res.filterMap (fun x => x.2.pass.map (fun q => (x.1, q)))
  let ranked := sortBy (fun (a b : Nat × Nat × Nat) => decide (b.2.2 < a.2.2) || (a.2.2 == b.2.2 && decide (a.1 ≤ b.1))) pass
  let serve := sortBy (fun a b => decide (a ≤ b)) ((ranked.take 1488).map (fun x => x.1))
  let slow := (s.vat v).slowPpm
  let s := allGroups.foldl (fun s p =>
    if (s.group v p).state = .retired then s
    else match res.find? (fun x => x.1 == p) with
      | none => s.modGroup v p (fun g => { g.emptied with state := .retired })
      | some x =>
        match x.2.pass with
        | none => s.modGroup v p (fun g => { g.emptied with state := .retired, retCause := if g.refFault then 3 else 0 })
        | some q =>
          let at_ := serve.findIdx (· == p)
          let inServ := serve.contains p
          s.modGroup v p (fun _ => { x.2.g.emptied with
            state := if inServ then .inService else .spare, logical := if inServ then at_ else 0x7FF
            rewriting := false, readyNext := none, inFall := false, recalNext := false, replan := none, planNext := none
            plan := q.1, lastLow := q.2, slowAt := slow })) s
  let s := res.foldl (fun s x => s.initRecords v x.1 x.2) s
  let s := s.modVat v (fun y => if y.ageBase ≠ 0 then y
    else match s.upd.seed with
      | some b => { y with ageBase := if field b (0x40 + 6208 * v) 4 = 0 then y.ageNow else field b (0x40 + 6208 * v) 4 }
      | none => { y with ageBase := y.ageNow })
  (s, decide (1488 ≤ pass.length))

/-- Write afresh the tiles that running resident images place on a vat, each row verified: `l` holds what the read-back
found (R111, R548). -/
def State.refill (s : State) (v : Nat) (l : List InitIn) : State :=
  let found := fun p => (l.filter (fun x => x.group == p)).foldl (fun a x => a ++ x.stuck) []
  allSlots.foldl (fun s k => match (s.slot k).current with
    | none => s
    | some m => if m.turnover then s
        else (m.logicals.filter (fun x => x.1 == v)).foldl (fun s x =>
          let s := s.writeGroup k m x.1 x.2
          match s.locate x.1 x.2 with
          | some (w, p) => if w = v then s.verifyGroup w p (found p) else s
          | none => s) s) s

/-- INIT_CAL_DONE: the vat leaves CALIBRATING as IDLE, or as RETIRED with too few groups (R115, R548). -/
def execInitCalDone (v : Fin 64) (groups : List InitIn) (s : State) : Out :=
  .next (if (s.vat v.val).state ≠ .calibrating then s
  else
    let r := s.initVat v.val groups
    if r.2 then (r.1.modVat v.val (fun x => { x with state := .idle })).refill v.val groups
    else (r.1.modVat v.val (fun x => { x with initFail := true })).report
      { err := .sparesExhausted, inst := v.val, unit := v.val, vat := some v.val, cause := 6 })

/-! ### Ageing (R169, R172) -/

/-- The ageing monitors of one tick strobe, and the re-plans that a slowdown by 5,000 ppm triggers. DESIGN CHOICE: of the
vat's three thermal points the array tier's, the first, gives the temperature; and a vat initially calibrated before any
count was taken, with no AGE_BASE in its record, takes its first filtered count as AGE_BASE (entry 101). -/
def State.ageStrobe (s : State) : State :=
  let cal := (s.activeImage 4).cal
  let s := allVats.foldl (fun s v =>
    let t := get {} s.therm.telem (194 + v)
    let x := s.vat v
    if !t.valid ∨ x.state = .off then s
    else
      let n := Config.ageFilter x.ageNow x.ageSeen t.value (s.telemValue (64 + v))
        (s.therm.point (48 * (v / 16) + 3 * (v % 16))) cal.ageT cal.ageV % 2 ^ 32
      let base := if x.ageBase = 0 ∧ x.state ≠ .calibrating then n else x.ageBase
      s.modVat v (fun x => { x with ageSeen := true, ageNow := n, ageBase := base })) s
  s.groupList.foldl (fun s x =>
    if (s.group x.1 x.2).slowAt + 5000 ≤ (s.vat x.1).slowPpm then s.startReplan x.1 x.2 else s) s

/-! ### The margin record (R173, R174, R572, R573) -/

/-- Whole part of log2 of 1 + n. -/
def log2p1 (n : Nat) : Nat := Nat.log2 (n + 1)

/-- Code of a group's state in a record; a group in a rewrite, of its own or of its slot's image, stands as RECAL. -/
def State.recState (s : State) (g : Group) : Nat :=
  match g.state with
  | .spare => 1 | .retired => 2 | .recal => 3
  | .inService => if g.rewriting ∨ (g.modelSlot < 16 ∧ (s.slot g.modelSlot).rewriting) then 3 else 0

/-- One group entry. -/
def State.groupEntry (s : State) (v p : Nat) : Bytes :=
  let g := s.group v p
  let n := (g.missAt.filter (fun t => decide (s.tick.now < t + 2 ^ 24))).length
  leBytes 4 (g.marginLast * 2 ^ 24 + log2p1 n % 256 * 2 ^ 8 + s.recState g * 2 ^ 6 + g.plan)

/-- The part of vat `v`. -/
def State.vatEntry (s : State) (v : Nat) : Bytes :=
  let x := s.vat v
  let sus := sumTo 1536 (fun p => ((List.range 9).filter (fun i => ((s.group v p).conv i).state == .suspect)).length)
  leBytes 4 x.ageBase ++ leBytes 4 x.ageNow ++ leBytes 4 x.slowPpm ++ leBytes 4 sus ++
    leBytes 2 (s.countGroups v .retired) ++ List.replicate 46 0#8 ++
    (allGroups.map (s.groupEntry v)).foldr (· ++ ·) []

/-- The record's bytes with that cause and sequence number. -/
def State.recordBytes (s : State) (cause seq : Nat) : Bytes :=
  let b := leBytes 4 0x464D5244 ++ leBytes 2 1 ++ leBytes 2 cause ++ leBytes 8 seq ++ leBytes 8 s.tick.now ++
    List.replicate 40 0#8 ++ (allVats.map s.vatEntry).foldr (· ++ ·) []
  b ++ hmac384 s.sec.recKey b

/-- The flash programs an image, so a record write waits (R173, R179). -/
def State.flashBusy (s : State) : Bool := s.upd.writing || s.upd.recBusy.isSome

/-- Begin the record write that waits, into the older copy. -/
def State.beginRecord (s : State) : State :=
  match s.upd.recWait with
  | none => s
  | some cause =>
    if s.flashBusy then s
    else
      let copy := if nth s.upd.recSeqs 1 < nth s.upd.recSeqs 0 then 1 else 0
      let b := s.recordBytes cause (s.upd.recSeq + 1)
      { s with upd := { s.upd with recWait := none, recBusy := some (copy, cause, b) } }

/-- A record with that cause is wanted. DESIGN CHOICE: one write waits at most; a later request takes its place with its own
cause (entry 102). -/
def State.wantRecord (s : State) (cause : Nat) : State :=
  ({ s with upd := { s.upd with recWait := some cause } }).beginRecord

/-- MARGIN_RECORD_DUE: a tick that is a positive multiple of 2^24 (R173). -/
def execMarginRecordDue (s : State) : Out := .next (s.wantRecord 0)

/-- REC_SHUT: an orderly shutdown request; ignored while the tick runs (R573). -/
def State.requestShut (s : State) : State := if s.tick.running then s.setWwr (pageIndex 9 0) else s.wantRecord 1

def execRecShut (s : State) : Out := .next s.requestShut

/-- RECORD_WRITE_DONE: the copy written becomes valid, or is invalid and the other stands. -/
def State.recordDone (s : State) (ok : Bool) : State :=
  match s.upd.recBusy with
  | none => s
  | some (copy, cause, b) =>
    let s := if ok then
        { s with upd := { s.upd with
          recBusy := none, recs := s.upd.recs.set copy (some b), recSeqs := s.upd.recSeqs.set copy (s.upd.recSeq + 1)
          recSeq := s.upd.recSeq + 1, recDone := s.upd.recDone || cause == 1 } }
      else ({ s with upd := { s.upd with
          recBusy := none, recs := s.upd.recs.set copy none, recSeqs := s.upd.recSeqs.set copy 0 } }).report
            { err := .recordWrite, detail := copy }
    s.beginRecord

def execRecordWriteDone (ok : Bool) (s : State) : Out := .next (s.recordDone ok)

end Sys2Proof.Machine
end

