-- ==== Sys2Proof/Machine/TestEng.lean ====
section
/-! DEFINITION. The test engine: stress windows, their results and their abort (R514 to R519, R578). -/
namespace Sys2Proof.Machine

/-- A window is open. -/
def State.windowOpen (s : State) : Bool := decide (s.test.phase ≠ .idle ∧ s.test.phase ≠ .done)

/-- Why a START is refused: 1 the vat is not in SERVICE, 2 a window is open, 3 a condition of R18, 4 no class defined. -/
def State.startCause (s : State) : Nat :=
  if (s.vat (s.reg .testVat)).state ≠ .service then 1
  else if s.windowOpen then 2
  else if s.refused18 then 3
  else if (maskBits 32 (s.reg .testMask)).all (fun c => !bit (s.activeImage 7).classes c) then 4
  else 0

/-- START: opens a stress window, or reports STRESS_REFUSED with its cause (R515). -/
def State.startStress (s : State) : State :=
  let c := s.startCause
  if c ≠ 0 then ({ s with test := { s.test with cause := c } }).report { err := .stressRefused, detail := c }
  else
    let classes := ((maskBits 32 (s.reg .testMask)).filter (fun i => bit (s.activeImage 7).classes i)).foldl
      (fun a i => a + 2 ^ i) 0
    { s with test := { phase := .settle, vat := s.reg .testVat, apply := s.reg .testApply == 1, classes } }

/-- A committed TEST_CMD has been taken. -/
def State.testTaken (s : State) : State := s.setReg .testOp 0 0

def execStart (s : State) : Out := .next (if s.reg .testOp ≠ 1 then s else s.testTaken.startStress)

/-- An abort: the patterns stop, COOL and RECAL follow (R517). -/
def State.abortStress (s : State) (cause : Nat) : State :=
  if s.test.phase = .settle ∨ s.test.phase = .heat ∨ s.test.phase = .run then
    { s with test := { s.test with phase := .cool, aborted := true, cause } }
  else s

def execAbort (s : State) : Out := .next (if s.reg .testOp ≠ 2 then s else s.testTaken.abortStress 5)

/-- A point of another vat or part has reached 98 °C. -/
def State.heatOutside (s : State) : Bool :=
  let v := s.test.vat
  let first := 48 * (v / 16) + 3 * (v % 16)
  s.therm.points.any (fun x => (decide (x.1 < first) || decide (first + 3 ≤ x.1)) && decide (degrees 2208 ≤ x.2))

/-- What aborts an open window at a boundary or self-strobe (R517). -/
def State.stressCheck (s : State) : State :=
  if s.therm.throttle then s.abortStress 6
  else if s.power.batt then s.abortStress 7
  else if s.heatOutside then s.abortStress 0
  else s

/-- Results of RUN: up to 4,096 records, later ones only counted; each element reports PATTERN_FAIL (R518). -/
def State.takeResults (s : State) (l : List TestResult) : State :=
  l.foldl (fun s r =>
    let s := if s.test.results.length < 4096 then
        { s with test := { s.test with results := s.test.results ++ [r], ticks := s.test.ticks ++ [s.tick.now % 2 ^ 32] } }
      else { s with test := { s.test with dropped := s.test.dropped + 1 } }
    s.report { err := .patternFail, unit := s.test.vat, group := r.group, detail := r.cls }) s

/-- RECAL ends: with APPLY failing groups are retired first, then initial calibration, then failing converters and the
vat (R516, R519). -/
def State.stressDone (s : State) (groups : List InitIn) : State :=
  let v := s.test.vat
  let res := if s.test.apply then s.test.results else []
  let s := (res.filter (fun r => decide (r.cls ≤ 1 ∧ r.group < 1536))).foldl (fun s r => s.modGroup v r.group (fun g =>
    if g.state = .retired then g
    else { g.emptied with state := .retired, retCause := 4, due := none, readyNext := none })) s
  let r := s.initVat v groups
  let s := (res.filter (fun x => decide (x.cls = 2 ∧ x.group < 1536 ∧ x.index < 9))).foldl (fun s x =>
    if (s.group v x.group).state = .retired ∨ (s.group v x.group).hasSuspect then s
    else s.suspectConv v x.group x.index) r.1
  let s := if res.any (fun x => decide (3 ≤ x.cls ∧ x.cls ≤ 7)) then
      (s.report { err := .vatFail, unit := v }).retireVat v 5 s.tail
    else if !r.2 then s.report { err := .sparesExhausted, inst := v, unit := v, vat := some v, cause := 1 }
    else s
  let s := { s with test := { s.test with phase := .done } }
  if s.test.aborted then s.report { err := .stressAbort, detail := s.test.cause } else s

/-- STRESS_PHASE_END: the phase in hand ends (R516). -/
def State.stressNext (s : State) (results : List TestResult) (groups : List InitIn) : State :=
  let go := fun (p : TestPhase) (s : State) => { s with test := { s.test with phase := p } }
  match s.test.phase with
  | .idle | .done => s
  | .settle => go .heat s
  | .heat => go .run s
  | .run => go .cool (s.takeResults results)
  | .cool =>
    let s := go .recal (if s.test.aborted then s.takeResults results else s)
    if s.upd.seed.isNone then s.report { err := .recordBad } else s
  | .recal => s.stressDone groups

def execStressPhaseEnd (results : List TestResult) (groups : List InitIn) (s : State) : Out :=
  .next (s.stressNext results groups)

end Sys2Proof.Machine
end

