-- ==== Sys2Proof/Machine/Faults.lean ====
section
/-! DEFINITION. Sequencer faults, the reload of a block's tables, and the events management takes (R358, R502, R504,
R505). -/
namespace Sys2Proof.Machine

/-- Page kind and instance of a sequenced block (R504). -/
def seqPage : SeqBlock → Nat × Nat
  | .vat v => (0x13, v.val)
  | .sched => (0x0B, 0) | .hub => (0x01, 0) | .sess => (0x0C, 0) | .kv => (0x0D, 0) | .strm => (0x0E, 0)
  | .ream => (0x0F, 0) | .err => (0x0A, 0) | .cal => (0x08, 0) | .therm => (0x06, 0)
  | .felt p => (0x11, p.val)
  | .test => (0x10, 0)

/-- The vat of a vat sequencer. -/
def seqVat : SeqBlock → Option Nat
  | .vat v => some v.val
  | _ => none

/-- The block holds an operation: a vat its own, the scheduler every entry, the hub the operations of its unit. -/
def seqHolds (b : SeqBlock) (o : OpRec) : Bool :=
  match b with
  | .vat v => o.unit == v.val && !o.reissue
  | .sched => true
  | .hub => o.unit == 64 && !o.reissue
  | _ => false

/-- A second fault of a felt router within 64 ticks fails its port (R358, R498). -/
def State.routerFault (s : State) (p : Nat) : State :=
  let hit := s.counted (unitPort p)
  let s := s.count (unitPort p)
  if hit then s.portFail p else s

/-- SEQ_FAULT: the block stops, what it holds fails, and its tables are reloaded; it serves again two ticks on (R504). A
reload under way continues (R521).
An open stress window aborts with the test engine (R505, R517). -/
def State.seqFault (s : State) (b : SeqBlock) : State :=
  let (kind, inst) := seqPage b
  let s := s.report
    { err := .seqFault kind, inst, unit := (seqVat b).getD 0x40, vat := seqVat b, order := s.tail }
  if !s.coreOn then s
  else
    let s := s.loseOps (seqHolds b) s.tail
    let s := match b with
      | .felt p => s.routerFault p.val
      | .test => s.abortStress 0
      | _ => s
    if s.reloading (seqCode b) then s else { s with reloads := put 0 s.reloads (seqCode b) (s.tick.now + 3) }

def execSeqFault (b : SeqBlock) (s : State) : Out := .next (s.seqFault b)

/-- The blocks whose reload has ended serve again from this boundary. -/
def State.reloadsEnd (s : State) : State :=
  { s with reloads := s.reloads.filter (fun x => decide (s.tick.now + 1 < x.2)) }

/-- SEQ_RELOAD_DONE: the tables are in and their image's digest has been checked; a digest that fails is VAT_FATAL for a
vat and MODULE_FATAL for any other block (R504). While no tick runs the block serves at once (log entry 44). -/
def State.reloadDone (s : State) (b : SeqBlock) (digestOk : Bool) : State :=
  if !s.reloading (seqCode b) then s
  else if digestOk then
    if s.tick.running then s else { s with reloads := put 0 s.reloads (seqCode b) 0 }
  else
    let (kind, inst) := seqPage b
    let v := seqVat b
    s.report { err := .seqFault kind, inst, unit := v.getD 0x40, vat := v, cause := 4, order := s.tail
               cls := some (if v.isSome then 3 else 4) }

def execSeqReloadDone (b : SeqBlock) (digestOk : Bool) (s : State) : Out := .next (s.reloadDone b digestOk)

/-- MANAGEMENT_EVENT: the oldest queued event goes to the management controller (R502). -/
def State.sendEvent (s : State) : State :=
  match s.errs.events with
  | [] => s
  | c :: r => if s.i3cAnswers then { s with errs := { s.errs with events := r, sent := s.errs.sent ++ [c] } } else s

def execManagementEvent (s : State) : Out := .next s.sendEvent

end Sys2Proof.Machine
end

