-- ==== Sys2Proof/Machine/Sched.lean ====
section
/-! DEFINITION. The scheduler: windows, the conversion cap, budgets, tile binding, context saves, admission of segments,
and the allocation phase (R202, R210, R215 to R221, R228 to R242, R604). -/
namespace Sys2Proof.Machine

/-! ### Windows and the cap (R235, R236, R240) -/

/-- First and last reference period of a deckle's window. -/
def State.winStart (s : State) (d : Nat) : Nat := 200 + sumTo d (fun e => windowLen s.tick.period (s.reg .share e))
def State.winEnd (s : State) (d : Nat) : Nat := s.winStart d + windowLen s.tick.period (s.reg .share d)

/-- The deckle a vat is dedicated to. -/
def State.dedicatedTo (s : State) (v : Nat) : Option Nat := allDeckles.find? (fun e => bit (s.reg .dedicated e) v)

/-- The vats in RUN. -/
def State.runVats (s : State) : List Nat := allVats.filter (fun v => (s.vat v).state == .run)

/-- C: the tick's conversions. -/
def State.capTotal (s : State) : Nat := s.capRate * (s.tick.period - 350)

/-- Cap of deckle `d`. -/
def State.deckCap (s : State) (d : Nat) : Nat :=
  let run := s.runVats
  let per := if run.isEmpty then 0 else s.capTotal / run.length
  let shared := (run.filter (fun v => (s.dedicatedTo v).isNone)).length
  let own := (run.filter (fun v => s.dedicatedTo v == some d)).length
  per * shared * s.reg .share d / 256 + per * own

/-! ### Steps, their plans and vectors (R215, R218) -/

/-- The image a step is pinned to, and its plan. -/
def State.stepImage (s : State) (t : StepRec) : Option Image := s.imageGen t.slot t.gen
def State.stepPlan (s : State) (t : StepRec) : Option Plan := (s.stepImage t).bind (fun m => m.plan)

/-- The segments a step runs through. -/
def stepSegs (p : Plan) (t : StepRec) : List Segment := if t.prefill then p.prefill else if t.serve then p.ring else p.decode

/-- Node of plan member or ring member `k`: a plan over several modules has members, any other exchange is a ring's (R386,
R387). -/
def State.memberNode (s : State) (t : StepRec) (k : Nat) : Nat :=
  if 1 < ((s.stepImage t).map (fun m => m.modules)).getD 1 then get 0 (s.slot t.slot).members k
  else s.reg .ringNode (memberCopy t.deckle k)

/-- Groups of 8 vectors, one accumulator tile each per output (R207). -/
def StepRec.vecGroups (t : StepRec) : Nat := ceilDiv t.allVecs.length 8

/-- The quire of a session of the step. -/
def State.stepQuire (s : State) (t : StepRec) (i : Nat) : Option Quire :=
  match t.sessions.idxOf? i, s.stepImage t with
  | some j, some m => s.quireFor t.deckle t.slot (nth t.quires j) m.digest
  | _, _ => none

/-- Sparse entries of a quire for a tile. -/
def quireSparse (q : Option Quire) (tile : Nat) : List (Nat × Nat × Int) :=
  match q with
  | none => []
  | some q => ((q.sparse.find? (fun e => e.1 == tile)).map (fun e => e.2)).getD []

/-- First byte of the STAGE region of a vat (R205). -/
def State.stageAddr (s : State) (v off : Nat) : Nat := scrAddrOf v ((s.vat v).stageBase * 4096 + off)

/-- Device address of a physical accumulator tile. -/
def State.accAddr (s : State) (v tile : Nat) : Nat := scrAddrOf v (((s.vat v).accBase + tile) * 4096)

/-- Vat and tile a name of the step is bound to. -/
def StepRec.tileOf (t : StepRec) (name : Nat) : Option (Nat × Nat) :=
  (t.bind.find? (fun b => b.1 == name)).map (fun b => b.2)

/-! ### Tile passes of an operation (R106, R182, R217) -/

/-- The place of tile `i` of an image. -/
def Image.placeOf (m : Image) (i : Nat) : Option Place := m.mine.find? (fun p => p.tile == i)

/-- The group that serves each tile of a template: position in the template, tile slot, vat and physical group. -/
def State.tileGroups (s : State) (t : StepRec) (m : Template) : List (Option (Nat × Nat × Nat × Nat)) :=
  m.tiles.zipIdx.map (fun x =>
    match (s.stepImage t).bind (fun i => i.placeOf x.1) with
    | none => none
    | some p => (s.locate p.vat p.logical).map (fun g => (x.2, p.slot, g.1, g.2)))

/-- Bursts of a width. -/
def widthBursts (n : Nat) : Nat := ceilDiv n 256

/-- The burst of block `b` for a vector: a residual pass reads the second run of bursts. -/
def State.burstOf (s : State) (m : Template) (v b : Nat) : Bytes :=
  let o := m.src + v * m.srcStride + burstLen * b
  let o := if m.typ = .residual then o + burstLen * widthBursts m.count else o
  s.readMem (s.stageAddr m.unit o) burstLen

/-- The tile slot holds tile `i` of the step's generation. -/
def StepRec.holds (t : StepRec) (i : Nat) (x : Tile) : Bool := x.gen == t.gen && x.index == i && x.slot == t.slot

/-- Tile `i` of a step in its slot of a group: the tile there, or, where a turnover set has not been written yet, the tile
that the write will put there (R336). -/
def State.tileAt (s : State) (t : StepRec) (i w p k : Nat) : Tile :=
  let x := get {} (s.group w p).tiles k
  if t.holds i x then x
  else match (s.stepImage t).bind (fun m => s.tileRecord m i) with
    | some (b, outs) => tileOf b outs t.slot t.gen
    | none => x

/-- Every pass of a tile operation, tile by tile in template order, vectors ascending. -/
def State.passesOf (s : State) (t : StepRec) (m : Template) : List Pass :=
  let vs := tmplVecs t m
  (s.tileGroups t m).foldr (fun g a => match g with
    | none => a
    | some (ti, slot, w, p) =>
      let tile := s.tileAt t (nth m.tiles ti) w p slot
      vs.map (fun x => { vat := w, group := p, slot, ti, v := x.v, tile, burst := s.burstOf m x.v tile.kBlock }) ++ a) []

/-- Every tile of the template stands in its group: no set of a turnover image is still to be written (R336). -/
def State.tilesIn (s : State) (t : StepRec) (m : Template) : Bool :=
  (s.tileGroups t m).all (fun g => match g with
    | none => true
    | some (ti, slot, w, p) => t.holds (nth m.tiles ti) (get {} (s.group w p).tiles slot))

/-- The groups of some passes. -/
def passGroups (ps : List Pass) : List (Nat × Nat) :=
  ps.foldl (fun a p => if a.contains (p.vat, p.group) then a else a ++ [(p.vat, p.group)]) []

/-- What the groups of a tile operation drive, slot by slot (R109, R164). -/
def State.opLoads (s : State) (ps : List Pass) : List (List Load) :=
  (passGroups ps).map (fun g =>
    groupLoads (s.group g.1 g.2).plan ((ps.filter (fun p => p.vat == g.1 && p.group == g.2)).map (fun p => p.burst)))

/-- The tile operations of deckle `d` on vat `u` that were admitted for reference period `start`: their groups step through
the same grid (R96). DESIGN CHOICE: the spec does not say how operations that overlap in part share slots (entry 63). -/
def State.gridMates (s : State) (u start : Nat) : List OpRec :=
  s.sched.ops.filter (fun o => o.unit == u && o.start == start && !o.reissue && !o.loads.isEmpty)

/-- Lengths of the grid slots of vat `u` for some groups' loads (R109, R110). -/
def State.gridOf (s : State) (u : Nat) (loads : List (List Load)) : List Nat := gridSlots loads (s.reg .surgeLim u)

/-- The low-rank pair a vector's quire has for a layer and matrix. -/
def State.pairFor (s : State) (t : StepRec) (layer matrix i : Nat) : Option Pair :=
  (s.stepQuire t i).bind (fun q => q.pairs.find? (fun p => p.layer == layer && p.matrix == matrix))

/-- The distinct numbers of a list, in order of appearance. -/
def distinctOf (l : List Nat) : List Nat := l.foldl (fun a x => if a.contains x then a else a ++ [x]) []

/-- Low-rank products of a stage: each vector's rank times the inputs of its K-blocks and the outputs of its N-blocks that
the tiles cover (R191, R202). DESIGN CHOICE: R202 names the ranks and no count of products (entry 105). -/
def State.rankProducts (s : State) (t : StepRec) (ps : List Pass) : Nat :=
  (distinctOf (ps.map (fun p => p.tile.matrix))).foldl (fun a x =>
    let mine := ps.filter (fun p => p.tile.matrix == x)
    let ks := distinctOf (mine.map (fun p => p.tile.kBlock))
    let ns := distinctOf (mine.map (fun p => p.tile.nBlock))
    let layer := (mine.head?.map (fun p => p.tile.layer)).getD 0
    (t.vecs.filter (fun v => mine.any (fun p => p.v == v.v))).foldl (fun a v =>
      a + ((s.pairFor t layer x v.sess).map (fun p => p.rank)).getD 0 * (256 * ks.length + 64 * ns.length)) a) 0

/-- Side-path products of a tile operation on vat `u` (R202). -/
def State.sideProducts (s : State) (t : StepRec) (m : Template) (u : Nat) (ps : List Pass) : Nat :=
  let vs := t.allVecs
  let quire := fun p : Pass => (quireSparse (s.stepQuire t ((vs.find? (fun x => x.v == p.v)).map (fun x => x.sess) |>.getD 0))
    p.tile.index).length
  ps.foldl (fun a p => a + 64 * m.outliers + p.tile.outliers.length + p.tile.stuck.length + quire p) 0 +
    s.rankProducts t ps + ceilDiv (16384 * ps.length) (2 ^ s.reg .wmRate t.deckle) + 2048 * s.reg .repairRes u

/-- A tile pass operation. -/
def isPass (m : Template) : Bool := m.typ == .tileMvm || m.typ == .residual

/-- Budget of a template's operation on unit `u` from reference period `start`, in converter clocks: a tile operation shares
the grid with those admitted for the same period (R217). -/
def State.opBudget (s : State) (t : StepRec) (m : Template) (u start : Nat) : Nat :=
  if isPass m then
    let ps := s.passesOf t m
    let loads := (s.gridMates u start).foldr (fun o a => o.loads ++ a) (s.opLoads ps)
    max ((s.gridOf u loads).foldl (· + ·) 0) (ceilDiv (s.sideProducts t m u ps) 12000) + 40 * m.budget
  else 40 * m.budget

/-- Conversions a template's operation is charged (R241). -/
def State.opConvs (s : State) (t : StepRec) (m : Template) : Nat :=
  if isPass m then (s.passesOf t m).foldl (fun a p => a + passConvs (s.group p.vat p.group).plan) 0 else 0

/-- Budget of a segment in reference periods, from its operations' budgets: the longest of its paths; without paths they
add up. -/
def segBudget (g : Segment) (bs : List Nat) : Nat :=
  let paths := if g.paths.isEmpty then [List.range bs.length] else g.paths
  ceilDiv (paths.foldl (fun a p => max a (p.foldl (fun b i => b + nth bs i) 0)) 0) 40

/-! ### What a segment needs of vats and groups (R30, R159, R217, R236, R343, R505) -/

/-- A deckle's operations may run on a unit. -/
def State.unitFree (s : State) (d u : Nat) : Bool :=
  if u < 64 then
    (s.vat u).state == .run && !s.reloading u && (s.dedicatedTo u == none || s.dedicatedTo u == some d)
  else !s.reloading (seqCode .hub)

/-- The unit that runs a template planned for unit `u`: `u` itself; for a vat that is not in RUN the first vat that may run
it, of the same die and then of the others, while its data stay where the plan places them (R16, R17, R30). DESIGN CHOICE:
R30 moves the work elsewhere and does not say where (entry 107). -/
def State.unitFor (s : State) (d u : Nat) : Option Nat :=
  if 64 ≤ u ∨ (s.vat u).state = .run then (if s.unitFree d u then some u else none)
  else (allVats.filter (fun v => dieOf v == dieOf u) ++ allVats.filter (fun v => dieOf v != dieOf u)).find? (s.unitFree d)

/-- Group `p` of vat `w` is, or is about to be, in fall-back calibration. -/
def State.groupFalls (s : State) (w p : Nat) : Bool :=
  (s.group w p).inFall || ((s.falling w).isNone && s.fallHead w == some p)

/-- The groups of a template are there: none when one is unavailable for the tick, else whether one is in fall-back
calibration. -/
def State.groupsReady (s : State) (t : StepRec) (m : Template) : Option Bool :=
  (s.tileGroups t m).foldl (fun a g => match a, g with
    | some late, some (_, _, w, p) =>
      if (s.vat w).state ≠ .run then none
      else if s.groupFalls w p then some true
      else if (s.group w p).state = .inService then some late else none
    | _, _ => none) (some false)

/-- Every operation of a segment finds its unit and groups: whether one waits for reference period 2,600. -/
def State.segReady (s : State) (d : Nat) (t : StepRec) (g : Segment) : Option Bool :=
  if !g.ops.all (fun m => (s.unitFor d m.unit).isSome) then none
  else g.ops.foldl (fun a m => match a with
    | none => none
    | some late => if isPass m then (s.groupsReady t m).map (late || ·) else some late) (some false)

/-- The part of the tick a segment of deckle `d` runs in, lent by deckle `l`: the whole execution phase when every unit
is dedicated to the deckle, else the lender's window. -/
def State.segWindow (s : State) (d l : Nat) (g : Segment) : Nat × Nat :=
  let own := fun m : Template => match s.unitFor d m.unit with
    | some u => decide (u < 64) && s.dedicatedTo u == some d
    | none => false
  if d = l ∧ g.ops.all own then (200, s.tail)
  else (s.winStart l, s.winEnd l)

/-! ### Binding of accumulator tiles (R230) -/

/-- The names a plan's segments use, each with its vat: that of the first template of a vat that names it. -/
def planNames (gs : List Segment) : List (Nat × Nat) :=
  gs.foldl (fun a g => g.ops.foldl (fun a m =>
    if m.unit < 64 then (m.accRd ++ m.accWr).foldl (fun a n =>
      if a.any (fun x => x.1 == n) then a else a ++ [(n, m.unit)]) a
    else a) a) []

/-- A free tile of deckle `d`'s allotment on vat `v`; tile `k` of the allotment when the name is pinned to it (R598). -/
def State.freeTile (s : State) (d v : Nat) (pin : Option Nat) (bound : SMap Nat) : Option Nat :=
  let al := s.allot d v
  match pin with
  | some k => if k < al.2 ∧ get 0 bound (tileKey v (al.1 + k)) = 0 then some (al.1 + k) else none
  | none => ((List.range al.2).map (al.1 + ·)).find? (fun k => get 0 bound (tileKey v k) == 0)

/-- Bind names to free tiles; none when one finds no tile. -/
def State.bindNames (s : State) (d : Nat) (pins : List (Nat × Nat)) :
    List (Nat × Nat) → SMap Nat → Option (List (Nat × Nat × Nat) × SMap Nat)
  | [], b => some ([], b)
  | (n, v) :: r, b =>
    let pin := (pins.find? (fun p => p.1 == n)).map (fun p => p.2)
    match s.freeTile d v pin b with
    | none => none
    | some k => (s.bindNames d pins r (ins b (tileKey v k) (d + 1))).map (fun x => ((n, v, k) :: x.1, x.2))

/-! ### Context saves (R210, R604) -/

/-- Bytes of a context record of `n` tiles. -/
def ctxBytes (n : Nat) : Nat := 64 + 4112 * n

/-- The vats of some bindings, ascending. -/
def bindVats (b : List (Nat × Nat × Nat)) : List Nat := allVats.filter (fun v => b.any (fun x => x.2.1 == v))

/-- The pre-empted prefills of deckle `d` whose tiles another step may take (R219). -/
def State.saveable (s : State) (d id : Nat) : List StepRec :=
  (s.deckle d).steps.filter (fun t =>
    t.prefill && t.preempted && t.open_ops == 0 && !t.saved && !t.bind.isEmpty && t.id != id)

/-- The operations that save or restore the tiles of some bindings, one per vat; entry, sequence number and window are
set at admission. -/
def ctxOps (typ : OpType) (t : StepRec) (b : List (Nat × Nat × Nat)) : List OpRec :=
  (bindVats b).map (fun v =>
    let l := b.filter (fun x => x.2.1 == v)
    let tiles := l.map (fun x => tileKey v x.2.2)
    { typ, deckle := t.deckle, unit := v, preempt := true, owner := t.sessions.headD 0, step := t.id, segment := t.seg,
      layer := 0xFFFF
      accRd := if typ = .ctxSave then tiles else [], accWr := if typ = .ctxSave then [] else tiles
      budget := 40 * (50 + 3 * l.length) })

/-- Pages of the context record of a step. -/
def StepRec.ctxPages (t : StepRec) : Nat := ceilDiv (ctxBytes t.bind.length) 65536

/-- The tiles of a pre-empted prefill leave it: its context area is allocated and its saves are due. -/
def State.saveStep (s : State) (d : Nat) (t : StepRec) : Option (List OpRec × State) :=
  match takePages t.ctxPages 0 (ownDeckle d) [] s with
  | none => none
  | some (ps, _, s) =>
    let s := releaseTiles t.bind (s.modSession (t.sessions.headD 0) (fun x => { x with ctxPages := ps }))
    let s := s.modStep d t.id (fun t =>
      { t with saved := true, savedNames := t.bind, bind := [], open_ops := (bindVats t.bind).length })
    some (ctxOps .ctxSave t t.bind, s)

/-- Save some steps in order: the saves due. -/
def saveSteps (d : Nat) : List StepRec → List OpRec → State → Option (List OpRec × State)
  | [], ops, s => some (ops, s)
  | t :: r, ops, s => match s.saveStep d t with
    | none => none
    | some (o, s) => saveSteps d r (ops ++ o) s

/-- The fewest of some pre-empted prefills, in order, whose tiles make room for the names. -/
def State.enoughSaves (s : State) (d : Nat) (pins names : List (Nat × Nat)) : List StepRec → List StepRec → SMap Nat →
    Option (List StepRec)
  | [], acc, b => if (s.bindNames d pins names b).isSome then some acc else none
  | t :: r, acc, b => if (s.bindNames d pins names b).isSome then some acc
    else s.enoughSaves d pins names r (acc ++ [t]) (t.bind.foldl (fun m x => put 0 m (tileKey x.2.1 x.2.2) 0) b)

/-- Bind names, saving as many of the deckle's pre-empted prefills as their tiles need: the bindings, the saves due, the
state. Where the saves would not make room nothing is saved; a shortfall of pages swaps out victims, and the step waits
(R219, R230, R269). -/
def State.bindOrSave (s : State) (d : Nat) (pins names : List (Nat × Nat)) (l : List StepRec) :
    Option (List (Nat × Nat × Nat) × List OpRec) × State :=
  match s.enoughSaves d pins names l [] s.sched.bound with
  | none => (none, s)
  | some ts => match s.makeRoom d (ts.foldl (fun a t => a + t.ctxPages) 0) with
    | (.ok, s) => match saveSteps d ts [] s with
      | none => (none, s)
      | some (ops, s') => match s'.bindNames d pins names s'.sched.bound with
        | none => (none, s)
        | some (b, m) => (some (b, ops), { s' with sched := { s'.sched with bound := m } })
    | (_, s) => (none, s)

/-! ### The scoreboard (R221, R228, R229) -/

/-- The operations that hold an entry: all but those that failed and wait for their re-issue (R233). -/
def State.entries (s : State) : List OpRec := s.sched.ops.filter (fun o => !o.failed)

/-- Entries a deckle holds. -/
def State.sbUsed (s : State) (d : Nat) : Nat := (s.entries.filter (fun o => o.deckle == d)).length

/-- `n` more entries fit the deckle's quota and the scoreboard's 32,768 (R216, R228). -/
def State.sbRoom (s : State) (d n : Nat) : Bool :=
  decide (s.sbUsed d + n ≤ s.reg .sbQuota d) && decide (s.entries.length + n ≤ 32768)

/-- The lowest scoreboard entry not in use, from `n` on. -/
def State.freeEntry (s : State) : Nat → Nat → Nat
  | 0, n => n
  | fuel + 1, n => if s.entries.any (fun o => o.slotNo == n) then s.freeEntry fuel (n + 1) else n

/-- Enter an operation under the next sequence number of its deckle. -/
def State.enterOp (s : State) (o : OpRec) : State :=
  let n := (s.deckle o.deckle).seqNext
  let k := s.freeEntry s.sched.ops.length 0
  let s := s.modDeckle o.deckle (fun x => { x with seqNext := n + 1 })
  { s with sched := { s.sched with ops := s.sched.ops ++ [{ o with slotNo := k, seq := n }] } }

/-- An exchange with another module. -/
def crosses : ExchWork → Bool
  | .sendTo _ _ | .recvFrom _ _ => true
  | _ => false

/-- An exchange with another module. -/
def crossing (m : Template) : Bool := m.typ == .exchange && crosses m.exch

/-- Bytes a vector unit's work writes for a vector. -/
def State.vectorLen (s : State) (t : StepRec) (m : Template) : Nat :=
  match m.vec with
  | .quantise _ precise => burstLen * widthBursts m.count * (if precise then 2 else 1)
  | .add => 4 * m.count
  | .embed => 4 * ((s.stepImage t).map (fun i => i.width)).getD 0
  | .func _ outs => 4 * outs

/-- The first page of section `k` of the step's image, as a read: the pages of an image have one owner. -/
def State.sectionRead (s : State) (t : StepRec) (k : Nat) : List (Nat × Nat × Bool) :=
  (((s.stepImage t).bind (fun i => (get [] i.secPages k).head?)).map (fun p => (p * 65536, 1, false))).toList

/-- The quire pages a vector's work reads. -/
def State.quireRead (s : State) (t : StepRec) (i : Nat) : List (Nat × Nat × Bool) :=
  (((s.stepQuire t i).bind (fun q => q.pages.head?)).map (fun p => (p * 65536, 1, false))).toList

/-- What an operation of the template accesses over the web and in STAGE: address, bytes, write (R12, R26, R28, R182, R417).
Accumulator tiles and the KV pages of its sessions are checked by name (R232). -/
def State.accesses (s : State) (t : StepRec) (m : Template) : List (Nat × Nat × Bool) :=
  let vs := tmplVecs t m
  let stage := fun u off stride n w => vs.map (fun x => (s.stageAddr u (off + x.v * stride), n, w))
  let dev := fun off stride n w => vs.map (fun x => (off + x.v * stride, n, w))
  let bursts := burstLen * widthBursts m.count
  let quires := (distinctOf (vs.map (fun x => x.sess))).foldr (fun i a => s.quireRead t i ++ a) []
  let vocab := ((s.stepImage t).map (fun i => i.vocab)).getD 0
  match m.typ with
  | .tileMvm => stage m.unit m.src m.srcStride bursts false ++ quires
  | .residual => stage m.unit m.src m.srcStride (2 * bursts) false ++ quires
  | .sizing =>
    if !m.last then []
    else
      let low := vs.filter (fun x => (s.pairFor t m.layer m.matrix x.sess).isSome)
      stage m.unit m.dst m.dstStride (256 * m.nBlocks.length) true ++
        low.map (fun x => (s.stageAddr m.unit (m.src + x.v * m.srcStride), bursts * (if m.precise then 2 else 1), false)) ++
        low.foldr (fun x a => s.quireRead t x.sess ++ a) []
  | .attnBlock => stage m.unit m.src m.srcStride (512 * m.heads.length) false
  | .vector =>
    let out := (m.unit :: m.bcast).foldr (fun u a => stage u m.dst m.dstStride (s.vectorLen t m) true ++ a) []
    let first := stage m.unit m.src m.srcStride (4 * m.count) false
    let second := stage m.unit m.src2 m.srcStride (4 * m.count) false
    (match m.vec with
     | .quantise _ _ => first
     | .add => first ++ second
     | .embed => s.sectionRead t 4
     | .func _ _ => first ++ second ++ (if m.params = 0 then [] else s.sectionRead t 5)) ++ out
  | .kvAppend => stage m.unit m.src m.srcStride (512 * m.heads.length) false ++
      stage m.unit m.src2 m.srcStride (512 * m.heads.length) false
  | .sample => stage m.unit m.src m.srcStride (4 * vocab) false
  | .exchange => match m.exch with
    | .copy => dev m.src m.srcStride m.count false ++ dev m.dst m.dstStride m.count true
    | .merge => dev m.dst m.dstStride ((if t.serve then 520 else 512) * m.heads.length) true ++
        (if m.dev = 0 then [] else (vs.filter (fun x => (s.session x.sess).ring)).foldr (fun x a =>
          (List.range (s.session x.sess).member).map (fun i =>
            (m.dev + 520 * (i * t.allVecs.length + x.v) * m.heads.length, 520 * m.heads.length, false)) ++ a) [])
    | .logits => dev m.src m.srcStride (4 * vocab) false
    | .sendTo _ _ => dev m.src m.srcStride m.count false
    | .handOver | .recvFrom _ _ | .setWrite _ => []
  | .ctxSave | .ctxRestore => []

/-- The scratchpad ranges among some accesses. -/
def scrPlaces (l : List (Nat × Nat × Bool)) : List (Nat × Nat) :=
  (l.filter (fun x => decide (scrBase ≤ x.1))).map (fun x => (x.1, x.2.1))

/-- The operation of template `i` of a segment that starts at reference period `start`. `first` is the sequence number of
the segment's template 0. -/
def State.opOf (s : State) (t : StepRec) (p : Plan) (g : Segment) (i first start : Nat) (m : Template) : OpRec :=
  let keys := fun l : List Nat => l.filterMap (fun n => (t.tileOf n).map (fun x => tileKey x.1 x.2))
  let before := ((stepSegs p t).take t.seg).foldl (fun a g => a + g.ops.length) 0
  let u := (s.unitFor t.deckle m.unit).getD m.unit
  { typ := m.typ, deckle := t.deckle, unit := u, preempt := t.prefill, cross := crossing m
    owner := if t.prefill then t.sessions.headD 0 else 2 ^ 31 + t.id % 512, attn := s.attnVats t.deckle
    loads := if isPass m then s.opLoads (s.passesOf t m) else [], places := scrPlaces (s.accesses t m)
    canonical := p.canonical, step := t.id, plan := before + i, layer := m.layer, segment := t.seg
    accRd := keys m.accRd, accWr := keys m.accWr
    kvFirst := if m.kvMode = 0 then 0 else if m.kvMode = 2 then t.bases.headD 0 else 0
    kvCnt := if m.kvMode = 0 then 0 else if m.kvMode = 2 then t.counts.headD 0 else t.bases.headD 0 + t.counts.headD 0
    kvMode := m.kvMode, budget := s.opBudget t m u start, convs := s.opConvs t m
    deps := (m.after.filter (fun j => decide (j < g.ops.length))).map (first + ·), tmpl := some m }

/-! ### Admission of a segment (R216, R217) -/

/-- Put a step among those begun, in the place it has there or at the end. -/
def State.putStep (s : State) (t : StepRec) : State :=
  s.modDeckle t.deckle (fun k =>
    { k with steps := if k.steps.any (fun u => u.id == t.id) then k.steps.map (fun u => if u.id = t.id then t else u)
                      else k.steps ++ [t] })

/-- Token-ring slots a step of session `i` may need (R300). -/
def State.creditNeed (s : State) (i : Nat) : Nat :=
  match (s.session i).active with
  | some r => gDrafts r.cmd.entry + 1
  | none => 0

/-- The members of a decode step all have room for its records. -/
def State.creditOk (s : State) (t : StepRec) : Bool :=
  t.prefill || t.live.all (fun i => match (s.session i).active with
    | some r => decide (s.creditNeed i ≤ r.credit)
    | none => false)

/-- The conditions that hold for every segment: an attention vat in RUN, enough vats for a turnover plan, the members'
regions resident, no CHECKPOINT or swap of theirs before a first segment, and no other step of a turnover cohort behind this
one (R259, R290, R337). -/
def State.stepOk (s : State) (d : Nat) (t : StepRec) (m : Image) (p : Plan) : Bool :=
  !(s.attnVats d).isEmpty && t.live.all (fun i => (s.session i).resident) &&
  (t.seg != 0 || t.live.all (fun i => (s.session i).swapping.isNone && !(s.session i).checkpointDue)) &&
  (!m.turnover || (decide (p.minVats ≤ s.runVats.length) && !allDeckles.any (fun e => (s.deckle e).steps.any (fun u =>
    u.slot == t.slot && u.gen == t.gen && u.prefill == t.prefill && decide (u.seg < t.seg)))))

/-- An exchange with another module begins 1 µs after its window's start and ends 1 µs before its end (R49, R239). -/
def OpRec.inside (o : OpRec) (first : Nat) : OpRec :=
  if o.cross then { o with start := max o.start (first + 50), deadline := o.deadline - 50 } else o

/-- Enter a segment's operations: context operations, then the templates, in the window `w` of deckle `lender`. -/
def State.enterSegment (s : State) (t : StepRec) (p : Plan) (g : Segment) (ctx : List OpRec) (start : Nat) (w : Nat × Nat)
    (lender : Nat) : State :=
  let own := fun o : OpRec => { o with start, deadline := w.2, lender, borrowed := lender != t.deckle }.inside w.1
  let s := ctx.foldl (fun s o => s.enterOp (own o)) s
  let first := (s.deckle t.deckle).seqNext
  g.ops.zipIdx.foldl (fun s x => s.enterOp (own (s.opOf t p g x.2 first start x.1))) s

/-- The first segment that a step binds tiles for, or a saved step: its bindings and the context operations due. DESIGN
CHOICE: a restore takes the lowest free tile of the vat a name was saved from, where R211 allows any tile of the deckle
(entry 108). -/
def State.bindStep (s : State) (t : StepRec) (p : Plan) : Option (List (Nat × Nat × Nat) × List OpRec) × State :=
  if t.saved then
    match s.bindOrSave t.deckle p.pinned (t.savedNames.map (fun x => (x.1, x.2.1))) (s.saveable t.deckle t.id) with
    | (some (b, ops), s) => (some (b, ops ++ ctxOps .ctxRestore { t with bind := b } b), s)
    | r => r
  else if t.seg = 0 ∧ t.bind.isEmpty then
    s.bindOrSave t.deckle p.pinned (planNames (stepSegs p t)) (s.saveable t.deckle t.id)
  else (some (t.bind, []), s)

/-- The nodes that the exchanges of a segment go to or come from. -/
def State.crossNodes (s : State) (t : StepRec) (g : Segment) : List Nat :=
  (g.ops.filter crossing).map (fun m => match m.exch with
    | .sendTo k _ | .recvFrom k _ => s.memberNode t k
    | _ => s.reg .nodeId)

/-- A node that no exchange can go to: no route, or this module is no member (R50, R364, R381). -/
def State.cutOff (s : State) (node : Nat) : Bool :=
  node != s.reg .nodeId && (s.torus.member != 2 || !s.reachable node)

/-- A window too short for one of the segment's exchanges with another module and 1 µs at both ends (R239). -/
def shortWindow (g : Segment) (w : Nat × Nat) : Bool :=
  g.ops.any (fun m => crossing m && decide (w.2 < w.1 + m.budget + 100))

/-- A step fails at issue with every vector it holds (R234, R239, R364). -/
def State.failIssue (s : State) (t : StepRec) (e : Err) (order : Nat) : State :=
  s.report { err := e, deckle := some t.deckle, named := t.live, order }

/-- Admit the next segment of a step from reference period `from_` in the window of deckle `l`: whether it was admitted or
failed at issue, and the state. -/
def State.issueSeg (s : State) (t : StepRec) (from_ l : Nat) : Bool × State :=
  match s.stepImage t with
  | none => (false, s)
  | some m => match m.plan with
    | none => (false, s)
    | some p => match (stepSegs p t)[t.seg]? with
      | none => (false, s)
      | some g => match s.segReady t.deckle t g with
        | none => (false, s)
        | some late =>
          let w := s.segWindow t.deckle l g
          let start := max (max from_ w.1) (if late then 2600 else 0)
          let units := g.ops.map (fun x => (s.unitFor t.deckle x.unit).getD x.unit)
          let need := segBudget g ((g.ops.zip units).map (fun x => s.opBudget t x.1 x.2 start))
          let convs := g.ops.foldl (fun a x => a + s.opConvs t x) 0
          if !s.stepOk t.deckle t m p ∨ (t.seg = 0 ∧ !s.creditOk t) then (false, s)
          else if l ≠ t.deckle ∧ g.ops.any crossing then (false, s)
          else if shortWindow g w then (true, s.failIssue t .xwindow start)
          else if w.2 < start + need ∨ (s.deckle l).capLeft < convs ∨ !s.sbRoom t.deckle g.ops.length then (false, s)
          else if (s.crossNodes t g).any s.cutOff then (true, s.failIssue t .unreachable start)
          else match s.bindStep t p with
            | (none, s) => (false, s)
            | (some (b, ctx), s') =>
              let extra := ceilDiv (ctx.foldl (fun a o => max a o.budget) 0) 40
              if w.2 < start + extra + need ∨ !s.sbRoom t.deckle (g.ops.length + ctx.length) ∨
                  !ctx.all (fun o => s.unitFree t.deckle o.unit) then (false, s)
              else
                let t := { t with bind := b, open_ops := g.ops.length + (ctx.filter (fun o => o.typ == .ctxRestore)).length
                                  restoring := t.saved, saved := false, preempted := false
                                  quires := if t.seg = 0 then t.sessions.map (fun i => (s.session i).quire) else t.quires }
                let s' := (s'.putStep t).modDeckle l (fun k => { k with capLeft := k.capLeft - convs })
                (true, s'.enterSegment t p g ctx start w l)

/-! ### The ready list (R218, R219, R294, R300, R308, R312, R342) -/

/-- Order of the classes that are ordered by request: priority 7 first, tick of acceptance, session index. -/
def State.readyLe (s : State) (i j : Nat) : Bool :=
  let at_ := fun k => match (s.session k).active with
    | some r => r.cmd.tick
    | none => 0
  let x := s.session i
  let y := s.session j
  if x.priority ≠ y.priority then decide (y.priority < x.priority)
  else if at_ i ≠ at_ j then decide (at_ i < at_ j)
  else decide (i ≤ j)

/-- The slot serves new steps of a generation (R339, R343, R344). -/
def State.slotServes (s : State) (k gen : Nat) : Bool :=
  let x := s.slot k
  !x.unplaced && !x.moving && !x.rewriting &&
  (match x.current with
    | some m => m.gen != gen || (!x.rewriteDue && !x.rewriteEnd)
    | none => true)

/-- Nothing holds back a new step of session `i`. -/
def State.canStep (s : State) (i : Nat) : Bool :=
  let x := s.session i
  x.resident && x.swapping.isNone && !s.stepping i && !x.kvInvalid && x.commitDue == 0 &&
  !x.checkpointDue

/-- Drafts a step of session `i` carries (R308). -/
def Session.drafts (x : Session) (r : Request) : List Nat :=
  r.props.take (min (x.maxLen - 1 - x.len) (r.remain - 1))

/-- Sessions of a deckle ready for a decode step, in order. -/
def State.readyDecode (s : State) (d : Nat) : List Nat :=
  sortBy s.readyLe ((s.openSessions d).filter (fun i =>
    let x := s.session i
    x.state == .decode && (x.active.map (fun r => r.kind == .generate)).getD false && s.canStep i && x.isTail &&
    decide (x.len < x.maxLen)))

/-- Sessions of a deckle ready for a prefill chunk, in order. -/
def State.readyPrefill (s : State) (d : Nat) : List Nat :=
  sortBy s.readyLe ((s.openSessions d).filter (fun i =>
    let x := s.session i
    x.state == .prefill && (x.active.map (fun r => r.kind == .prefill && decide (1 < r.tokens.length))).getD false &&
    s.canStep i && x.inChunk))

/-- The tokens of session `i`'s next positions: the pending token, then at most `n` drafts, none beyond this module's chunk. -/
def State.stepToks (s : State) (i n : Nat) : List Nat :=
  let x := s.session i
  match x.active with
  | some r => x.pendingTok :: (x.drafts r).take (min n (x.chunkEnd - 1 - x.len))
  | none => []

/-- The tokens of a batch's members, which together carry at most `room` drafts. -/
def State.batchToks (s : State) : Nat → List Nat → List (List Nat)
  | _, [] => []
  | room, i :: r =>
    let l := s.stepToks i room
    l :: s.batchToks (room - (l.length - 1)) r

/-- A decode step of some sessions at generation `gen`, of at most `n` vectors. DESIGN CHOICE: where the drafts of R308
would make a batch larger than BATCH_MAX, its last members carry fewer (R218, entry 106). -/
def State.decodeStep (s : State) (d id k gen n : Nat) (l : List Nat) : StepRec :=
  let toks := s.batchToks (n - l.length) l
  { id, deckle := d, sessions := l, bases := l.map (fun i => (s.session i).len), counts := toks.map List.length
    slot := k, gen, toks := toks.foldr (· ++ ·) [] }

/-- The step that a ring member runs for the tail: the pending position and every draft it may carry (R267). -/
def State.serveStep (s : State) (d id k gen i : Nat) : StepRec :=
  let n := s.creditNeed i
  { id, deckle := d, sessions := [i], bases := [(s.session i).len], counts := [n], slot := k, gen, serve := true
    toks := List.replicate n (s.session i).pendingTok }

/-- A prefill chunk of session `i` of at most `n` positions, all of them in this module's chunk of a ring (R266). -/
def State.prefillStep (s : State) (d id i gen n : Nat) : StepRec :=
  let x := s.session i
  let toks := match x.active with
    | some r => r.tokens.take (min (min n (r.tokens.length - 1)) (x.chunkEnd - x.len))
    | none => []
  { id, deckle := d, prefill := true, sessions := [i], bases := [x.len], counts := [toks.length], slot := x.model, gen, toks }

/-- Take sessions of the head's slot and generation into a batch of at most `n` vectors; the head always joins, with as many
drafts as fit. -/
def State.gather (s : State) (k : Nat) (gen : Option Nat) (n : Nat) : Nat → List Nat → List Nat
  | _, [] => []
  | used, i :: r =>
    let x := s.session i
    let w := if used = 0 then min n (s.stepToks i n).length else (s.stepToks i n).length
    if x.model = k ∧ s.nextGen i = gen ∧ (used = 0 ∨ used + w ≤ n) then i :: s.gather k gen n (used + w) r
    else s.gather k gen n used r

/-- A request whose quire is not bound to the generation of its next step ends with REAM_CHANGED (R342). -/
def State.dropUnbound (s : State) (d : Nat) (l : List Nat) : State :=
  l.foldl (fun s i =>
    if s.quireBound d (s.session i).model (s.session i).quire (s.nextGen i) then s
    else (s.endActive i 4 (errCode .quireBind) 0 false 150).startWaiting i 150) s

/-- A turnover slot takes a new step of a kind: no step of it is begun but those of the cohort being gathered, which is of
one generation. DESIGN CHOICE: the passes of two generations over the sets follow one another, since two banks hold one pass
(R336, R340, entry 109). -/
def State.cohortOpen (s : State) (k : Nat) (m : Image) (p : Plan) (prefill : Bool) : Bool :=
  !m.turnover ||
  (let l := allDeckles.foldl (fun a d => a ++ (s.deckle d).steps.filter (fun t => t.slot == k)) []
   l.all (fun t => t.gen == m.gen && t.prefill == prefill && t.seg == 0) && decide (l.length < p.cohortMax))

/-- Try a new step: it is begun when its first segment is admitted, and otherwise leaves no trace but swaps begun for a
context save. -/
def State.tryStep (s : State) (t : StepRec) (from_ l : Nat) : State :=
  match s.issueSeg t from_ l with
  | (true, s) => s.modDeckle t.deckle (fun k => { k with stepNext := k.stepNext + 1 })
  | (false, s) => s

/-- Form decode batches from the head of the ready list, in at most `fuel` rounds (R218). A session short of credit is
held (R300). -/
def State.formBatches (s : State) (d from_ l : Nat) : Nat → List Nat → State
  | 0, _ => s
  | _, [] => s
  | fuel + 1, i :: r =>
    let k := (s.session i).model
    match s.nextGen i with
    | none => s.formBatches d from_ l fuel r
    | some gen => match s.imageGen k gen with
      | none => s.formBatches d from_ l fuel r
      | some m => match m.plan with
        | none => s.formBatches d from_ l fuel r
        | some p =>
          let b := s.gather k (some gen) p.batchMax 0 (i :: r)
          let rest := r.filter (fun j => !b.contains j)
          if !s.slotServes k gen ∨ !s.cohortOpen k m p false then s.formBatches d from_ l fuel rest
          else (s.tryStep (s.decodeStep d (s.deckle d).stepNext k gen p.batchMax b) from_ l).formBatches d from_ l fuel rest

/-- Try a prefill chunk of session `i`. -/
def State.tryPrefill (s : State) (d from_ l i : Nat) : State :=
  let k := (s.session i).model
  match s.nextGen i with
  | none => s
  | some gen => match s.imageGen k gen with
    | none => s
    | some m => match m.plan with
      | none => s
      | some p =>
        if !s.slotServes k gen ∨ !s.cohortOpen k m p true then s
        else s.tryStep (s.prefillStep d (s.deckle d).stepNext i gen p.batchMax) from_ l

/-- The unit that re-issues an operation: the one it has, while that is RUN or completes what it was issued, else the one
that a new operation of its template would take (R30, R42). -/
def State.redoUnit (s : State) (o : OpRec) : Option Nat :=
  if o.unit < 64 ∧ (s.vat o.unit).state = .draining ∧ !s.reloading o.unit then some o.unit
  else match o.tmpl with
    | some m => s.unitFor o.deckle m.unit
    | none => if s.unitFree o.deckle o.unit then some o.unit else none

/-- Re-issue an operation abandoned or failed in an earlier tick (R42, R219, R241). -/
def State.reissueOp (s : State) (o : OpRec) (from_ l : Nat) : State :=
  match s.stepOf o.deckle o.step, s.redoUnit o with
  | some t, some u =>
    let m := o.tmpl
    match (match m with
      | some m => if isPass m then s.groupsReady t m else some false
      | none => some false) with
    | none => s
    | some late =>
      let w := s.segWindow o.deckle l { ops := [m.getD { unit := o.unit }] }
      let start := max (max from_ w.1) (if late then 2600 else 0)
      let budget := match m with
        | some m => s.opBudget t m u start
        | none => o.budget
      let convs := match m with
        | some m => s.opConvs t m
        | none => 0
      if w.2 < start + ceilDiv budget 40 ∨ (s.deckle l).capLeft < convs ∨ (o.failed ∧ !s.sbRoom o.deckle 1) then s
      else
        let slotNo := if o.failed then s.freeEntry s.sched.ops.length 0 else o.slotNo
        let s := s.modDeckle l (fun k => { k with capLeft := k.capLeft - convs })
        { s with sched := { s.sched with ops := s.sched.ops.map (fun x =>
          if x.deckle == o.deckle && x.seq == o.seq then
            { x with reissue := false, failed := false, slotNo, unit := u, start, deadline := w.2, budget, convs, lender := l
                     borrowed := l != o.deckle }.inside w.1
          else x) } }
  | _, _ => s

/-- Steps of a deckle that wait for their next segment, in order of first admission. -/
def State.begun (s : State) (d : Nat) : List StepRec :=
  sortBy (fun a b => decide (a.id ≤ b.id)) ((s.deckle d).steps.filter (fun t => t.open_ops == 0))

/-- The operations of a deckle that wait for their re-issue, abandoned or failed before this tick (R42, R234). -/
def State.redo (s : State) (d : Nat) : List OpRec :=
  sortBy (fun a b => decide (a.seq ≤ b.seq))
    (s.sched.ops.filter (fun o => o.deckle == d && o.reissue && o.stopTick != s.tick.now))

/-- Admit the next segments of the steps deckle `d` has begun, from `from_` on in the window of deckle `l` (R216, R219). -/
def State.runBegun (s : State) (d from_ l : Nat) : State :=
  (s.begun d).foldl (fun s t => match s.stepOf d t.id with
    | some t => if t.open_ops = 0 then (s.issueSeg t from_ l).2 else s
    | none => s) s

/-- Ring sessions of a deckle whose step another member runs (R267). -/
def State.readyServe (s : State) (d : Nat) : List Nat :=
  sortBy s.readyLe ((s.openSessions d).filter (fun i =>
    let x := s.session i
    x.ring && !x.isTail && x.state == .decode && (x.active.map (fun r => r.kind == .generate)).getD false && s.canStep i &&
    decide (x.len < x.maxLen)))

/-- Begin the part of a ring step that session `i`'s member runs for the tail. -/
def State.tryServe (s : State) (d from_ l i : Nat) : State :=
  let k := (s.session i).model
  match s.nextGen i with
  | none => s
  | some gen => if !s.slotServes k gen then s
    else s.tryStep (s.serveStep d (s.deckle d).stepNext k gen i) from_ l

/-- Admit what deckle `d` can run from `from_` on in the window of deckle `l`, class by class, in the allocation phase
(R219). -/
def State.runReady (s : State) (d from_ l : Nat) : State :=
  let s := (s.redo d).foldl (fun s o => s.reissueOp o from_ l) s
  let s := s.runBegun d from_ l
  let dec := s.readyDecode d
  let s := s.dropUnbound d dec
  let dec := s.readyDecode d
  let held := dec.filter (fun i => match (s.session i).active with
    | some r => decide (r.credit < s.creditNeed i)
    | none => false)
  let s := if d = l then s.modDeckle d (fun k => { k with creditWait := satAdd 32 k.creditWait held.length }) else s
  let dec := dec.filter (fun i => !held.contains i)
  let s := s.formBatches d from_ l dec.length dec
  let s := (s.readyServe d).foldl (fun s i => s.tryServe d from_ l i) s
  let pre := s.readyPrefill d
  let s := s.dropUnbound d pre
  (s.readyPrefill d).foldl (fun s i => s.tryPrefill d from_ l i) s

/-- The deckles after deckle `l` in cyclic order. -/
def cyclic (l : Nat) : List Nat := (List.range 15).map (fun k => (l + 1 + k) % 16)

/-- Deckle `d` lends and borrows: open, unsealed (R237). DESIGN CHOICE: an unsealed deckle that is not open lends nothing,
which R237 does not say (entry 110). -/
def State.trades (s : State) (d : Nat) : Bool := (s.deckle d).opened && s.reg .sealed d == 0

/-- Deckle `d` may admit into another's window: one with SHARE 0 has no part in shared vats (R238). -/
def State.borrows (s : State) (d : Nat) : Bool := s.trades d && s.reg .share d != 0

/-- The rest of an unsealed deckle's window, from `from_` on, is open to the other unsealed deckles, which admit by `f`
(R237). -/
def State.offer (s : State) (f : State → Nat → State) (l from_ : Nat) : State :=
  if !s.trades l ∨ s.winEnd l ≤ from_ then s
  else (cyclic l).foldl (fun s e => if s.borrows e then f s e else s) s

/-- The windows in which a step of deckle `d` may run its next segment during the execution phase: its own, then those open
to borrowing, the nearest first (R216, R237). -/
def State.windowsOf (s : State) (d : Nat) : List Nat :=
  d :: (if s.borrows d then allDeckles.filter (fun l => l != d && s.trades l) else [])

/-- Admit a step's next segment from reference period `time` on, in the first of some windows that takes it. -/
def State.issueNext (s : State) (t : StepRec) (time : Nat) : List Nat → State
  | [] => s
  | l :: r => match s.issueSeg t time l with
    | (true, s) => s
    | (false, s) => s.issueNext t time r

/-! ### The allocation phase (R216, R240, R269, R273, R285, R312) -/

/-- Nothing can make room for a swap-in: the command that needs it completes REJECTED with NO_FIT (R269). -/
def State.noFitEnd (s : State) (d i : Nat) : State :=
  match (s.session i).resumeReq with
  | some c => (s.modSession i (fun x => { x with resumeReq := none })).reject d c .noFit
  | none =>
    let s := (s.corrected .noFit 0 (some d) i).endActive i 6 (errCode .noFit) 0 false 150
    { s with rejects := satAdd 32 s.rejects 1 }.startWaiting i 150

/-- Regions wanted: opens that wait, resumed sessions, and swapped sessions whose next step is ready. -/
def State.serveSwaps (s : State) (d : Nat) : State :=
  let s := (s.sessionsOf d).foldl (fun s i => if (s.session i).openReq.isSome then s.tryOpen i else s) s
  let want := (s.sessionsOf d).filter (fun i =>
    let x := s.session i
    x.swapping.isNone && ((x.state == .paused && x.resumeReq.isSome) ||
      (x.state == .swapped && (x.active.map (fun r => r.kind != .pause)).getD false)))
  let s := want.foldl (fun s i => match s.beginSwapIn i with
    | (.noFit, s) => s.noFitEnd d i
    | (_, s) => s) s
  s.swapsOf d

/-- Groups with a second watermark mismatch are in RECAL from this allocation phase on (R199). -/
def State.watermarkRecal (s : State) : State :=
  (s.groupList.filter (fun x => (s.group x.1 x.2).recalNext)).foldl (fun s x =>
    s.modGroup x.1 x.2 (fun g => { g with state := .recal, recalNext := false })) s

/-- ALLOCATION_PHASE: the third phase of a tick; the execution phase follows it (R33). -/
def State.allocate (s : State) : State :=
  if s.tick.stage ≠ .evaluated then s
  else
    let s := { s with tick := { s.tick with stage := .execution } }
    let s := { s with sched := { s.sched with capNow := s.capTotal } }
    let s := s.watermarkRecal
    let s := allDeckles.foldl (fun s d => s.modDeckle d (fun k => { k with capLeft := s.deckCap d })) s
    let open_ := allDeckles.filter (fun d => (s.deckle d).opened)
    let s := open_.foldl (fun s d => s.serveSwaps d) s
    if s.reloading (seqCode .sched) then s
    else
      let s := open_.foldl (fun s d => s.runReady d 200 d) s
      open_.foldl (fun s l => s.offer (fun s e => s.runReady e 200 l) l 200) s

def execAllocationPhase (s : State) : Out := .next s.allocate

end Sys2Proof.Machine
end

