-- ==== Sys2Proof/Machine/Steps.lean ====
section
/-! DEFINITION. Operations on the scoreboard: when one may complete, its completion and failure, the ends of segments and
steps, accepted drafts and emitted tokens, and overruns (R42, R43, R216, R218, R231 to R234, R243, R261, R288, R299,
R307 to R309). -/
namespace Sys2Proof.Machine

/-! ### Hazards (R231, R243) -/

/-- The operation of that deckle and sequence number. -/
def State.opAt (s : State) (d seq : Nat) : Option OpRec := s.sched.ops.find? (fun o => o.deckle == d && o.seq == seq)

/-- Change an operation. -/
def State.modOp (s : State) (d seq : Nat) (f : OpRec → OpRec) : State :=
  { s with sched := { s.sched with ops := s.sched.ops.map (fun o => if o.deckle == d && o.seq == seq then f o else o) } }

/-- KV pages an operation touches: session, first and last page of a layer and head's array. -/
def State.kvTouch (s : State) (o : OpRec) : List (Nat × Nat × Nat) :=
  if o.kvMode = 0 then []
  else match s.stepOf o.deckle o.step with
    | none => []
    | some t => (List.range t.sessions.length).filterMap (fun j =>
        let i := nth t.sessions j
        let per := if (s.session i).int4 then 512 else 256
        let lo := if o.kvMode = 2 then nth t.bases j else 0
        let hi := nth t.bases j + nth t.counts j
        if t.dead.contains i ∨ hi ≤ lo then none else some (i, lo / per, (hi - 1) / per))

/-- Two lists share a number. -/
def meets (a b : List Nat) : Bool := a.any b.contains

/-- Two operations of one deckle conflict (R231). -/
def State.conflict (s : State) (a b : OpRec) : Bool :=
  meets a.accWr (b.accRd ++ b.accWr) || meets b.accWr a.accRd ||
  ((decide (2 ≤ a.kvMode) || decide (2 ≤ b.kvMode)) && a.layer == b.layer &&
    (s.kvTouch a).any (fun x => (s.kvTouch b).any (fun y =>
      x.1 == y.1 && decide (x.2.1 ≤ y.2.2) && decide (y.2.1 ≤ x.2.2))))

/-- The sets that a tile operation of a turnover image works on stand in their groups (R336). -/
def State.setsIn (s : State) (o : OpRec) : Bool :=
  match s.stepOf o.deckle o.step, o.tmpl with
  | some t, some m => !isPass m || !((s.stepImage t).map (fun i => i.turnover)).getD false || s.tilesIn t m
  | _, _ => true

/-- Every conflicting operation with a lower number and every operation it depends on has completed, and no set of its tiles
is still being written. -/
def State.clearToRun (s : State) (o : OpRec) : Bool :=
  s.setsIn o && !s.sched.ops.any (fun x => x.deckle == o.deckle && x.state != .complete && x.seq != o.seq &&
    (o.deps.contains x.seq || (decide (x.seq < o.seq) && s.conflict x o)))

/-- What an exchange leaves by is there: logits leave by the deckle's function, which may issue requests (R301, R408, R410,
entry 129), and a transfer by a port that is not being reloaded (R505). -/
def State.wayOut (s : State) (o : OpRec) : Bool :=
  match s.stepOf o.deckle o.step, o.tmpl with
  | some t, some m => m.typ != .exchange || (match m.exch with
    | .logits => s.mayIssue (s.fnOf o.deckle)
    | .sendTo k _ | .recvFrom k _ => match s.routePort (s.memberNode t k) with
      | some p => !s.reloading (64 + p)
      | none => true
    | _ => true)
  | _, _ => true

/-- The operation may complete at a reference period of this tick. -/
def State.mayEnd (s : State) (o : OpRec) (time : Nat) : Bool :=
  s.tick.stage == .execution && o.state == .waiting && !o.reissue && !o.localDone && !o.peerWaits && decide (o.start ≤ time) &&
  decide (time ≤ o.deadline) && s.clearToRun o && s.wayOut o

/-! ### Emission (R299, R307 to R309) -/

/-- The token sampled at a position. -/
def StepRec.sampleAt (t : StepRec) (i pos : Nat) : Option (Nat × Nat) :=
  (t.samples.find? (fun x => x.1 == i && x.2.1 == pos)).map (fun x => x.2.2)

/-- The token member `i` holds at a position of its own in the step. -/
def StepRec.tokAt (t : StepRec) (i pos : Nat) : Nat :=
  match t.allVecs.find? (fun x => x.sess == i && x.pos == pos) with
  | some x => nth t.toks x.v
  | none => 0

/-- Drafts accepted: from the j-th on, at most `n`. -/
def acceptedFrom (t : StepRec) (i base : Nat) : Nat → Nat → Nat
  | 0, _ => 0
  | n + 1, j =>
    match t.sampleAt i (base + j) with
    | some (tok, _) => if tok = t.tokAt i (base + j) then 1 + acceptedFrom t i base n (j + 1) else 0
    | none => 0

/-- Position of member `i`'s first vector, and the positions it appends. -/
def StepRec.baseOf (t : StepRec) (i : Nat) : Nat := nth t.bases ((t.sessions.idxOf? i).getD 0)
def StepRec.countOf (t : StepRec) (i : Nat) : Nat := nth t.counts ((t.sessions.idxOf? i).getD 0)

/-- Drafts of member `i` that its step accepted. -/
def StepRec.accepted (t : StepRec) (i : Nat) : Nat := acceptedFrom t i (t.baseOf i) (t.countOf i - 1) 1

/-- END of the token emitted as record `k` (counted from 0) at position `pos`; 0 when emission goes on (R309). -/
def endOf (r : Request) (maxLen tok k pos : Nat) : Nat :=
  if (gStops r.cmd.entry).contains tok then 2
  else if k + 1 = gMaxTokens r.cmd.entry then 1
  else if pos = maxLen then 3
  else 0

/-- A token emitted: position, token, log-probability, END. -/
structure Emitted where
  pos  : Nat
  tok  : Nat
  logp : Nat
  end_ : Nat
  deriving DecidableEq, Repr

/-- The tokens a step emits for member `i`, from position `pos` on, at most `n`. -/
def emitFrom (t : StepRec) (i : Nat) (r : Request) (maxLen : Nat) : Nat → Nat → Nat → List Emitted
  | 0, _, _ => []
  | n + 1, pos, k =>
    match t.sampleAt i pos with
    | none => []
    | some (tok, lp) =>
      let e := endOf r maxLen tok k pos
      { pos, tok, logp := lp, end_ := e } :: (if e = 0 then emitFrom t i r maxLen n (pos + 1) (k + 1) else [])

/-- What the step emits for member `i`. -/
def State.emission (s : State) (t : StepRec) (i : Nat) : List Emitted :=
  match (s.session i).active with
  | none => []
  | some r => emitFrom t i r (s.session i).maxLen (t.accepted i + 1) (t.baseOf i + 1) r.emitted

/-- The proposals of heads `h` on for the position the step commits to, at most `n` (R307). -/
def propsFrom (t : StepRec) (i pos : Nat) : Nat → Nat → List Nat
  | 0, _ => []
  | n + 1, h =>
    match t.props.find? (fun x => x.1 == i && x.2.1 == pos && x.2.2.1 == h) with
    | some (_, _, _, some tok) => tok :: propsFrom t i pos n (h + 1)
    | _ => []

/-- FLAGS of a record: DRAFT, LAST, STOP. -/
def tokenFlags (t : StepRec) (i : Nat) (e : Emitted) : Nat :=
  b2n (decide (e.pos ≤ t.baseOf i + t.accepted i)) + 2 * b2n (decide (e.end_ ≠ 0)) + 4 * b2n (decide (e.end_ = 2))

/-- The publication of a step's tokens for member `i`: log, records, producer index (R298, R299). -/
def State.tokenWrites (s : State) (t : StepRec) (i : Nat) (r : Request) (es : List Emitted) : List PubWrite :=
  let x := s.session i
  let ring := gRing r.cmd.entry
  let recs := es.zipIdx.map (fun y =>
    PubWrite.token (ring + 0x40 + 16 * ((r.emitted + y.2) % 2 ^ gRingLog2 r.cmd.entry)) y.1.tok y.1.pos y.1.logp
      (tokenFlags t i y.1) (t.accepted i))
  [.log (x.histAddr + 4 * (t.baseOf i + 1)) (es.map (fun e => e.tok))] ++ recs ++ [.tokenPi ring (r.emitted + es.length)]

/-- Ream digest of generation `g` of session `i`'s model. -/
def State.digestOf (s : State) (i g : Nat) : Bytes := ((s.imageGen (s.session i).model g).map (fun m => m.digest)).getD []

/-- A decode step ends for member `i`: its tokens are emitted and the request goes on or ends DONE (R309). -/
def State.endMember (s : State) (t : StepRec) (i time : Nat) : State :=
  match (s.session i).active with
  | none => s
  | some r =>
    let es := s.emission t i
    let n := es.length
    if n = 0 then s
    else
      let last := es.getD (n - 1) { pos := 0, tok := 0, logp := 0, end_ := 0 }
      let s := s.publish t.deckle i r.cmd.id time (gIrqTokens r.cmd.entry) (s.tokenWrites t i r es)
      let r' := { r with emitted := r.emitted + n, remain := r.remain - n, credit := r.credit - n
                         props := propsFrom t i (t.baseOf i + t.accepted i) (gDrafts r.cmd.entry) 1 }
      let s := s.modSession i (fun x => { x with
        active := some r', commitDue := x.commitDue + n, pendingTok := last.tok, hasPending := true
        lastStep := s.tick.now, gen := t.gen, genDigest := s.digestOf i t.gen })
      if last.end_ = 0 then s
      else (s.endActive i 1 0 last.end_ (s.session i).stopping time).startWaiting i time

/-! ### Ends of steps (R216, R218, R288) -/

/-- A step has ended: it leaves the deckle's steps and its tiles are free; its entries stay until publication (R233). -/
def State.endStep (s : State) (t : StepRec) : State :=
  releaseTiles t.bind (s.modDeckle t.deckle (fun k => { k with steps := k.steps.filter (fun u => u.id != t.id) }))

/-- A prefill chunk ends: its positions commit in phase 5, its tokens are logged, and the request ends with its last
chunk (R288, R299). -/
def State.endChunk (s : State) (t : StepRec) (time : Nat) : State :=
  let s := s.endStep t
  let i := t.sessions.headD 0
  match (s.session i).active with
  | none => s
  | some r =>
    let x := s.session i
    let n := t.countOf i
    let c := t.baseOf i + n
    let rest := r.tokens.drop n
    let log := r.tokens.drop (r.logged - t.baseOf i)
    let log := log.take (c + 1 - r.logged)
    let s := s.publish t.deckle i r.cmd.id time false [.log (x.histAddr + 4 * r.logged) log]
    let s := s.modSession i (fun x => { x with
      active := some { r with tokens := rest, remain := rest.length - 1, logged := c + 1 }
      commitDue := x.commitDue + n, pendingTok := nth rest 0, hasPending := true, lastStep := s.tick.now,
      gen := t.gen, genDigest := s.digestOf i t.gen })
    if 1 < rest.length then s
    else (s.endActive i 1 0 0 (s.session i).stopping time).startWaiting i time

/-- A member continues in its batch after a step at generation `g` (R218). A waiting CHECKPOINT is served first. -/
def State.continues (s : State) (i g : Nat) : Bool :=
  let x := s.session i
  (x.active.map (fun r => r.kind == .generate)).getD false && x.state == .decode && !x.cancelPending && !x.stopping &&
  s.nextGen i == some g && x.isTail && decide (x.len < x.maxLen) &&
  !x.checkpointDue

/-- A decode step ends: each member's tokens are emitted, and the members whose GENERATE goes on form the next step of
the same batch, admitted in this tick if it fits. -/
def State.endBatch (s : State) (t : StepRec) (time : Nat) : State :=
  let s := t.live.foldl (fun s i => s.endMember t i time) (s.endStep t)
  let l := t.sessions.filter (fun i => !t.dead.contains i && s.continues i t.gen)
  let s := s.dropUnbound t.deckle l
  let l := l.filter (fun i => s.continues i t.gen)
  if l.isEmpty then s
  else
    let n := ((s.stepPlan t).map (fun p => p.batchMax)).getD 1
    let u := s.decodeStep t.deckle t.id t.slot t.gen n l
    (s.putStep u).issueNext u time (s.windowsOf t.deckle)

/-- The part of a ring step that this member ran for the tail ends: its COMMIT_LEN and pending token follow the tail's, from
the tokens that the tail has reported (R267). -/
def State.endServe (s : State) (t : StepRec) : State :=
  let i := t.sessions.headD 0
  let n := t.ringToks.length
  if n = 0 ∨ t.dead.contains i then s.endStep t
  else (s.endStep t).modSession i (fun x => { x with
    commitDue := x.commitDue + n, pendingTok := t.ringToks.getD (n - 1) 0, lastStep := s.tick.now, gen := t.gen,
    genDigest := s.digestOf i t.gen })

/-- Prompt positions that the members of session `i`'s ring other than this one process (R266): those before this module's
chunk, or, past its end, all that are left. -/
def State.skipOf (s : State) (i : Nat) : Nat :=
  let x := s.session i
  match x.active with
  | some r =>
    if x.ring && r.kind == .prefill && s.canStep i && !x.inChunk then
      min (r.tokens.length - 1) (if x.len < x.firstPos then x.firstPos - x.len else r.tokens.length - 1)
    else 0
  | none => 0

/-- Those positions count as written by the ring (R266). DESIGN CHOICE: at once, since a member is told nothing of them
(entry 96). -/
def State.ringSkip (s : State) (i : Nat) : State :=
  let n := s.skipOf i
  if n = 0 then s
  else s.endChunk { id := (s.deckle (s.deckOf i)).stepNext, deckle := s.deckOf i, prefill := true, sessions := [i]
                    bases := [(s.session i).len], counts := [n]
                    gen := (s.nextGen i).getD (s.session i).gen } s.tail

/-- Every operation of a step's segment is complete: the next segment is admitted if it fits, or the step ends; then an
unsealed deckle's window is open to borrowing (R216, R237, R243). -/
def State.endSegment (s : State) (d id time lender : Nat) : State :=
  match s.stepOf d id with
  | none => s
  | some t =>
    let t := { t with seg := t.seg + 1, restoring := false }
    let s := s.putStep t
    let n := ((s.stepPlan t).map (fun p => (stepSegs p t).length)).getD 0
    let s := if t.seg < n then s.issueNext t time (s.windowsOf d)
      else if t.prefill then s.endChunk t time
      else if t.serve then s.endServe t
      else s.endBatch t time
    s.offer (fun s e => s.runBegun e time lender) lender time

/-- An operation completes: its entry is COMPLETE until publication, the names it releases are free, and the last of a
segment ends the segment (R230, R233). -/
def State.endOp (s : State) (o : OpRec) (time : Nat) : State :=
  let s := s.modOp o.deckle o.seq (fun x => { x with state := .complete, retry := 0 })
  match s.stepOf o.deckle o.step with
  | none => s
  | some t =>
    let gone := ((o.tmpl.map (fun m => m.release)).getD [])
    let s := releaseTiles (t.bind.filter (fun b => gone.contains b.1)) s
    let t := { t with bind := t.bind.filter (fun b => !gone.contains b.1), open_ops := t.open_ops - 1 }
    let s := s.putStep t
    if t.open_ops = 0 then s.endSegment o.deckle o.step time o.lender else s

/-! ### Failures (R234) -/

/-- What had arrived for an exchange is discarded with its attempt (R42, R49). -/
def State.dropStaged (s : State) (o : OpRec) : State :=
  match o.takes with
  | none => s
  | some e => { s with sched := { s.sched with staged := s.sched.staged.filter (fun x => !(x.deckle == o.deckle && x.exch == e)) } }

/-- An operation is abandoned (R42). -/
def State.abandon (s : State) (o : OpRec) (retry : Nat) : State :=
  (s.modOp o.deckle o.seq (fun x => { x.again s.tick.now with retry })).dropStaged o

/-- An operation fails CONTAINED: its entry is free at once, the requests of the vectors it names end with ERROR, and it is
re-issued for the others (R233, R234). -/
def State.failOp (s : State) (o : OpRec) (r : Report) (named : List Nat) (time : Nat) : State :=
  let s := (s.modOp o.deckle o.seq (fun x => { x.again s.tick.now with failed := true })).dropStaged o
  s.report { r with deckle := some o.deckle, seq := o.seq, unit := o.unit, named, order := time }

/-- The session of a vector of a step. -/
def StepRec.sessOf (t : StepRec) (v : Nat) : List Nat := ((t.vecs.find? (fun x => x.v == v)).map (fun x => x.sess)).toList

/-- A report against the vat of an operation's unit. -/
def vatReport (e : Err) (v : Nat) : Report :=
  { err := e, inst := v, vat := if v < 64 then some v else none }

/-- The pages of the stacks record an uncorrectable word; the page leaves allocation with its next release (R499). -/
def State.badPage (s : State) (k : Nat) : State :=
  let s := s.memCount (k / stackPages) 1 1
  if s.isOut k then s else { s with pageOut := put 0 s.pageOut k 2 }

/-- What a fault of the hardware makes of an operation: none when it goes on. -/
def State.opFault (s : State) (o : OpRec) (f : OpFault) (time : Nat) : Option State :=
  let all := s.opSessions o
  let fail := fun (s : State) (r : Report) (l : List Nat) => some (s.failOp o r l time)
  match f with
  | .none => none
  | .scrCorrected _ => none
  | .scrUncorr w v =>
    let l := match s.stepOf o.deckle o.step with
      | some t => t.live.filter (fun i => t.vecs.any (fun x => x.sess == i && x.v / 8 == v / 8))
      | none => []
    fail (s.modVat w.val (fun x => { x with eccUncorr := satAdd 32 x.eccUncorr 1 })) (vatReport .scrEccUncorr w.val) l
  | .corrStore => if o.unit < 64 then fail s (vatReport .corrStore o.unit) all else none
  | .quireRead => if o.unit < 64 then fail s (vatReport .quireRead o.unit) all else none
  | .kvEcc i page => fail (s.badPage page) { err := .kvEcc, addr := page * 65536 } (all.filter (· == i))
  | .memCorr _ => none
  | .memUncorr page => fail (s.badPage page) { err := .memEccUncorr, inst := page / stackPages, addr := page * 65536 } all
  | .sbDup => fail s { err := .sbDup } all
  | .webForeign a tag => fail s { err := .webForeign, addr := a, detail := tag } all
  | .tagParity a tag => fail s { err := .tagParity, addr := a, detail := tag } all
  | .unmapped a => fail s { err := .addrUnmapped, addr := a } all
  | .stuck _ => none

/-- The corrected errors an operation goes on after (R209, R595). -/
def State.softFault (s : State) (f : OpFault) : State :=
  match f with
  | .scrCorrected v =>
    (s.modVat v.val (fun x => { x with eccCorr := satAdd 32 x.eccCorr 1 })).report { vatReport .scrEccCorr v.val with vat := none }
  | .memCorr st => (s.memCount st.val 0 1).report { err := .memEccCorr, inst := st.val }
  | _ => s

/-- A tile an operation names lies outside its deckle's allotment; a KV page outside its quota (R232). -/
def State.foreignTile (s : State) (o : OpRec) : Bool :=
  (o.accRd ++ o.accWr).any (fun k =>
    let al := s.allot o.deckle (k / 8192)
    !(decide (al.1 ≤ k % 8192) && decide (k % 8192 < al.1 + al.2)))

/-- The KV pages that an operation reads of a region other than its sessions' own: a chunk received from a ring member
(R266). -/
def State.chunkPages (s : State) (o : OpRec) : List Nat :=
  match o.tmpl with
  | some m => if m.typ = .attnBlock ∧ m.dev ≠ 0 then
      (List.range (max 1 (s.readNum (m.dev + 0x1C) 4))).map (fun i => m.dev / 65536 + i) else []
  | none => []

def State.foreignKv (s : State) (o : OpRec) : Bool :=
  o.kvMode != 0 && ((s.opSessions o).any (fun i => s.owner (s.session i).regPages != ownDeckle o.deckle) ||
    (s.chunkPages o).any (fun k => !backed (k * 65536) || s.owner k != ownDeckle o.deckle))

/-- The web checks of an operation's accesses: address, length, write; the failure of the first that is refused. -/
def State.webAll (s : State) (d : Nat) : List (Nat × Nat × Bool) → Option (Report)
  | [] => none
  | (a, n, w) :: r => match s.webCheck d a n w with
    | .ok => s.webAll d r
    | .unmapped => some { err := .addrUnmapped, addr := a }
    | .foreign => some { err := .webForeign, addr := a }

/-- An operation of a type ends at its reference period: the checks common to every type, then the work `f`, which
answers the state with the results, or the failure that keeps them back; then `fin`, its completion. -/
def State.runWith (s : State) (r : OpRef) (typ : OpType)
    (f : State → OpRec → StepRec → Template → Except (Report × List Nat) State) (fin : State → OpRec → Nat → State) : State :=
  match s.opAt r.deckle.val r.seq with
  | none => s
  | some o => match s.stepOf o.deckle o.step, o.tmpl with
    | some t, some m =>
      if o.typ ≠ typ ∨ !s.mayEnd o r.time then s
      else if s.foreignTile o then s.failOp o { err := .tileForeign } (s.opSessions o) r.time
      else if s.foreignKv o then s.failOp o { err := .kvForeign } (s.opSessions o) r.time
      else match s.webAll o.deckle (s.accesses t m) with
        | some rep => s.failOp o rep (s.opSessions o) r.time
        | none => match s.opFault o r.fault r.time with
          | some s => s
          | none =>
            let s := s.softFault r.fault
            match f s o t m with
            | .ok s => fin s o r.time
            | .error (rep, named) => s.failOp o rep named r.time
    | _, _ => s

/-- An operation that completes with its work. -/
def State.runOp (s : State) (r : OpRef) (typ : OpType) (f : State → OpRec → StepRec → Template → Except (Report × List Nat) State) :
    State := s.runWith r typ f State.endOp

/-! ### Overruns (R42, R43, R460) -/

/-- Why an exchange with member `k` cannot run: no route, or the deckle's windows at the two ends overlap too little (R239,
R364). `peer` is the other end's window; without one the two layouts are taken as the same. -/
def State.crossBar (s : State) (o : OpRec) (t : StepRec) (k : Nat) (peer : Option (Nat × Nat)) : Option Report :=
  let mine := (s.winStart o.lender, s.winEnd o.lender)
  let other := peer.getD mine
  if s.cutOff (s.memberNode t k) then some { err := .unreachable }
  else if min mine.2 other.2 < max mine.1 other.1 + ceilDiv o.budget 40 + 100 then some { err := .xwindow }
  else none

/-- The same for an operation on the scoreboard. -/
def State.opBar (s : State) (o : OpRec) (peer : Option (Nat × Nat)) : Option Report :=
  match s.stepOf o.deckle o.step, o.tmpl with
  | some t, some m => (match m.exch with
    | .sendTo k _ | .recvFrom k _ => if o.cross then s.crossBar o t k peer else none
    | _ => none)
  | _, _ => none

/-- OVERRUN: an operation has not completed at its deadline. Its staging is gone and it is re-issued in the next tick; at
the limit it fails. One that gives way because its peer waits for the conversion cap is withdrawn without counting, and one
that cannot run across modules fails for that. -/
def State.overrun (s : State) (d seq : Nat) : State :=
  match s.opAt d seq with
  | none => s
  | some o =>
    if o.state ≠ .waiting ∨ o.reissue ∨ s.tick.stage ≠ .execution then s
    else if o.peerWaits then s.abandon o o.retry
    else match s.opBar o none with
    | some r => s.failOp o r (s.opSessions o) o.deadline
    | none =>
      let n := o.retry + 1
      let s := s.abandon o n
      let s := if o.unit < 64 then
          let s := s.modVat o.unit (fun x => { x with overruns := satAdd 32 x.overruns 1 })
          { s with tick := { s.tick with overruns := satAdd 32 s.tick.overruns 1 } }
        else s
      let s := s.modDeckle d (fun k => { k with overruns := satAdd 32 k.overruns 1 })
      if n < (if o.cross then 8 else 4) then s
      else s.failOp o { err := .overrunLimit } (s.opSessions o) o.deadline

def execOverrun (d : Fin 16) (seq : Nat) (s : State) : Out := .next (s.overrun d.val seq)

end Sys2Proof.Machine
end

