-- ==== Sys2Proof/Machine/ArrayOps.lean ====
section
/-! DEFINITION. TILE_MVM and RESIDUAL: the passes of a vat's tiles, their repairs and samples, and the sums into the
accumulator tiles (R69, R72, R101 to R109, R130, R183, R190, R194, R195, R198, R199). -/
namespace Sys2Proof.Machine

/-! ### Elements in the scratchpad (R192, R207) -/

/-- The pair at a device address. -/
def State.pairAt (s : State) (a : Nat) : AccPair := (BitVec.ofNat 32 (s.readNum a 4), BitVec.ofNat 32 (s.readNum (a + 4) 4))

/-- Bytes of some pairs. -/
def pairBytes (l : List AccPair) : Bytes := l.foldr (fun p a => leBytes 4 p.1.toNat ++ leBytes 4 p.2.toNat ++ a) []

/-- Address of the 64 pairs of vector `v` in a tile. -/
def State.pairsAddr (s : State) (t : StepRec) (name v : Nat) : Option Nat :=
  (t.tileOf name).map (fun x => s.accAddr x.1 x.2 + 512 * (v % 8))

/-- The 64 pairs of a vector: those stored, when the operation reads the name, else new ones. -/
def State.startPairs (s : State) (t : StepRec) (m : Template) (name v : Nat) : List AccPair :=
  match s.pairsAddr t name v with
  | some a => if m.accRd.contains name then (List.range 64).map (fun n => s.pairAt (a + 8 * n))
              else List.replicate 64 pairZero
  | none => List.replicate 64 pairZero

/-- Store the 64 pairs of a vector. -/
def State.storePairs (s : State) (t : StepRec) (name v : Nat) (l : List AccPair) : State :=
  match s.pairsAddr t name v with
  | some a => s.writeMem a (pairBytes l)
  | none => s

/-! ### One pass with its checks (R101 to R103, R183, R199) -/

/-- The result of a pass: D after every integer term, repaired check groups, overflow columns, and whether a sample was
taken and differed. -/
structure PassRes where
  p      : Pass
  d      : List Int
  fixed  : List Nat
  tooHigh   : List Nat
  sampled : Bool
  differs : Bool
  deriving DecidableEq, Repr

/-- The corrections that apply to a column now: its own trim, and the offset and gain of the converter that serves it
(R121, R122, R128). -/
def State.corrNow (s : State) (v p : Nat) : Corr := fun col => (s.group v p).corrOf col (s.serverNow v p col)

/-- Evaluate a pass. -/
def State.evalPass (s : State) (t : StepRec) (fs : List CodeFault) (sampled : Bool) (p : Pass) : PassRes :=
  let codes := bCodes p.burst
  let gold := goldenOf ((s.stepImage t).bind (fun m => s.tileRecord m p.tile.index)) p.tile
  let fs := fs.filter (fun f => f.tile == p.ti && f.vec == p.v)
  let o := if bZero p.burst then { d := List.replicate 64 0, fixed := [], tooHigh := [] : PassOut }
    else assemble (splitPlan (s.group p.vat p.group).plan) (s.corrNow p.vat p.group) p.tile codes fs gold.1
  let d := (List.range 64).map (fun n => o.d.getD n 0 + sparseTerm codes p.tile.outliers n)
  let refs := (List.range 64).map (refD codes gold)
  let differs := sampled && (List.range p.tile.validNeurons).any (fun n => d.getD n 0 != refs.getD n 0)
  let d := if differs then (List.range 64).map (fun n => if n < p.tile.validNeurons then refs.getD n 0 else d.getD n 0) else d
  let q := quireSparse ((t.sessOf p.v).head?.bind (fun i => s.stepQuire t i)) p.tile.index
  { p, d := (List.range 64).map (fun n => d.getD n 0 + sparseTerm codes q n), fixed := o.fixed, tooHigh := o.tooHigh, sampled
    differs }

/-! ### The watermark sampler's counting (R198) -/

/-- Count one pass of deckle `d` on vat `v`: whether it is the one chosen in its run. The choice is the sampler's, given
in the event; a run in which none was chosen yet takes its last pass. -/
def State.countPass (s : State) (d v : Nat) (want : Bool) : Bool × State :=
  let k := s.deckle d
  let n := 2 ^ s.reg .wmRate d
  let c := get 0 k.wmCount v + 1
  let taken := get 0 k.wmTaken v == 1
  let pick := !taken && (want || decide (n ≤ c))
  let s := s.modDeckle d (fun k => if n ≤ c then
      { k with wmCount := put 0 k.wmCount v 0, wmTaken := put 0 k.wmTaken v 0 }
    else { k with wmCount := put 0 k.wmCount v c, wmTaken := put 0 k.wmTaken v (b2n (taken || pick)) })
  (pick, s)

/-- Evaluate every pass in order, counting each for the sampler. -/
def evalPasses (t : StepRec) (fs : List CodeFault) (sampled : List (Nat × Nat)) : List Pass → State → List PassRes × State
  | [], s => ([], s)
  | p :: r, s =>
    let (pick, s') := s.countPass t.deckle p.vat (sampled.contains (p.ti, p.v))
    let x := s.evalPass t fs pick p
    let (l, s'') := evalPasses t fs sampled r s'
    (x :: l, s'')

/-! ### What a pass records (R102, R108, R130, R199, R203) -/

/-- A repaired check group: MISCOUNT. -/
def State.noteMiscount (s : State) (v p : Nat) : State :=
  let s := s.modVat v (fun x => { x with miscounts := satAdd 64 x.miscounts 1, repairs := satAdd 64 x.repairs 1 })
  let s := s.modGroup v p (fun g => { g with
    miscount := satAdd 16 g.miscount 1
    missAt := (g.missAt ++ [s.tick.now]).filter (fun t => decide (s.tick.now < t + 2 ^ 24)) })
  s.report { err := .miscount, inst := v, unit := v, group := p }

/-- An overflow code on a column: COUNT_OVERFLOW, with the group, the converter that serves the column and the column.
DESIGN CHOICE: DETAIL holds the converter above bit 16 and the column below (entry 72). -/
def State.noteOverflow (s : State) (v p col : Nat) : State :=
  ((s.modVat v (fun x => { x with ovf := satAdd 64 x.ovf 1 })).modGroup v p (fun g => { g with
      checkCols := if g.checkCols.contains col then g.checkCols else g.checkCols ++ [col] })).report
    { err := .countOverflow, inst := v, unit := v, group := p, detail := 65536 * s.serverNow v p col + col }

/-- A sampled pass differed: WATERMARK_MISMATCH; the group is due for fall-back calibration, and a second mismatch before
it starts puts it in RECAL from the next allocation phase. -/
def State.noteMismatch (s : State) (v p : Nat) : State :=
  let s := s.modVat v (fun x => { x with wmMismatch := satAdd 64 x.wmMismatch 1 })
  let s := s.report { err := .watermarkMismatch, inst := v, unit := v, group := p }
  let again := (s.group v p).wmMiss
  let s := s.modGroup v p (fun g => { g with wmMiss := true, recalNext := g.recalNext || (again && g.state == .inService) })
  s.makeDue v p

/-- Side-path products of a pass (SIDE_MACS). -/
def PassRes.products (x : PassRes) (quire : Nat) : Nat :=
  64 * bOutCnt x.p.burst + x.p.tile.outliers.length + x.p.tile.stuck.length + quire + 2048 * x.fixed.length +
  (if x.sampled then 16384 else 0)

/-- Skipped planes of a pass. -/
def skippedPlanes (b : Bytes) : Nat := ((passPlanes b).filter (· == 0)).length

/-- The counters and records of a pass. -/
def State.notePass (s : State) (t : StepRec) (x : PassRes) : State :=
  let v := x.p.vat
  let q := (quireSparse ((t.sessOf x.p.v).head?.bind (fun i => s.stepQuire t i)) x.p.tile.index).length
  let s := s.modVat v (fun y => { y with
    zplane := satAdd 64 y.zplane (skippedPlanes x.p.burst), sideMacs := satAdd 64 y.sideMacs (x.products q)
    wmSamples := satAdd 64 y.wmSamples (b2n x.sampled) })
  let s := x.fixed.foldl (fun s _ => s.noteMiscount v x.p.group) s
  let s := x.tooHigh.foldl (fun s c => s.noteOverflow v x.p.group c) s
  if x.differs then s.noteMismatch v x.p.group else s

/-- Slots longer than 34 clocks of the grid that an operation shares, counted once, by the last of its operations to
complete (R96, R109). -/
def State.longSlots (s : State) (o : OpRec) (ps : List Pass) : Nat :=
  let mates := (s.gridMates o.unit o.start).filter (fun x => !(x.deckle == o.deckle && x.seq == o.seq))
  if mates.any (fun x => x.state == .waiting) then 0
  else ((s.gridOf o.unit (mates.foldr (fun x a => x.loads ++ a) (s.opLoads ps))).filter (fun n => decide (34 < n))).length

/-- Records of a whole operation: its passes, lengthened slots, and repairs beyond the reserve. -/
def State.noteOp (s : State) (t : StepRec) (o : OpRec) (ps : List Pass) (l : List PassRes) : State :=
  let long := s.longSlots o ps
  let fixed := l.foldl (fun a x => a + x.fixed.length) 0
  let tooHigh := decide (s.reg .repairRes o.unit < fixed)
  let s := l.foldl (fun s x => s.notePass t x) s
  s.modVat o.unit (fun y => { y with surge := satAdd 64 y.surge long, overRes := satAdd 32 y.overRes (b2n tooHigh) })

/-! ### Sums (R72, R105, R194, R195) -/

/-- Outputs of some tiles: matrix, head and N-block, ascending. -/
def outKey (t : Tile) : Nat := (t.matrix * 256 + t.head) * 65536 + t.nBlock
def outputsOf (l : List PassRes) : List Nat :=
  sortBy (fun a b => decide (a ≤ b)) (l.foldl (fun a x => if a.contains (outKey x.p.tile) then a else a ++ [outKey x.p.tile]) [])

/-- Key of the first-pass result of a precise layer: deckle and step, model slot, tile and vector, so that neither another
step nor a takeover of the group touches it (R105). -/
def heldKey (t : StepRec) (p : Pass) : Nat :=
  (((t.deckle + 16 * t.id) * 16 + p.tile.slot) * 2 ^ 32 + p.tile.index) * 2 ^ 20 + p.v

/-- D, scale and outlier entries of a pass, ready to scale: D = 16 · D1 + D2 in a precise layer, with the first burst's
outliers. -/
def State.readyD (s : State) (t : StepRec) (m : Template) (x : PassRes) : List Int × BF16 × List (Nat × BF16) :=
  if m.typ = .residual then
    let d1 := get [] (s.vat m.unit).held (heldKey t x.p)
    let first := s.burstOf { m with typ := .tileMvm } x.p.v x.p.tile.kBlock
    ((List.range 64).map (fun n => 16 * d1.getD n 0 + x.d.getD n 0), bScale x.p.burst, bOutliers first)
  else (x.d, bScale x.p.burst, bOutliers x.p.burst)

/-- Add the K-blocks of one output and vector, in ascending order, into its 64 pairs. -/
def State.chain (s : State) (t : StepRec) (m : Template) (xs : List PassRes) (start : List AccPair) : List AccPair :=
  let xs := sortBy (fun a b => decide (a.p.tile.kBlock ≤ b.p.tile.kBlock)) xs
  xs.foldl (fun ps x =>
    let r := s.readyD t m x
    let q := quireSparse ((t.sessOf x.p.v).head?.bind (fun i => s.stepQuire t i)) x.p.tile.index
    (List.range 64).map (fun n => addBlock x.p.tile q r.2.2 r.2.1 n (r.1.getD n 0) (ps.getD n pairZero))) start

/-- Store the sums of every output and vector. -/
def State.storeSums (s : State) (t : StepRec) (m : Template) (l : List PassRes) : State :=
  let g := t.vecGroups
  (outputsOf l).zipIdx.foldl (fun s' k =>
    (tmplVecs t m).foldl (fun s' x =>
      let name := m.accWr.getD (k.2 * g + x.v / 8) 0xFFFF
      let xs := l.filter (fun y => outKey y.p.tile == k.1 && y.p.v == x.v)
      s'.storePairs t name x.v (s.chain t m xs (s.startPairs t m name x.v))) s') s

/-- Hold the first-pass results of a precise layer; release them after its residual pass. -/
def State.holdD (s : State) (t : StepRec) (m : Template) (l : List PassRes) : State :=
  s.modVat m.unit (fun v => { v with held := l.foldl (fun h x => put [] h (heldKey t x.p) x.d) v.held })
def State.dropHeld (s : State) (t : StepRec) (m : Template) (l : List PassRes) : State :=
  s.modVat m.unit (fun v => { v with held := l.foldl (fun h x => put [] h (heldKey t x.p) []) v.held })

/-- The web check of the golden records that repaired and sampled passes read in the stacks (R102, R182, R199). -/
def State.goldenBar (s : State) (o : OpRec) (t : StepRec) (l : List PassRes) : Option Report :=
  s.webAll o.deckle (l.foldr (fun x a => if x.fixed.isEmpty && !x.sampled then a
    else match (s.stepImage t).bind (fun m => m.recordPage x.p.tile.index) with
      | some k => (k * 65536, 1, false) :: a
      | none => a) [])

/-- The work of a tile operation. -/
def passWork (fs : List CodeFault) (sampled : List (Nat × Nat)) (s : State) (o : OpRec) (t : StepRec) (m : Template) :
    Except (Report × List Nat) State :=
  let ps := s.passesOf t m
  match ps.find? (fun p => burstBad p.burst) with
  | some p => .error (vatReport .burstFormat o.unit, t.sessOf p.v)
  | none =>
    let (l, s) := evalPasses t fs sampled ps s
    match s.goldenBar o t l with
    | some r => .error (r, s.opSessions o)
    | none =>
      let s := if m.typ = .residual then (s.storeSums t m l).dropHeld t m l
        else if m.precise then s.holdD t m l
        else s.storeSums t m l
      .ok (s.noteOp t o ps l)

/-- TILE_MVM: `faults` are the codes that are not the exact counts, `sampled` the passes the sampler chose. -/
def execTileMvm (op : OpRef) (faults : List CodeFault) (sampled : List (Nat × Nat)) (s : State) : Out :=
  .next (s.runOp op .tileMvm (passWork faults sampled))

/-- RESIDUAL: the same of the residual passes, which the sampler counts and chooses among as well (R198). -/
def execResidual (op : OpRef) (found : PassIn) (s : State) : Out :=
  .next (s.runOp op .residual (passWork found.faults found.sampled))

end Sys2Proof.Machine
end

