-- ==== Sys2Proof/Machine/Couch.lean ====
section
/-! DEFINITION. Loading an image from its source and couching it on: the stream that a LOAD or a COUCH_RECV takes and forwards
(R327, R329 to R333, R367). -/
namespace Sys2Proof.Machine

/-! ### The stream to the next module (R331, R332, R367) -/

/-- The descriptor of a couching transfer of `n` bytes for slot `k` (R367). DESIGN CHOICE: slot and generation share 8 bytes
as the generation with the slot in its 4 highest bits, which R367 does not lay out (entry 126). -/
def couchDesc (k gen n : Nat) : Bytes :=
  leBytes 4 2 ++ leBytes 4 n ++ leBytes 8 (gen % 2 ^ 60 + k * 2 ^ 60) ++ leBytes 8 0 ++ leBytes 8 0

/-- What opens the stream to a node: the expected digest and the chain left for that node (entry 126). -/
def couchHead (expect : Bytes) (rest : List Nat) : Bytes :=
  slice expect 0 48 ++ leBytes 4 rest.length ++ rest.foldr (fun n a => leBytes 4 n ++ a) []

/-- Send bytes to the next module of the chain of the load on slot `k`, as transfers of the bulk class. -/
def State.couchSend (s : State) (k node : Nat) (units : List Bytes) : State :=
  let gen := ((s.slot k).incoming.map (fun m => m.gen)).getD 0
  units.foldl (fun s u => s.sendTransfer 3 0 node (couchDesc k gen u.length ++ u)) s

/-- The running load of slot `k` opens its stream to the next module. One that no route reaches cannot take it, so the load
ends with COUCH_BREAK (R332). -/
def State.couchOpen (s : State) (k : Nat) : State :=
  match (s.slot k).op with
  | none => s
  | some op => match op.chain with
    | [] => s
    | n :: rest =>
      if s.torus.member ≠ 2 ∨ (s.routePort n).isNone then s.failLoad k .couchBreak
      else s.couchSend k n [couchHead (if op.op = 1 then dExpect op.desc else op.expect) rest]

/-- Forward stream bytes, every whole 4 KiB unit as soon as it has arrived, and what is left at the end of the stream
(R332). -/
def State.couchForward (s : State) (k : Nat) (bs : Bytes) (flush : Bool) : State :=
  match (s.slot k).op with
  | none => s
  | some op => match op.chain with
    | [] => s
    | n :: _ =>
      if s.torus.member ≠ 2 ∨ (s.routePort n).isNone then s.failLoad k .couchBreak
      else
        let all := op.unsent ++ bs
        let cut := if flush then all.length else all.length / 4096 * 4096
        (s.modSlot k (fun x => { x with op := some { op with unsent := all.drop cut } })).couchSend k n
          (pieces 4096 (ceilDiv cut 4096) (all.take cut))

/-- The image bytes of a part, in the order of the image. -/
def partBytes : ImagePart → Bytes
  | .manifest (.data b) | .chunk _ (.data b) | .tile (.data b) _ | .plan _ (.data b) | .place _ (.data b) => b
  | _ => []

/-! ### LOAD and COUCH_RECV (R316, R327 to R332) -/

/-- LOAD: a descriptor has been read, and the chain list it names (R329, R331). -/
def execLoad (desc chain : HostRead) (s : State) : Out :=
  .next (s.withDesc desc 1 (fun b =>
    match s.loadBar b with
    | some e => s.reamRefused b 0 e
    | none =>
      let list := if dChainAddr b = 0 then .data [] else chain
      match list with
      | .late => s
      | .fail => s.reamRefused b 0 .hubHostRead
      | .data l =>
        if 1 < dSource b ∨ (dSource b = 1 ∧ (s.slot (dSlot b)).current.isNone) ∨ 32767 < dChainLen b then
          s.reamRefused b 0 .reamFormat
        else if !s.spaceFor (dLen b) then s.reamRefused b 0 .noSpace
        else (s.startLoad b ((List.range (dChainLen b)).map (fun j => field l (4 * j) 4 % 32768))).couchOpen (dSlot b)))

/-- COUCH_RECV: the slot is armed for a stream from a felt port (R332). -/
def execCouchRecv (desc : HostRead) (s : State) : Out :=
  .next (s.withDesc desc 6 (fun b =>
    match s.loadBar b with
    | some e => s.reamRefused b 0 e
    | none => if 5 < dInPort b then s.reamRefused b 0 .reamFormat else s.startLoad b []))

/-- A couching stream reaches slot `k` by a felt port: a COUCH_RECV armed for that port and generation takes it and opens
its own to the next module; any other stream is refused (R327, R331, R332). -/
def State.streamHead (s : State) (k port gen : Nat) (expect : Bytes) (chain : List Nat) : State :=
  match (s.slot k).op with
  | some op =>
    if op.op ≠ 6 ∨ op.begun ∨ dInPort op.desc ≠ port ∨ dGen op.desc ≠ gen then s
    else (s.modSlot k (fun x => { x with op := some { op with begun := true, expect, chain }
                                         lastGen := gen + 1 })).couchOpen k
  | none => s

/-! ### Image bytes (R327, R329) -/

/-- Bytes from the stacks in place of a host read of as many; nothing of them fails. -/
def fromStacks (bs : Nat → Bytes) : HostRead → HostRead
  | .data b => .data (bs b.length)
  | _ => .late

/-- A part of a LOAD from the slot's CURRENT image: its bytes as the stacks hold them. DESIGN CHOICE: parts that this member
did not keep (records and outlier entries of other members, R332) have no bytes in the stacks and stay as they are given;
their checks hold them to the manifest (entry 127). -/
def State.stackPart (s : State) (m load : Image) (pos : Nat) (part : ImagePart) : ImagePart :=
  let sec := fun t at_ => fromStacks (fun n => s.readPaged (get [] m.secPages t) at_ n)
  match part with
  | .manifest r => .manifest (sec 0 0 r)
  | .chunk t r => if t = 3 then .chunk t r else .chunk t (sec t pos r)
  | .plan p r => .plan (m.plan.getD p) (sec 1 0 r)
  | .place _ r => .place m.place (sec 6 0 r)
  | .tile r o => match s.tileRecord m load.tilesIn with
    | some (b, outs) => .tile (fromStacks (fun _ => b) r) (.data outs)
    | none => .tile r o
  | x => x

/-- A part of the image that a load of slot `k` takes: it is forwarded first, and then taken and checked (R332). -/
def State.imagePart (s : State) (k : Nat) (part : ImagePart) : State :=
  match (s.slot k).op, (s.slot k).current, (s.slot k).incoming with
  | some op, cur, some load =>
    if !(op.op = 1 ∨ op.op = 6) ∨ !op.begun then s
    else
      let part := match cur with
        | some m => if op.op = 1 ∧ dSource op.desc = 1 then s.stackPart m load op.secPos part else part
        | none => part
      let s := s.couchForward k (partBytes part) (part == .done)
      if (s.slot k).op.isNone then s else s.takePart k part
  | _, _, _ => s

/-- REAM_IMAGE_DATA: a part of the image that a LOAD, COUCH_RECV or QLOAD of the slot takes, or the head of a couching
stream. -/
def execReamImageData (slot : Fin 16) (part : ImagePart) (s : State) : Out :=
  .next (if s.reloading (seqCode .ream) then s
  else match part with
    | .quire d r =>
      let op := get {} (s.deckle d.val).qops slot.val
      if op.op ≠ 0x11 ∨ op.held_ ≠ [] then s
      else match r with
        | .late => s
        | .fail => s.quireEnd d.val slot.val (some .deckHostRead)
        | .data b => s.quireArrives d.val slot.val b
    | .stream port gen expect chain => s.streamHead slot.val port gen expect chain
    | part => s.imagePart slot.val part)

end Sys2Proof.Machine
end

