-- ==== Sys2Proof/Machine/SideOps.lean ====
section
/-! DEFINITION. SIZING and VECTOR: merges of range pairs, low-rank quire terms, the resolve, and the work of the vector
unit with its quantiser (R62 to R71, R187 to R195, R220, R248). -/
namespace Sys2Proof.Machine

/-! ### Words of the STAGE region -/

/-- `n` fp32 values from device address `a` on. -/
def State.floatsAt (s : State) (a n : Nat) : List F32 :=
  (List.range n).map (fun i => BitVec.ofNat 32 (s.readNum (a + 4 * i) 4))

/-- Bytes of some fp32 values. -/
def floatBytes (l : List F32) : Bytes := l.foldr (fun x a => leBytes 4 x.toNat ++ a) []

/-- Places of vector `v` in the STAGE region of a template's vat: first operand, second operand, result. -/
def State.srcAt (s : State) (m : Template) (v : Nat) : Nat := s.stageAddr m.unit (m.src + v * m.srcStride)
def State.src2At (s : State) (m : Template) (v : Nat) : Nat := s.stageAddr m.unit (m.src2 + v * m.srcStride)
def State.dstAt (s : State) (m : Template) (v : Nat) : Nat := s.stageAddr m.unit (m.dst + v * m.dstStride)

/-- Do the work of every vector in order; the first failure keeps every result back. -/
def eachVec (f : State → VecAt → Except (Report × List Nat) State) : List VecAt → State → Except (Report × List Nat) State
  | [], s => .ok s
  | x :: r, s => match f s x with
    | .ok s => eachVec f r s
    | .error e => .error e

/-- The failure of a non-finite value, naming its vector (R58). -/
def nonfinite (o : OpRec) (x : VecAt) : Report × List Nat := (vatReport .nonfinite o.unit, [x.sess])

/-! ### Low-rank terms (R191, R325) -/

/-- Element of an int8 array; 0 past its end. -/
def i8At (b : Bytes) (i : Nat) : Int := (b.getD i 0#8).toInt

/-- xq of channel `r` of a block: the code less 8, or 16 · q1 + q2 with a residual burst. -/
def lowRankX (first : Bytes) (rest : Option Bytes) (r : Nat) : Int :=
  let q := fun b : Bytes => ((bCode b r : Nat) : Int) - 8
  match rest with
  | none => q first
  | some b => 16 * q first + q b

/-- The pair of rank column `j` after every block and the outlier channels. -/
def lowRankSum (p : Pair) (bs : List (Bytes × Option Bytes)) (j : Nat) : AccPair :=
  let u := fun c => i8At p.u (c * p.rank + j)
  let rows := fun b => List.range (min 256 (p.k - 256 * b))
  let acc := bs.zipIdx.foldl (fun a x =>
    let sum := (rows x.2).foldl (fun t r => t + lowRankX x.1.1 x.1.2 r * u (256 * x.2 + r)) 0
    let scale := bScale (x.1.2.getD x.1.1)
    pairAdd a (f32Mul (f32OfInt sum) (ofBf16 scale))) pairZero
  let terms := bs.zipIdx.foldr (fun x a =>
    (bOutliers x.1.1).map (fun o => ((bfSplit o.2).1, (bfSplit o.2).2, u (256 * x.2 + o.1))) ++ a) []
  bandSum acc terms f32One

/-- t[j] of every rank column. -/
def lowRankT (p : Pair) (bs : List (Bytes × Option Bytes)) : List BF16 :=
  (List.range p.rank).map (fun j => toBf16 (f32Mul (pairResolve (lowRankSum p bs j)) (ofBf16 (p.su.getD j 0#16))))

/-- Add the low-rank terms of output neuron `n` into an element. -/
def lowRankAdd (p : Pair) (t : List BF16) (n : Nat) (a : AccPair) : AccPair :=
  let terms := t.zipIdx.map (fun x => ((bfSplit x.1).1, (bfSplit x.1).2, i8At p.v (x.2 * p.n + n)))
  bandSum a terms (ofBf16 (p.sv.getD n 0#16))

/-- The bursts of a vector for the low-rank terms, block by block, each with its residual burst in a precise layer. -/
def State.rankBursts (s : State) (m : Template) (v : Nat) : List (Bytes × Option Bytes) :=
  (List.range (widthBursts m.count)).map (fun b =>
    (s.burstOf m v b, if m.precise then some (s.burstOf { m with typ := .residual } v b) else none))

/-! ### SIZING (R195) -/

/-- Output `j`'s 64 pairs for a vector: the ranges' pairs folded in ascending range order. -/
def State.mergedPairs (s : State) (t : StepRec) (m : Template) (j v : Nat) : List AccPair :=
  let n := m.accWr.length
  let k := j * t.vecGroups + v / 8
  let read := fun name => match s.pairsAddr t name v with
    | some a => (List.range 64).map (fun e => s.pairAt (a + 8 * e))
    | none => List.replicate 64 pairZero
  let more := (List.range (m.accRd.length / max 1 n)).map (fun r => read (m.accRd.getD (r * n + k) 0xFFFF))
  more.foldl (fun a b => (a.zip b).map (fun x => pairMerge x.1 x.2)) (read (m.accWr.getD k 0xFFFF))

/-- The sizing work of one vector: merges; then, in the last SIZING of its elements, low-rank terms and the resolve into
the STAGE region. -/
def State.sizeVec (o : OpRec) (t : StepRec) (m : Template) (s : State) (x : VecAt) : Except (Report × List Nat) State :=
  let pair := if m.last then s.pairFor t m.layer m.matrix x.sess else none
  let bs := if pair.isSome then s.rankBursts m x.v else []
  let bad := bs.any (fun b => burstBad b.1 || (b.2.map burstBad).getD false)
  let ts := (pair.map (fun p => lowRankT p bs)).getD []
  if bad then .error (vatReport .burstFormat o.unit, [x.sess])
  else if !ts.all bf16Finite then .error (nonfinite o x)
  else
    let outs := m.nBlocks.length
    let low := fun j n a => match pair with
      | some p => lowRankAdd p ts (64 * nth m.nBlocks j + n) a
      | none => a
    let s := (List.range outs).foldl (fun s j =>
      let ps := (s.mergedPairs t m j x.v).zipIdx.map (fun y => low j y.2 y.1)
      let s := s.storePairs t (m.accWr.getD (j * t.vecGroups + x.v / 8) 0xFFFF) x.v ps
      if m.last then s.writeMem (s.dstAt m x.v + 256 * j) (floatBytes (ps.map pairResolve)) else s) s
    let macs := match pair with
      | some p => p.rank * (p.k + (bs.foldl (fun a b => a + bOutCnt b.1) 0) + 64 * outs)
      | none => 0
    .ok (s.modVat o.unit (fun y => { y with sideMacs := satAdd 64 y.sideMacs macs }))

/-- SIZING: merges and resolves of range pairs, low-rank quire terms. -/
def execSizing (op : OpRef) (s : State) : Out :=
  .next (s.runOp op .sizing (fun s o t m => eachVec (State.sizeVec o t m) (tmplVecs t m) s))

/-! ### VECTOR (R62 to R71, R220) -/

/-- Quantise the blocks of a width: the bursts, those of a precise layer followed by the residual bursts. None for a
non-finite value. -/
def quantWidth (xs : List F32) (k : Nat) (precise : Bool) : Option Bytes :=
  let qs := (List.range (widthBursts xs.length)).map (fun b => quantBlock ((xs.drop (256 * b)).take 256) k)
  if qs.all Option.isSome then
    let qs := qs.filterMap id
    let first := qs.foldr (fun q a => q.burst ++ a) []
    some (if precise then first ++ qs.foldr (fun q a => q.residual ++ a) [] else first)
  else none

/-- The embedding row of a token: WIDTH bf16 values of section EMBED (R320). -/
def State.embedRow (s : State) (m : Image) (tok : Nat) : List F32 :=
  let b := s.readPaged (get [] m.secPages 4) (tok * m.width * 2) (2 * m.width)
  (List.range m.width).map (fun i => ofBf16 (BitVec.ofNat 16 (field b (2 * i) 2)))

/-- fp32 parameters of a vector function from section VPARAM (R320). -/
def State.vparams (s : State) (m : Image) (first n : Nat) : List F32 :=
  let b := s.readPaged (get [] m.secPages 5) (4 * first) (4 * n)
  (List.range n).map (fun i => BitVec.ofNat 32 (field b (4 * i) 4))

/-- The bytes a VECTOR template computes for a vector; none for a non-finite value at the quantiser. A function whose
arithmetic the spec does not give is a free function of its operands, its parameters and the position; subnormal operands
enter it as zeros of their sign and subnormal results leave it so (R55). -/
def State.vectorBytes (s : State) (t : StepRec) (m : Template) (x : VecAt) : Option Bytes :=
  let a := s.floatsAt (s.srcAt m x.v) m.count
  match m.vec with
  | .quantise k precise => quantWidth a k precise
  | .add => some (floatBytes ((a.zip (s.floatsAt (s.src2At m x.v) m.count)).map (fun y => f32Add y.1 y.2)))
  | .embed => some (floatBytes (((s.stepImage t).map (fun i => s.embedRow i (nth t.toks x.v))).getD []))
  | .func n outs =>
    let ps := ((s.stepImage t).map (fun i => s.vparams i m.dev m.params)).getD []
    let ins := (a ++ s.floatsAt (s.src2At m x.v) m.count ++ ps).map f32Flush ++ [BitVec.ofNat 32 x.pos]
    some (floatBytes ((List.range outs).map (fun j => f32Flush (Config.vectorFn n ins j))))

/-- The vats a VECTOR result goes to. -/
def targets (m : Template) : List Nat := m.unit :: m.bcast

/-- The vector work of one vector: its bytes, in the template's vat and in those it is broadcast to. -/
def State.vectorVec (o : OpRec) (t : StepRec) (m : Template) (s : State) (x : VecAt) : Except (Report × List Nat) State :=
  match s.vectorBytes t m x with
  | none => .error (nonfinite o x)
  | some b => .ok ((targets m).foldl (fun s v => s.writeMem (s.stageAddr v (m.dst + x.v * m.dstStride)) b) s)

/-- VECTOR. -/
def execVector (op : OpRef) (s : State) : Out :=
  .next (s.runOp op .vector (fun s o t m => eachVec (State.vectorVec o t m) (tmplVecs t m) s))

end Sys2Proof.Machine
end

