-- ==== Sys2Proof/Machine/KvOps.lean ====
section
/-! DEFINITION. KV_APPEND, ATTN_BLOCK and SAMPLE: KV scales and codes, block partials and their fixed tree, and the
sampler (R82 to R86, R247 to R253, R260, R264, R303 to R307). -/
namespace Sys2Proof.Machine

/-! ### KV_APPEND (R82 to R86, R260, R261) -/

/-- The KV constants of a layer (R84, R247, R250). -/
def State.kvPlan (s : State) (t : StepRec) (layer : Nat) : KvPlan :=
  ((s.stepPlan t).map (fun p => p.kv.getD layer {})).getD {}

/-- L of R84. -/
def kvLimit (int4 : Bool) : Int := if int4 then 7 else 127

/-- The scale of a block from the vector at its position 0. -/
def kvScale (x : List F32) (headroom floor_ : BF16) (int4 : Bool) : BF16 :=
  let m := x.foldl (fun a v => if f32Key a < f32Key (f32Abs v) then f32Abs v else a) f32Zero
  let s := bf16Up (f32Div (f32Mul m (ofBf16 headroom)) (f32OfInt (kvLimit int4)))
  if f32Key (ofBf16 s) < f32Key (ofBf16 floor_) then floor_ else s

/-- The code of an element, and whether it saturated. -/
def kvCode (x : F32) (scale : BF16) (int4 : Bool) : Int × Bool :=
  let l := kvLimit int4
  let q := f32Div x (ofBf16 scale)
  if !f32Finite q then (if bit q.toNat 31 then -l else l, true)
  else (clampInt (-l) l (f32Rint q), decide (l < (f32Rint q).natAbs))

/-- Bytes of 128 codes (R53, R82). -/
def codeBytes (cs : List Int) (int4 : Bool) : Bytes :=
  let c := fun i => cs.getD i 0
  if int4 then (List.range 64).map (fun j => BitVec.ofNat 8 ((c (2 * j) % 16).toNat + 16 * (c (2 * j + 1) % 16).toNat))
  else (List.range 128).map (fun i => BitVec.ofInt 8 (c i))

/-- Offset of the codes of block position `p`: keys, and values in the block's second half. -/
def codeOff (int4 value : Bool) (p : Nat) : Nat :=
  (if int4 then 64 * p else 128 * p) + (if value then blockBytes int4 / 2 else 0)

/-- Local block index of a position of a region (R255, R265). -/
def Region.blockOf (g : Region) (pos : Nat) : Nat := (pos - g.firstPos) / 64

/-- Append one vector of keys or values of a head at a position: scale at block position 0, codes, saturations. -/
def State.appendOne (s : State) (g : Region) (kp : KvPlan) (l h pos : Nat) (value : Bool) (x : List F32) : State :=
  let b := g.blockOf pos
  let a := g.scale l h b + (if value then 2 else 0)
  let s := if pos % 64 = 0 then
      s.writeNum a 2 (if value then kvScale x kp.headroomV kp.minV g.int4 else kvScale x kp.headroomK kp.minK g.int4).toNat
    else s
  let cs := x.map (fun v => kvCode v (BitVec.ofNat 16 (s.readNum a 2)) g.int4)
  let s := s.writeMem (g.block l h b + codeOff g.int4 value (pos % 64)) (codeBytes (cs.map (fun c => c.1)) g.int4)
  { s with kvSat := satAdd 64 s.kvSat (cs.filter (fun c => c.2)).length }

/-- Bytes an append writes for one head: codes, and the scale entry at block position 0. -/
def appendBytes (int4 : Bool) (pos : Nat) : Nat := (if int4 then 128 else 256) + (if pos % 64 = 0 then 4 else 0)

/-- The append of one vector: keys and values of every head of the template. A ring member appends only the positions of its
own chunk (R265, R266). -/
def State.appendVec (o : OpRec) (t : StepRec) (m : Template) (s : State) (x : VecAt) : Except (Report × List Nat) State :=
  let g := s.region x.sess
  let kp := s.kvPlan t m.layer
  let ks := (List.range m.heads.length).map (fun j => (nth m.heads j, s.floatsAt (s.srcAt m x.v + 512 * j) 128,
    s.floatsAt (s.src2At m x.v + 512 * j) 128))
  if ks.any (fun k => !k.2.1.all f32Finite || !k.2.2.all f32Finite) then .error (nonfinite o x)
  else if (s.session x.sess).ring ∧ (x.pos < (s.session x.sess).firstPos ∨ (s.session x.sess).chunkEnd ≤ x.pos) then .ok s
  else
    let s := ks.foldl (fun s k => (s.appendOne g kp m.layer k.1 x.pos false k.2.1).appendOne g kp m.layer k.1 x.pos true k.2.2) s
    let s := s.memCount (s.session x.sess).regStack 3 (ks.length * appendBytes g.int4 x.pos)
    .ok (s.raiseWritten x.sess (x.pos + 1))

/-- KV_APPEND. -/
def execKvAppend (op : OpRef) (s : State) : Out :=
  .next (s.runOp op .kvAppend (fun s o t m => eachVec (State.appendVec o t m) (tmplVecs t m) s))

/-! ### Block partials (R249, R250) -/

/-- Sums of neighbouring pairs; an odd last element passes up unchanged. -/
def pairUp : List F32 → List F32
  | a :: b :: r => f32Add a b :: pairUp r
  | l => l

/-- Sum in the fixed binary tree: at most `n` levels. -/
def treeSum : Nat → List F32 → F32
  | 0, l => l.headD f32Zero
  | n + 1, l => treeSum n (pairUp l)

/-- Sum from the first element on, in order. -/
def seqSum : List F32 → F32
  | [] => f32Zero
  | a :: r => r.foldl f32Add a

/-- The signed codes of block position `p` (R82). -/
def State.codesAt (s : State) (int4 : Bool) (a : Nat) : List Int :=
  if int4 then
    let b := s.readMem a 64
    (List.range 128).map (fun d => (BitVec.ofNat 4 (field b (d / 2) 1 / 16 ^ (d % 2))).toInt)
  else (s.readMem a 128).map (fun b => b.toInt)

/-- The scores of a block's visible positions and the value codes, for a query. -/
def State.blockScores (s : State) (g : Region) (l h b n : Nat) (q : List F32) (mul : F32) : List F32 :=
  let ks := f32Mul (ofBf16 (BitVec.ofNat 16 (s.readNum (g.scale l h b) 2))) mul
  (List.range n).map (fun j =>
    let kc := s.codesAt g.int4 (g.block l h b + codeOff g.int4 false j)
    f32Mul (treeSum 7 ((q.zip kc).map (fun x => f32Mul x.1 (f32OfInt x.2)))) ks)

/-- The maximum of a list in the sense of R250. -/
def maxOf : List F32 → F32
  | [] => f32Zero
  | a :: r => r.foldl f32Max a

/-- The partial (m, l, o) of a block over its first `n` positions. -/
def State.blockPartial (s : State) (g : Region) (l h b n : Nat) (q : List F32) (mul : F32) : List F32 :=
  let sc := s.blockScores g l h b n q mul
  let m := maxOf sc
  let p := sc.map (fun x => exp2u (f32Sub x m))
  let sv := ofBf16 (BitVec.ofNat 16 (s.readNum (g.scale l h b + 2) 2))
  let vs := (List.range n).map (fun j => s.codesAt g.int4 (g.block l h b + codeOff g.int4 true j))
  let o := (List.range 128).map (fun d =>
    f32Mul sv (seqSum ((p.zip vs).map (fun x => f32Mul x.1 (f32OfInt (x.2.getD d 0))))))
  m :: seqSum p :: o

/-! ### The tree of partials (R252, R253) -/

/-- amerge of two partials. -/
def amerge (a b : List F32) : List F32 :=
  let m := f32Max (a.getD 0 f32Zero) (b.getD 0 f32Zero)
  let fa := exp2u (f32Sub (a.getD 0 f32Zero) m)
  let fb := exp2u (f32Sub (b.getD 0 f32Zero) m)
  m :: ((a.drop 1).zip (b.drop 1)).map (fun x => f32Add (f32Mul x.1 fa) (f32Mul x.2 fb))

/-- Node (k, i) of the tree over `B` blocks; `leaf j` is node (low, j) and `k` counts levels above it. -/
def treeNode (leaf : Nat → List F32) (blocks low : Nat) : Nat → Nat → List F32
  | 0, i => leaf i
  | k + 1, i =>
    if (2 * i + 1) * 2 ^ (k + low) < blocks then
      amerge (treeNode leaf blocks low k (2 * i)) (treeNode leaf blocks low k (2 * i + 1))
    else treeNode leaf blocks low k (2 * i)

/-- Blocks of a query at position `p`. -/
def blocksOf (p : Nat) : Nat := p / 64 + 1

/-- Key of node (k, i). -/
def nodeKey (k i : Nat) : Nat := k * 2 ^ 32 + i

/-! ### ATTN_BLOCK (R247, R253, R264, R265) -/

/-- The attention set of a session among the deckle's vats in RUN when the operation was admitted (R264). -/
def State.attnSetOf (s : State) (all : List Nat) (i : Nat) : List Nat :=
  let near := all.filter (fun v => dieOf v == dieOfStack (s.session i).regStack)
  if near.isEmpty then all else near

/-- The region an ATTN_BLOCK reads: the session's own, or a chunk received from a ring member at `dev` (R266). -/
def State.attnRegion (s : State) (m : Template) (i : Nat) : Region :=
  if m.dev = 0 then s.region i else s.regionAt m.dev

/-- First block of a region and the end of its blocks, in blocks of the session. -/
def Region.span (g : Region) : Nat × Nat := (g.firstPos / 64, g.firstPos / 64 + ceilDiv g.maxLen 64)

/-- The nodes of the template's level that fall to its vat for a query at `pos`. -/
def State.myNodes (s : State) (o : OpRec) (m : Template) (x : VecAt) (g : Region) : List Nat :=
  let set := s.attnSetOf o.attn x.sess
  let stop := min g.span.2 (blocksOf x.pos)
  match set.idxOf? m.unit with
  | none => []
  | some r => (List.range (ceilDiv stop (2 ^ m.level))).filter (fun i =>
      decide (g.span.1 < (i + 1) * 2 ^ m.level) && i % set.length == r)

/-- Visible positions of block `b` of the session for a query at `pos`. -/
def visibleIn (pos b : Nat) : Nat := min 64 (pos + 1 - 64 * b)

/-- The attention work of one vector: the nodes of every query head. -/
def State.attnVec (s : State) (o : OpRec) (t : StepRec) (m : Template) (x : VecAt) : List (Nat × Nat × Nat × List F32) :=
  let g := s.attnRegion m x.sess
  let kp := s.kvPlan t m.layer
  let is := s.myNodes o m x g
  m.heads.zipIdx.foldr (fun h a =>
    let raw := s.floatsAt (s.srcAt m x.v + 512 * h.2) 128
    let q := raw.map (fun y => if kp.fp8 then ofFp8 (toFp8 y) else ofBf16 (toBf16 y))
    let leaf := fun b => s.blockPartial g m.layer h.1 (b - g.span.1) (visibleIn x.pos b) q kp.scaleMul
    is.map (fun i => (x.v, h.2, nodeKey m.level i, treeNode leaf (blocksOf x.pos) 0 m.level i)) ++ a) []

/-- Blocks of a node over `n` blocks. -/
def nodeBlocks (level n i : Nat) : Nat := min ((i + 1) * 2 ^ level) n - i * 2 ^ level

/-- Blocks, merges and KV bytes of one vector's work: query heads that share a KV head read its blocks once. -/
def State.attnCounts (s : State) (o : OpRec) (m : Template) (x : VecAt) : Nat × Nat × Nat :=
  let g := s.attnRegion m x.sess
  let is := s.myNodes o m x g
  let n := blocksOf x.pos
  let blocks := is.foldl (fun a i => a + nodeBlocks m.level n i) 0
  let seen := is.foldl (fun a i => a + (min (64 * ((i + 1) * 2 ^ m.level)) (x.pos + 1) - 64 * (i * 2 ^ m.level))) 0
  let kv := (m.heads.foldl (fun a h => if a.contains h then a else a ++ [h]) []).length
  (blocks * m.heads.length, (blocks - is.length) * m.heads.length,
    kv * (seen * (if g.int4 then 128 else 256) + 4 * blocks))

/-- The counters of one vector's attention work. -/
def State.noteAttn (s : State) (o : OpRec) (m : Template) (x : VecAt) : State :=
  let c := s.attnCounts o m x
  let s := s.modVat o.unit (fun v => { v with blocks := satAdd 64 v.blocks c.1, merges := satAdd 64 v.merges c.2.1
                                              kvBytes := satAdd 64 v.kvBytes c.2.2 })
  s.memCount ((s.attnRegion m x.sess).addr / 2 ^ 36) 2 c.2.2

/-- The attention work of an operation. -/
def attnWork (s : State) (o : OpRec) (t : StepRec) (m : Template) : Except (Report × List Nat) State :=
  let vs := tmplVecs t m
  let ns := vs.foldr (fun x a => s.attnVec o t m x ++ a) []
  let s := s.modStep o.deckle o.step (fun t => { t with nodes := t.nodes ++ ns })
  .ok (vs.foldl (fun s x => s.noteAttn o m x) s)

/-- ATTN_BLOCK. -/
def execAttnBlock (op : OpRef) (s : State) : Out := .next (s.runOp op .attnBlock attnWork)

/-! ### SAMPLE (R303 to R307) -/

/-- The uniform number of a position (R303). -/
def uniformAt (seed pos : Nat) : F32 :=
  let h := sha384 (leBytes 8 seed ++ leBytes 4 pos ++ leBytes 4 0)
  f32Scale (f32OfInt ((field h 0 4 / 256 : Nat) : Int)) (-24)

/-- The largest of some finite logits. -/
def topLogit (z : List F32) : F32 :=
  z.foldl (fun a x => if f32Key a < f32Key x then x else a) (z.headD f32Zero)

/-- t[v]: two fp32 operations. -/
def scaledLogits (z : List F32) (invT : F32) : List F32 :=
  z.map (fun x => f32Mul (f32Sub x (topLogit z)) invT)

/-- Running fp32 sums. -/
def runSums (acc : F32) : List F32 → List F32
  | [] => []
  | a :: r => f32Add acc a :: runSums (f32Add acc a) r

/-- The chosen token when SAMPLE is set. -/
def chooseToken (ts : List F32) (topK : Nat) (topP u : F32) : Nat :=
  let n := ts.length
  let le := fun a b : Nat => decide (f32Key (fAt ts b) < f32Key (fAt ts a)) ||
    (f32Key (fAt ts a) == f32Key (fAt ts b) && decide (a ≤ b))
  let order := (sortBy le (List.range n)).take (if topK = 0 then n else min topK n)
  let cum := runSums f32Zero (order.map (fun v => exp2u (fAt ts v)))
  let lim := f32Mul topP (fAt cum (cum.length - 1))
  let j := ((cum.findIdx? (fun c => decide (f32Key lim ≤ f32Key c))).getD (cum.length - 1)) + 1
  let target := f32Mul u (fAt cum (j - 1))
  nth order (((cum.take j).findIdx? (fun c => decide (f32Key target < f32Key c))).getD (j - 1))

/-- The greedy token: the lowest id among the largest logits. -/
def greedyToken (z : List F32) : Nat := (z.findIdx? (fun x => f32Key x == f32Key (topLogit z))).getD 0

/-- ln 2 in fp32. -/
def f32Ln2 : F32 := 0x3F317218#32

/-- The log-probability of a token (R305). -/
def logProb (ts : List F32) (tok : Nat) : Nat :=
  let sum := treeSum (bitLen ts.length) (ts.map exp2u)
  (toF16 (f32Mul (f32Sub (fAt ts tok) (log2u sum)) f32Ln2)).toNat

/-- A proposal of an extra output head: the lowest id among the largest logits that are not NaN (R307). -/
def proposal (z : List F32) : Option Nat :=
  (z.zipIdx.foldl (fun (a : Option (F32 × Nat)) x =>
    if f32IsNan x.1 then a
    else match a with
      | none => some x
      | some b => if f32Key b.1 < f32Key x.1 then some x else a) none).map (fun x => x.2)

/-- The token sampled and its log-probability for a request (R304, R305). -/
def sampleOf (e : Bytes) (seed pos : Nat) (z : List F32) : Nat × Nat :=
  let ts := scaledLogits z (gInvT e)
  let tok := if gSample e then chooseToken ts (gTopK e) (gTopP e) (uniformAt seed pos) else greedyToken z
  (tok, logProb ts tok)

/-- The sampling of one vector. -/
def State.sampleVec (o : OpRec) (m : Template) (vocab : Nat) (s : State) (x : VecAt) : Except (Report × List Nat) State :=
  let z := s.floatsAt (s.srcAt m x.v) vocab
  match (s.session x.sess).active with
  | none => .ok s
  | some r =>
    if m.head ≠ 0 then
      .ok (s.modStep o.deckle o.step (fun t => { t with props := t.props ++ [(x.sess, x.pos, m.head, proposal z)] }))
    else if !z.all f32Finite then .error (nonfinite o x)
    else
      let c := sampleOf r.cmd.entry (s.session x.sess).seed (x.pos + 1) z
      .ok (s.modStep o.deckle o.step (fun t => { t with samples := t.samples ++ [(x.sess, x.pos + 1, c.1, c.2)] }))

/-- SAMPLE. -/
def execSample (op : OpRef) (s : State) : Out :=
  .next (s.runOp op .sample (fun s o t m =>
    eachVec (State.sampleVec o m (((s.stepImage t).map (fun i => i.vocab)).getD 0)) (tmplVecs t m) s))

end Sys2Proof.Machine
end

