-- ==== Sys2Proof/Machine/ExchOps.lean ====
section
/-! DEFINITION. EXCHANGE: copies, chain hand-over, the hub's merges of attention partials, logits to host memory,
transfers to and from other modules, and turnover set writes (R49, R195, R239, R264 to R267, R301, R336, R364, R367,
R386). -/
namespace Sys2Proof.Machine

/-! ### Inside the module -/

/-- A copy: `count` bytes of every vector. -/
def copyWork (s : State) (t : StepRec) (m : Template) : State :=
  (tmplVecs t m).foldl (fun s x => s.writeMem (m.dst + x.v * m.dstStride) (s.readMem (m.src + x.v * m.srcStride) m.count)) s

/-- Chain hand-over: the pairs of tile i of `accRd` go to tile i of `accWr` (R195). -/
def handOverWork (s : State) (t : StepRec) (m : Template) : State :=
  (m.accRd.zip m.accWr).foldl (fun s x =>
    match t.tileOf x.1, t.tileOf x.2 with
    | some a, some b => s.writeMem (s.accAddr b.1 b.2) (s.readMem (s.accAddr a.1 a.2) 4096)
    | _, _ => s) s

/-! ### Merging attention partials (R253, R264, R267) -/

/-- Bytes of a partial. -/
def partialBytes : Nat := 520

/-- Level at which a session's partials of other members stand: log2 CHUNK of a ring, else the template's level. -/
def State.ringLevel (s : State) (m : Template) (i : Nat) : Nat :=
  let x := s.session i
  if x.ring then max m.level x.chunkLog2 else m.level

/-- A node at the ring level: built from the nodes this module computed, else the partial that member `i` returned. -/
def State.ringNode (s : State) (t : StepRec) (m : Template) (x : VecAt) (q i : Nat) : List F32 :=
  let c := s.ringLevel m x.sess
  let own := t.nodes.filter (fun n => n.1 == x.v && n.2.1 == q)
  let inside := own.any (fun n => n.2.2.1 / 2 ^ 32 == m.level && n.2.2.1 % 2 ^ 32 / 2 ^ (c - m.level) == i)
  if inside then
    let leaf := fun j => ((own.find? (fun n => n.2.2.1 == nodeKey m.level j)).map (fun n => n.2.2.2)).getD []
    treeNode leaf (blocksOf x.pos) m.level (c - m.level) i
  else s.floatsAt (m.dev + partialBytes * ((i * t.allVecs.length + x.v) * m.heads.length + q)) 130

/-- The root for a query head of a vector, and its output o[d] / l. -/
def State.attnRoot (s : State) (t : StepRec) (m : Template) (x : VecAt) (q : Nat) : List F32 :=
  let c := s.ringLevel m x.sess
  let n := blocksOf x.pos
  let root := treeNode (s.ringNode t m x q) n c (bitLen (n - 1) - c) 0
  (root.drop 2).map (fun o => f32Div o (root.getD 1 f32Zero))

/-- Partials of other members that a vector's merge takes (R267). -/
def State.ringTaken (s : State) (m : Template) (x : VecAt) : Nat :=
  if (s.session x.sess).ring && decide (m.dev ≠ 0) then (s.session x.sess).member * m.heads.length else 0

/-- What a merge leaves for a query head of a vector: the output of the whole tree, or, in a step run for a ring's tail, the
root of this member's own chunk, node (log2 CHUNK, MEMBER) (R253, R267). -/
def State.mergeOut (s : State) (t : StepRec) (m : Template) (x : VecAt) (q : Nat) : List F32 :=
  if t.serve then s.ringNode t m x q (s.session x.sess).member else s.attnRoot t m x q

/-- The hub's merge: outputs to the target, the nodes of its vectors used up. -/
def mergeWork (s : State) (o : OpRec) (t : StepRec) (m : Template) : State :=
  let vs := tmplVecs t m
  let n := if t.serve then partialBytes else 512
  let outs := vs.foldr (fun x a =>
    (List.range m.heads.length).map (fun q => (m.dst + x.v * m.dstStride + n * q, floatBytes (s.mergeOut t m x q))) ++ a) []
  let got := if t.serve then 0 else vs.foldl (fun a x => a + s.ringTaken m x) 0
  let s := outs.foldl (fun s w => s.writeMem w.1 w.2) s
  let s := s.modStep o.deckle o.step (fun t => { t with nodes := t.nodes.filter (fun n => !vs.any (fun x => x.v == n.1)) })
  if got = 0 then s
  else s.modVat ((m.dst - scrBase) / 0x2000000) (fun v => { v with ringParts := satAdd 32 v.ringParts got })

/-! ### Logits (R301) -/

/-- The logits of the tokens a step emits go to the requests' LOGIT_ADDR. -/
def logitsWork (s : State) (o : OpRec) (t : StepRec) (m : Template) : State :=
  let vocab := ((s.stepImage t).map (fun i => i.vocab)).getD 0
  t.live.foldl (fun s i => match (s.session i).active with
    | none => s
    | some r =>
      let to_ := gLogits r.cmd.entry
      if to_ = 0 then s
      else
        let first := ((t.allVecs.find? (fun x => x.sess == i)).map (fun x => x.v)).getD 0
        (List.range (s.emission t i).length).foldl (fun s k =>
          s.post (s.fnOf o.deckle) (to_ + 4 * vocab * (r.emitted + k))
            (s.readMem (m.src + (first + k) * m.srcStride) (4 * vocab)) true)
          s) s

/-! ### Other modules (R49, R239, R364, R367, R386, R387) -/

/-- The descriptor of an exchange's transfer (R367). -/
def exchDesc (len target tick exch : Nat) : Bytes :=
  leBytes 1 1 ++ leBytes 3 0 ++ leBytes 4 len ++ leBytes 8 target ++ leBytes 8 tick ++ leBytes 4 exch ++ leBytes 4 0

/-- A transfer to another module: the bytes of each vector leave by the route, for the place the template gives on the other
module (R364 to R367). -/
def sendWork (s : State) (o : OpRec) (t : StepRec) (m : Template) (k exch : Nat) : State :=
  (tmplVecs t m).foldl (fun s x =>
    s.sendTransfer 1 o.deckle (s.memberNode t k) (exchDesc m.count (m.dst + x.v * m.dstStride) s.tick.now exch ++
      s.readMem (m.src + x.v * m.srcStride) m.count)) s

/-- What has arrived for an exchange of deckle `d`. -/
def State.stagedFor (s : State) (d exch : Nat) : List Staged := s.sched.staged.filter (fun x => x.deckle == d && x.exch == exch)

/-- A transfer from another module: what has arrived must lie within the deckle's resources; a completion message goes back
to the source on the same VC class (R367, R385). DESIGN CHOICE: the message is one CONTROL frame without payload (entry
111). -/
def recvWork (s : State) (o : OpRec) (t : StepRec) (k exch : Nat) : Except (Report × List Nat) State :=
  let node := s.memberNode t k
  match s.webAll o.deckle ((s.stagedFor o.deckle exch).map (fun x => (x.addr, x.data.length, true))) with
  | some r => .error ({ r with err := .xferForeign, inst := (s.routePort node).getD 0 }, s.opSessions o)
  | none => .ok (match s.routePort node with
    | none => s
    | some q => s.sendFrame q { kind := 2, vc := s.outVc none 1 q, first := true, last := true, deckle := o.deckle, dest := node
                                src := s.reg .nodeId, seq := 0, payload := [] })

/-- What has arrived for an operation is committed when both ends have completed (R42, R49). -/
def State.commitStaged (s : State) (o : OpRec) : State :=
  match o.takes with
  | none => s
  | some e => ((s.stagedFor o.deckle e).foldl (fun s x => s.writeMem x.addr x.data) s).dropStaged o

/-! ### Turnover sets (R336) -/

/-- Stuck cells that the read-back of a set write found in tile slot `k` of a group (R111, R336). -/
def foundIn (f : OpFault) (v p k : Nat) : List StuckIn :=
  match f with
  | .stuck cells => (cells.filter (fun c => c.1 == groupKey v p && c.2.tile == k)).map (fun c => c.2)
  | _ => []

/-- Write one tile of a turnover set into its group, with what its read-back found (R111, R113, R336). -/
def setTile (f : OpFault) (s : State) (v p k : Nat) (slot : Nat) (t : Tile) : State :=
  let found := foundIn f v p k
  let t := t.withStuck (stuckCells t found)
  let s := s.modGroup v p (fun g => { g with modelSlot := slot, tiles := ins g.tiles k t })
  let s := if found.any (fun c => decide (272 ≤ c.col)) then s.makeDue v p else s
  if t.stuck.length ≤ 64 then s
  else
    let s := s.report { err := .stuckBudget, inst := v, unit := v, group := p }
    s.retireGroup v p 1 s.tail

/-- A turnover set's tiles written into the arrays from the stacks (R336); group states stay. -/
def setWork (f : OpFault) (s : State) (t : StepRec) (tiles : List Nat) : State :=
  match s.stepImage t with
  | none => s
  | some m => tiles.foldl (fun s i =>
      match m.placeOf i, s.tileRecord m i with
      | some q, some (b, outs) => match s.locate q.vat q.logical with
        | some (w, p) => setTile f s w p q.slot t.slot (tileOf b outs t.slot m.gen)
        | none => s
      | _, _ => s) s

/-- The step that writes the sets of a turnover cohort: the first that is begun of those that run its passes together. A set
is written once for the whole cohort (R337). -/
def State.leads (s : State) (t : StepRec) : Bool :=
  let l := allDeckles.foldl (fun a d => a ++ (s.deckle d).steps.filter (fun u =>
    u.slot == t.slot && u.gen == t.gen && u.prefill == t.prefill && u.seg == t.seg)) []
  (l.head?.map (fun u => u.deckle == t.deckle && u.id == t.id)).getD true

/-- The work of an EXCHANGE; `peer` is what the other end of one with another module brings. -/
def exchWork (f : OpFault) (peer : PeerIn) (s : State) (o : OpRec) (t : StepRec) (m : Template) :
    Except (Report × List Nat) State :=
  match s.opBar o peer.window with
  | some r => .error (r, s.opSessions o)
  | none => match m.exch with
    | .copy => .ok (copyWork s t m)
    | .handOver => .ok (handOverWork s t m)
    | .merge => .ok (mergeWork s o t m)
    | .logits => .ok (logitsWork s o t m)
    | .sendTo k e => .ok (sendWork s o t m k e)
    | .recvFrom k e => recvWork s o t k e
    | .setWrite l => .ok (if s.leads t then setWork f s t l else s)

/-- Both ends of an exchange have completed: its bytes are committed, a ring member takes the tokens its tail reported, and
the operation completes. -/
def State.finishExchange (s : State) (toks : List Nat) (o : OpRec) (time : Nat) : State :=
  let s := s.commitStaged o
  let s := if toks.isEmpty then s else s.modStep o.deckle o.step (fun t => if t.serve then { t with ringToks := toks } else t)
  s.endOp o time

/-- The end of this module's part: an exchange with another module waits for the other end. -/
def endExchange (peer : PeerIn) (s : State) (o : OpRec) (time : Nat) : State :=
  if o.cross && !(peer.done || o.peerDone) then s.modOp o.deckle o.seq (fun x => { x with localDone := true })
  else s.finishExchange peer.tokens o time

/-- EXCHANGE: this end completes; `peer` says whether the other end has completed as well. -/
def execExchange (op : OpRef) (peer : PeerIn) (s : State) : Out :=
  .next (s.runWith op .exchange (exchWork op.fault peer) (endExchange peer))

/-- EXCHANGE_COMPLETION: the other end has completed, or has refused the transfer as `foreign` to the deckle's resources,
which fails the exchange at both ends (R367, R385). -/
def State.exchangeDone (s : State) (d seq time : Nat) (foreign : Bool) : State :=
  match s.opAt d seq with
  | none => s
  | some o =>
    if !o.cross ∨ o.state ≠ .waiting ∨ o.reissue ∨ s.tick.stage ≠ .execution ∨ o.deadline < time then s
    else if foreign then s.failOp o { err := .xferForeign } (s.opSessions o) time
    else if o.localDone then s.finishExchange [] o time
    else s.modOp d seq (fun x => { x with peerDone := true })

def execExchangeCompletion (d : Fin 16) (seq : Nat) (message : DoneIn) (s : State) : Out :=
  .next (s.exchangeDone d.val seq message.time message.foreign)

end Sys2Proof.Machine
end

