-- ==== Sys2Proof/Machine/CtxOps.lean ====
section
/-! DEFINITION. CTX_SAVE and CTX_RESTORE: the context record of a pre-empted prefill (R210 to R212, R604). -/
namespace Sys2Proof.Machine

/-! ### The record (R210) -/

/-- Bytes of an entry and offset of entry `j`. -/
def ctxEntry : Nat := 4112
def ctxOff (j : Nat) : Nat := 0x40 + ctxEntry * j

/-- The templates of the segments a step has completed. -/
def State.doneOps (s : State) (t : StepRec) : List Template :=
  match s.stepPlan t with
  | none => []
  | some p => ((stepSegs p t).take t.seg).foldl (fun a g => a ++ g.ops) []

/-- NEXT_KBLOCK of a name: one past the highest K-block a completed pass added to it. -/
def State.nextBlock (s : State) (t : StepRec) (name : Nat) : Nat :=
  let passes := (s.doneOps t).filter (fun m => isPass m && m.accWr.contains name)
  passes.foldl (fun a m => m.tiles.foldl (fun a i =>
    match (s.stepImage t).bind (fun g => s.tileRecord g i) with
    | some (b, _) => max a (tKBlock b + 1)
    | none => a) a) 0

/-- FLAGS of a name: its ranges are folded; its low-rank terms are in. -/
def State.ctxFlags (s : State) (t : StepRec) (name : Nat) : Nat :=
  let l := (s.doneOps t).filter (fun m => m.typ == .sizing && m.accWr.contains name)
  b2n (!l.isEmpty) + 2 * b2n (l.any (fun m => m.last))

/-- ELEM_CNT of a name: 64 elements for each vector of its group of 8. -/
def State.elemCount (s : State) (t : StepRec) (name : Nat) : Nat :=
  let n := t.allVecs.length
  match (s.doneOps t).find? (fun m => m.accWr.contains name) with
  | some m => 64 * min 8 (n - 8 * (((m.accWr.idxOf? name).getD 0) % t.vecGroups))
  | none => 64 * min 8 n

/-- Entry of a saved name: its pairs bit for bit (R211). -/
def State.ctxEntryBytes (s : State) (t : StepRec) (b : Nat × Nat × Nat) : Bytes :=
  let n := s.elemCount t b.1
  leBytes 2 b.1 ++ leBytes 2 (s.nextBlock t b.1) ++ leBytes 2 n ++ leBytes 2 (s.ctxFlags t b.1) ++ leBytes 8 0 ++
    s.readMem (s.accAddr b.2.1 b.2.2) (8 * n) ++ List.replicate (4096 - 8 * n) 0#8

/-- The header for the record as it stands in the context area. -/
def State.ctxHeader (s : State) (t : StepRec) (pages : List Nat) : Bytes :=
  let n := t.savedNames.length
  let body := s.readPaged pages 0x40 (ctxEntry * n)
  let h := leBytes 4 0x41434331 ++ leBytes 2 1 ++ leBytes 2 n ++ leBytes 4 (t.sessions.headD 0) ++ leBytes 1 t.deckle ++
    leBytes 3 0 ++ leBytes 8 t.gen ++ leBytes 8 (s.deckle t.deckle).seqNext ++ leBytes 8 s.tick.now ++
    leBytes 4 (t.bases.headD 0) ++ leBytes 12 0 ++ leBytes 4 (crc32c body)
  h ++ leBytes 4 (crc32c h)

/-! ### Running a context operation (R604) -/

/-- A context operation ends at its reference period: the checks of every operation, then its work and its completion. -/
def State.runCtx (s : State) (r : OpRef) (typ : OpType) (f : State → OpRec → StepRec → Except (Report × List Nat) State)
    (fin : State → OpRec → Nat → State) : State :=
  match s.opAt r.deckle.val r.seq with
  | none => s
  | some o => match s.stepOf o.deckle o.step with
    | none => s
    | some t =>
      if o.typ ≠ typ ∨ !s.mayEnd o r.time then s
      else if s.foreignTile o then s.failOp o { err := .tileForeign } t.live r.time
      else match s.opFault o r.fault r.time with
        | some s => s
        | none =>
          let s := s.softFault r.fault
          match f s o t with
          | .ok s => fin s o r.time
          | .error (rep, named) => s.failOp o rep named r.time

/-- The save of one vat's tiles: their entries, then the header. -/
def saveWork (s : State) (o : OpRec) (t : StepRec) : Except (Report × List Nat) State :=
  let pages := (s.session (t.sessions.headD 0)).ctxPages
  let s := t.savedNames.zipIdx.foldl (fun s b =>
    if b.1.2.1 = o.unit then writePaged pages (ctxOff b.2) (s.ctxEntryBytes t b.1) s else s) s
  .ok (writePaged pages 0 (s.ctxHeader t pages) s)

/-- A save completes: its entry frees in phase 5; the pre-empted prefill waits for its next admission. -/
def endSave (s : State) (o : OpRec) (_ : Nat) : State :=
  (s.modOp o.deckle o.seq (fun x => { x with state := .complete, retry := 0 })).modStep o.deckle o.step
    (fun t => { t with open_ops := t.open_ops - 1 })

/-- CTX_SAVE. -/
def execCtxSave (op : OpRef) (s : State) : Out := .next (s.runCtx op .ctxSave saveWork endSave)

/-- The record's checksums hold. -/
def State.ctxGood (s : State) (pages : List Nat) (n : Nat) : Bool :=
  let h := s.readPaged pages 0 64
  field h 0x3C 4 == crc32c (h.take 0x3C) && field h 0x38 4 == crc32c (s.readPaged pages 0x40 (ctxEntry * n))

/-- The restore of one vat's tiles, into the tiles the names are now bound to. A record of another generation is refused and
discarded, and its request ends REAM_CHANGED (R212). DESIGN CHOICE: the checksums come first, since the generation stands in
the header they cover; the spec orders the two checks nowhere (entry 118). -/
def restoreWork (time : Nat) (s : State) (o : OpRec) (t : StepRec) : Except (Report × List Nat) State :=
  let i := t.sessions.headD 0
  let pages := (s.session i).ctxPages
  if !s.ctxGood pages t.savedNames.length then .error (vatReport .ctxCrc o.unit, t.live)
  else if field (s.readPaged pages 0 64) 0x10 8 ≠ t.gen then .ok ((s.endActive i 4 0 0 false time).startWaiting i time)
  else .ok (t.bind.foldl (fun s b =>
    match t.savedNames.findIdx? (fun x => x.1 == b.1) with
    | some j => if b.2.1 = o.unit then s.writeMem (s.accAddr b.2.1 b.2.2) (s.readPaged pages (ctxOff j + 16) 4096) else s
    | none => s) s)

/-- A restore completes; with the last one of the step the context area is released. -/
def endRestore (s : State) (o : OpRec) (time : Nat) : State :=
  let more := s.sched.ops.any (fun x => x.deckle == o.deckle && x.step == o.step && x.typ == .ctxRestore && x.seq != o.seq &&
    x.state != .complete)
  let i := ((s.stepOf o.deckle o.step).map (fun t => t.sessions.headD 0)).getD 0
  let s := if more ∨ (s.stepOf o.deckle o.step).isNone then s
    else (s.release (s.session i).ctxPages).modSession i (fun x => { x with ctxPages := [] })
  s.endOp o time

/-- CTX_RESTORE. -/
def execCtxRestore (op : OpRef) (s : State) : Out := .next (s.runCtx op .ctxRestore (restoreWork op.time) endRestore)

/-- At a boundary: the context area of a session without a saved or restoring step is released. -/
def State.sweepContexts (s : State) : State :=
  (s.sessions.map (fun x => x.1)).foldl (fun s i =>
    let x := s.session i
    let used := (s.deckle (s.deckOf i)).steps.any (fun t =>
      t.sessions.contains i && !t.dead.contains i && (t.saved || t.restoring))
    if x.ctxPages.isEmpty ∨ used ∨ x.swapping.isSome ∨ !x.resident then s
    else (s.release x.ctxPages).modSession i (fun x => { x with ctxPages := [] })) s

end Sys2Proof.Machine
end

