-- ==== Sys2Proof/Machine/Deckles.lean ====
section
/-! DEFINITION. Opening and closing deckles, function-level resets, and the ring enables (R409, R410, R415, R597). -/
namespace Sys2Proof.Machine

/-! ### Opening and closing (R415, R576, R597) -/

/-- DECK_OPEN: RUN of a DECK page is written; it acts at the next boundary or self-strobe. `entropy` says whether keys
can be drawn by then (R425). -/
def State.writeDeckRun (s : State) (d : Nat) (run entropy : Bool) : State :=
  if run then
    if s.reg .sessCount d = 0 then s else s.modDeckle d (fun k => { k with openReq := some (true, entropy) })
  else if !(s.openSessions d).isEmpty then s.corrected .deckBusy d (some d)
  else s.modDeckle d (fun k => { k with openReq := some (false, entropy) })

def execDeckOpen (d : Fin 16) (run entropy : Bool) (s : State) : Out := .next (s.writeDeckRun d.val run entropy)

/-- Free the snapshot entries of a deckle and their slots (R275, R511). -/
def State.dropSnaps (s : State) (d : Nat) : State :=
  ((s.deckle d).snaps.map (fun x => x.1)).foldl (fun s i => s.dropSnap d i) s

/-- The pending write of RUN of deckle `d` takes effect. -/
def State.openDeckle (s : State) (d : Nat) : State :=
  match (s.deckle d).openReq with
  | none => s
  | some (true, entropy) =>
    let s := s.modDeckle d (fun k => { k with openReq := none })
    if (s.deckle d).opened ∨ s.reg .sessCount d = 0 then s
    else if entropy then
      (s.modDeckle d (fun k => { k with opened := true, seqNext := 0, tokCnt := 0, cqPi := 0, cqCi := 0, deferUnits := 0
                                        deferTicks := 0, pubLast := 0, creditWait := 0 })).newKeys d
    else s.keyGenFailed
  | some (false, _) =>
    let s := s.modDeckle d (fun k => { k with openReq := none })
    if !(s.openSessions d).isEmpty then s
    else
      let s := s.dropSnaps d
      let s := s.modDeckle d (fun k => { k with opened := false, flrOpen := false, units := [], cqHeld := 0, accepted := [] })
      ((s.setReg .sqEn d 0).setReg .cqEn d 0).dropKeys d

/-! ### FLR (R410, R423, R425, R597) -/

/-- The tenant fields of a deckle return to reset, their pending shadows with them. -/
def State.resetTenant (s : State) (d : Nat) : State :=
  let fs := allFlds.filter isTenant
  let s := fs.foldl (fun s f => s.setReg f d (fldInfo f).reset) s
  { s with shadows := s.shadows.filter (fun w => !(w.copy == d && fs.any (fun f => fldCode f == w.fld))) }

/-- A pending FLR of deckle `d` takes effect at a boundary: its sessions become CLOSED without records, its held
publication is discarded, its keys are new. -/
def State.flrEffect (s : State) (d : Nat) : State :=
  match (s.deckle d).flrDue with
  | none => s
  | some entropy =>
    let s := s.dropSteps d
    let s := (s.sessionsOf d).foldl (fun s i => s.closeSession i) s
    let s := s.dropSnaps d
    let s := s.release ((s.deckle d).qops.foldl (fun a x => a ++ x.2.pages) [])
    let s := s.modDeckle d (fun k => { k with
      flrDue := none, units := [], accepted := [], cqHeld := 0, swapUsed := [], qops := [], flrOpen := k.opened })
    let s := s.resetTenant d
    let s := s.dropKeys d
    if !(s.deckle d).opened then s else if entropy then s.newKeys d else s.keyGenFailed

/-! ### Ring enables (R226, R409, R597) -/

/-- Write SQ_EN: refused while the deckle is closed, its ring is not set up, CQ_EN is 0 or the interface level differs.
DESIGN CHOICE: a newly registered ring has no earlier producer index but SQ_CI (R226, entry 112). -/
def State.writeSqEn (s : State) (d : Nat) (on : Bool) : State :=
  if !on then s.setReg .sqEn d 0
  else if !(s.deckle d).opened ∨ s.reg .sqSize d = 0 ∨ s.reg .sqBase d = 0 ∨ s.reg .sqPiAddr d = 0 ∨ s.reg .cqEn d = 0 then
    s.corrected .ringConfig d (some d)
  else if s.reg .deckIfl d ≠ s.activeIfLevel then s.corrected .deckIflMismatch d (some d)
  else (s.setReg .sqEn d 1).modDeckle d (fun k => { k with flrOpen := false, sqFails := 0, sqPi := k.sqCi })

/-- Write CQ_EN. -/
def State.writeCqEn (s : State) (d : Nat) (on : Bool) : State :=
  if !on then s.setReg .cqEn d 0
  else if !(s.deckle d).opened ∨ s.reg .cqSize d = 0 ∨ s.reg .cqBase d = 0 ∨ s.reg .cqPiAddr d = 0 ∨ s.reg .cqCiAddr d = 0 then
    s.corrected .ringConfig d (some d)
  else s.setReg .cqEn d 1

/-- A function may write the deckle's own fields: the PF, or its VF. -/
def tenantFn (d : Nat) (fn : Nat) : Bool := fn == 0 || fn == d + 1

def execSqEn (d : Fin 16) (fn : Fin 17) (value : Bool) (s : State) : Out :=
  .next (if tenantFn d.val fn.val then s.writeSqEn d.val value else s)

def execCqEn (d : Fin 16) (fn : Fin 17) (value : Bool) (s : State) : Out :=
  .next (if tenantFn d.val fn.val then s.writeCqEn d.val value else s)

end Sys2Proof.Machine
end

