-- ==== Sys2Proof/Machine/HostReads.lean ====
section
/-! DEFINITION. A failed read of host memory, by what was read (R411). -/
namespace Sys2Proof.Machine

/-- One more tick in which a deckle's ring reads failed: after 16 in a row SQ_EN clears and the deckle records
HOST_READ. -/
def State.ringFailed (s : State) (d : Nat) : State :=
  let n := (s.deckle d).sqFails + 1
  if n < 16 then s.modDeckle d (fun k => { k with sqFails := n })
  else ((s.modDeckle d (fun k => { k with sqFails := 0 })).setReg .sqEn d 0).report
    { err := .deckHostRead, inst := d, deckle := some d }

/-- A read of the image of slot `k` failed: its load ends with HOST_READ. -/
def State.loadReadFailed (s : State) (k : Nat) : State :=
  match (s.slot k).op with
  | some op => if op.op = 1 then s.failLoad k .hubHostRead else s
  | none => s

/-- HOST_READ_FAIL. -/
def execHostReadFail (what : ReadKind) (s : State) : Out :=
  .next (match what with
    | .ring d => s.ringFailed d.val
    | .prompt d i => s.promptFailed d.val i
    | .swapIn i => if (s.session i).swapping = some .swapIn then s.swapInFailed i .deckHostRead else s
    | .reamImage k => s.loadReadFailed k.val
    | .chainList k => s.loadReadFailed k.val
    | .quireImage d k =>
      if (get {} (s.deckle d.val).qops k.val).op = 0x11 then s.quireEnd d.val k.val (some .deckHostRead) else s
    | .reamDesc => s.corrected .hubHostRead 0 none
    | .quireDesc d => s.report { err := .deckHostRead, inst := d.val, deckle := some d.val }
    | .owner => s.ownerDenied
    | .token => s.corrected .debugDenied 0 none)

end Sys2Proof.Machine
end

