-- ==== Sys2Proof/Machine/Tick.lean ====
section
/-! DEFINITION. The tick: starting and stopping it, its boundary with the ring fetch, evaluation, publication, and the
self-strobe that stands in for the boundary while no tick runs (R31 to R39, R46, R47, R223 to R227, R296, R300, R403 to
R406, R459, R545, R550). -/
namespace Sys2Proof.Machine

/-! ### Starting, stopping, period (R32, R46, R47, R382, R408, R409, R550) -/

/-- TICK_RUN_SET: RUN is written on the TICK page. A module whose tick restarts is no member of its torus (R383); one with
JOIN set waits for an aligned strobe. -/
def State.startTick (s : State) : State :=
  if s.power.phase ≠ .up then s
  else if s.reg .hostIfl 0 ≠ s.activeIfLevel then s.corrected .hubIflMismatch 0 none
  else if s.reg .ideReq 0 = 1 ∧ !s.host.ideLink.2 ∧ !s.host.ideSel.2 then s.corrected .ideFail 0 none
  else if s.tick.running then { s with tick := { s.tick with stopReq := false } }
  else
    let s := { s with upd := { s.upd with recDone := false } }
    let s := { s with torus := { s.torus with member := 0 } }
    if s.reg .join 0 = 1 then { s with torus := { s.torus with waiting := true } }
    else { s with tick := { s.tick with running := true, starting := true, stopReq := false } }

def execTickRunSet (s : State) : Out := .next s.startTick

/-- TICK_RUN_CLEAR: the tick stops after its publication phase; a module that still waits to join waits no longer. -/
def execTickRunClear (s : State) : Out :=
  .next ({ s with torus := { s.torus with waiting := false } }).stopTick

/-- TICK_PERIOD is written: no vat in RUN, 5,000 to 50,000, and no loaded plan with a longer minimum (R32). -/
def State.writePeriod (s : State) (v : Nat) : State :=
  let plans := allSlots.foldl (fun a k => a ++ ((s.slot k).images.filter (fun m => m.state != .loading)).filterMap
    (fun m => m.plan)) []
  if allVats.any (fun w => (s.vat w).state == .run) then s.setWwr (pageIndex 2 0)
  else if v < 5000 ∨ 50000 < v then s.corrected .periodRange 0 none
  else if plans.any (fun p => decide (v < p.minPeriod)) then s.corrected .periodBelowPlan 0 none
  else { s with tick := { s.tick with periodNext := some v } }

def execTickPeriod (value : Nat) (s : State) : Out := .next (s.writePeriod value)

/-! ### Ring fetch (R36, R223 to R227, R296, R300, R411) -/

/-- Command codes of R284. -/
def commandCodes : List Nat := [1, 2, 3, 4, 5, 6, 7, 8, 9]

/-- Completion slots free for deckle `d` (R296). -/
def State.cqFree (s : State) (d : Nat) : Nat :=
  let k := s.deckle d
  2 ^ s.reg .cqSize d - (k.cqPi - k.cqCi) - k.cqHeld

/-- One entry is accepted at the boundary of the tick; one outside the deckle's sessions or with an undefined code is
REJECTED at its tail (R227). -/
def State.acceptEntry (s : State) (d : Nat) (e : Bytes) : State :=
  let c : Cmd := { entry := e, tick := s.tick.now, id := (s.deckle d).sqCi + 1 }
  let s := s.modDeckle d (fun k => { k with sqCi := k.sqCi + 1, cqHeld := k.cqHeld + 1 })
  let i := eSession e
  let base := s.reg .sessBase d
  if i < base ∨ base + s.reg .sessCount d ≤ i ∨ !commandCodes.contains (eCode e) then s.reject d c .badCommand
  else s.modDeckle d (fun k => { k with accepted := k.accepted ++ [c] })

/-- The entries that have arrived, up to the first that has not. -/
def arrived : List HostRead → List Bytes
  | .data b :: r => b :: arrived r
  | _ => []

/-- A read failed. -/
def readBad : HostRead → Bool
  | .fail => true
  | _ => false

/-- Bytes of a read that has arrived. -/
def readBytes : HostRead → Option Bytes
  | .data b => some b
  | _ => none

/-- RING_LATE_CNT. -/
def State.ringLate (s : State) : State := { s with tick := { s.tick with ringLate := satAdd 32 s.tick.ringLate 1 } }

/-- The token-ring CI words read for sessions short of credit, at most TR_READS of them (R300). -/
def State.takeCredits (s : State) (d : Nat) (trs : List (Nat × HostRead)) : State :=
  let short := (s.sessionsOf d).filter (fun i => match (s.session i).active with
    | some r => r.kind == .generate && decide (r.credit < gDrafts r.cmd.entry + 1)
    | none => false)
  (short.take (s.reg .trReads d)).foldl (fun s i =>
    match (trs.find? (fun t => t.1 == i)).bind (fun t => readBytes t.2), (s.session i).active with
    | some b, some r =>
      let ci := leNat (b.take 8)
      if r.emitted < ci ∨ ci < r.trCi then s
      else s.modSession i (fun x => { x with active := some { r with
        trCi := ci, credit := 2 ^ gRingLog2 r.cmd.entry - (r.emitted - ci) } })
    | _, _ => s) s

/-- The submission ring of deckle `d` once its producer index is known: one below SQ_CI counts as unchanged (R226). -/
def State.fetchFrom (s : State) (d pi : Nat) (es : List HostRead) : State :=
  let ci := (s.deckle d).sqCi
  let s := if pi < ci then s.report { err := .sqPiBack, inst := d, deckle := some d } else s
  let pi := if pi < ci then (s.deckle d).sqPi else pi
  if 2 ^ s.reg .sqSize d < pi - ci then
    (s.setReg .sqEn d 0).report { err := .sqOverflow, inst := d, deckle := some d }
  else
    let s := s.modDeckle d (fun k => { k with sqPi := pi })
    let n := min (pi - ci) (s.reg .fetchMax d)
    let got := (arrived es).take n
    let s := if got.length < n then s.ringLate else s
    (got.take (s.cqFree d)).foldl (fun s e => s.acceptEntry d e) s

/-- Action 7 of R34 for one deckle. Credits are read whatever the submission ring does (R300); a cleared CQ_EN holds the
deckle's publication from this strobe on, and SQ_EN has no effect then (R280, R597). The scheduler
fetches nothing while it is reloaded (R505). -/
def State.fetchRing (s : State) (r : RingIn) : State :=
  let d := r.deckle.val
  let s := s.modDeckle d (fun k => { k with cqOn := s.reg .cqEn d == 1 })
  if !(s.deckle d).opened ∨ !s.mayIssue (s.fnOf d) then s
  else if s.reg .sqEn d = 0 ∨ s.reg .cqEn d = 0 ∨ s.reloading (seqCode .sched) then s.takeCredits d r.trs
  else
    let bad := readBad r.pi || readBad r.ci || r.entries.any readBad
    let s := match readBytes r.ci with
      | some b => s.modDeckle d (fun k =>
          if leNat (b.take 8) ≤ k.cqPi ∧ k.cqCi ≤ leNat (b.take 8) then { k with cqCi := leNat (b.take 8) } else k)
      | none => s
    let s := s.takeCredits d r.trs
    let s := match readBytes r.pi with
      | some b => s.fetchFrom d (leNat (b.take 8)) r.entries
      | none => s.ringLate
    if bad then s.ringFailed d else s.modDeckle d (fun k => { k with sqFails := 0 })

/-- What the strobe reads of a deckle returned; nothing yet for a deckle that is not listed. -/
def ringOf (rings : List RingIn) (d : Fin 16) : RingIn := (rings.find? (fun r => r.deckle == d)).getD { deckle := d }

/-- The rings of every deckle. -/
def State.fetchAll (s : State) (rings : List RingIn) : State :=
  (List.finRange 16).foldl (fun s d => s.fetchRing (ringOf rings d)) s

/-! ### The boundary (R34, R35, R545) -/

/-- Actions in order; nothing follows the loss of core power. -/
def runActions (l : List (State → State)) (s : State) : State :=
  l.foldl (fun s f => if s.coreOn then f s else s) s

/-- Action 2: shadows commit. A WM_RATE commit abandons the run in progress (R198). -/
def State.commitAll (s : State) : State :=
  let rates := (s.shadows.filter (fun w => s.commits s.tick.now w.page && w.fld == fldCode .wmRate &&
    decide (8 ≤ w.value) && decide (w.value ≤ 16))).map (fun w => w.copy)
  let s := s.commitShadows s.tick.now
  rates.foldl (fun s d => s.modDeckle d (fun k => { k with wmCount := [], wmTaken := [] })) s

/-- An accepted TICK_PERIOD is in force, from a tick boundary on (R32). -/
def State.takePeriod (s : State) : State :=
  { s with tick := { s.tick with period := s.tick.periodNext.getD s.tick.period, periodNext := none } }

/-- PWR_ON_BATT acts from the boundary (R529). -/
def State.takeBatt (s : State) : State := { s with power := { s.power with batt := s.power.battRaw } }

/-- Per-tick counts of the ports are latched (R356, R374). -/
def State.latchPorts (s : State) : State :=
  (s.ports.map (fun x => x.1)).foldl (fun s p =>
    s.modPort p (fun x => { x with symLast := x.symNow, symNow := [], authTick := 0 })) s

/-- Pending FLRs, openings and closings of every deckle. -/
def State.deckleBoundary (s : State) : State :=
  allDeckles.foldl (fun s d => (s.flrEffect d).openDeckle d) s

/-- Completed swaps settle. -/
def State.settleSwaps (s : State) : State := (s.sessions.map (fun x => x.1)).foldl (fun s i => s.settleSwap i) s

/-- The prefill chunks between two segments are pre-empted (R219). -/
def State.preemptAll (s : State) : State :=
  allDeckles.foldl (fun s d => s.modDeckle d (fun k =>
    { k with steps := k.steps.map (fun t => if t.prefill && t.open_ops == 0 then { t with preempted := true } else t) })) s

/-- The actions of a boundary and of a self-strobe alike, from the commits of action 2 on. -/
def commonActions : List (State → State) :=
  [State.commitAll, State.takeBatt, State.debugUnlock, State.handOver, State.raiseInjected, State.updPause]

/-- A CAL image that handed over in the tick before serves the calibration passes from this tick on (R482). -/
def State.calTurns (s : State) : State := { s with upd := { s.upd with calPrev := none } }

/-- The boundary's number: the first tick ever keeps the number it starts with. -/
def Tick.begin (t : Tick) : Tick :=
  { t with now := if t.starting ∧ !t.started then t.now else t.now + 1, starting := false, started := true, inTick := true
           stage := .started }

/-- TICK_BOUNDARY: phase 1 of a tick, in the order of R34. -/
def State.boundary (s : State) (inp : StrobeIn) (rings : List RingIn) : State :=
  if !s.coreOn ∨ !s.tick.running ∨ s.tick.inTick then s
  else
    let s := { s with tick := s.tick.begin }
    runActions ([fun s => (s.takeTelem 0 inp).ageStrobe, State.calTurns] ++ commonActions ++
      [State.deckleBoundary, State.enterGroups, State.takePeriod, State.planBoundary,
       fun s => s.applyMembership s.tick.now, State.vatBoundary, State.reloadsEnd, State.stressCheck, State.beginRecord,
       State.sweepContexts, State.sendTimes, State.preemptAll, State.latchPorts,
       State.stepEffect, fun s => { s with therm := { s.therm with fast := s.therm.fastNext } }, State.latchPower,
       State.stopSessions, State.settleSwaps, State.slotEffects, State.slotBoundary, State.correctStep,
       State.showGroups, fun s => s.fetchAll rings]) s

def execTickBoundary (strobe : StrobeIn) (rings : List RingIn) (s : State) : Out := .next (s.boundary strobe rings)

/-- SELF_STROBE: the strobe of the THERM block while no tick runs. -/
def State.selfStrobe (s : State) (inp : StrobeIn) : State :=
  if !s.coreOn ∨ s.tick.running then s
  else
    runActions ([fun s => s.takeTelem 0 inp] ++ commonActions ++
      [State.slotEffects, State.slotBoundary, State.deckleBoundary, State.enterGroups, State.evalSelf, State.stressCheck,
       State.beginRecord, State.showGroups]) s

def execSelfStrobe (strobe : StrobeIn) (s : State) : Out := .next (s.selfStrobe strobe)

/-- The tick goes on to its next phase (R33). -/
def State.enterStage (s : State) (g : TickStage) : State := { s with tick := { s.tick with stage := g } }

/-- EVALUATION_PHASE: the second phase of a tick. Its slip is fixed (R370), and the thermal model and the power controller
run (R33, R38). -/
def execEvaluationPhase (s : State) : Out :=
  .next (if s.tick.stage = .started then (s.enterStage .evaluated).slipTick.evalPhase else s)

/-! ### Publication (R39, R299, R403, R404) -/

/-- A write as it is charged and ordered: rank of R39 and R299, address, bytes. -/
structure PubOut where
  rank : Nat
  addr : Nat
  data : Bytes
  deriving DecidableEq, Repr

/-- Token-log writes of consecutive positions form one write of at most 256. -/
def splitLog : Nat → Nat → List Nat → List (Nat × List Nat)
  | 0, _, _ => []
  | n + 1, a, ts => if ts.isEmpty then [] else (a, ts.take 256) :: splitLog n (a + 1024) (ts.drop 256)

/-- Join token-log writes that continue one another. -/
def joinLogs : List PubWrite → List PubWrite
  | .log a xs :: r => match joinLogs r with
    | .log b ys :: r' => if b = a + 4 * xs.length then .log a (xs ++ ys) :: r' else .log a xs :: .log b ys :: r'
    | r' => .log a xs :: r'
  | w :: r => w :: joinLogs r
  | [] => []

/-- Bytes of a completion record (R295). -/
def completionBytes (tag session status flags command ended err tokens commit now : Nat) : Bytes :=
  leBytes 8 tag ++ leBytes 4 session ++ leBytes 1 status ++ leBytes 1 flags ++ leBytes 1 command ++ leBytes 1 ended ++
  leBytes 2 err ++ leBytes 2 0 ++ leBytes 4 tokens ++ leBytes 4 commit ++ leBytes 4 now

/-- Bytes of a token record (R299). -/
def tokenBytes (tok pos logprob flags accepted now : Nat) : Bytes :=
  leBytes 4 tok ++ leBytes 4 pos ++ leBytes 2 logprob ++ leBytes 1 flags ++ leBytes 1 accepted ++ leBytes 4 now

/-- The host writes of one publication write; `cq` is the completion record's address. -/
def PubWrite.outs (now cq : Nat) : PubWrite → List PubOut
  | .log a ts => (splitLog (ts.length + 1) a ts).map (fun x =>
      { rank := 0, addr := x.1, data := x.2.foldr (fun t b => leBytes 4 t ++ b) [] })
  | .completion tag i st fl c en er tk cm => [{ rank := 1, addr := cq, data := completionBytes tag i st fl c en er tk cm now }]
  | .token a t p l f n => [{ rank := 2, addr := a, data := tokenBytes t p l f n now }]
  | .tokenPi a v => [{ rank := 3, addr := a, data := leBytes 8 v }]
  | .quireStatus a b => [{ rank := 1, addr := a, data := b }]

/-- Bytes charged for some writes: payload plus 32 each (R403). -/
def charge (l : List PubOut) : Nat := l.foldl (fun a w => a + w.data.length + 32) 0

/-- A write that must stand in a unit's last part. -/
def PubWrite.closing (w : PubWrite) : Bool := w.rank == 1 || w.rank == 3

/-- The leading writes of an oversized unit that fit, and the rest; its completion record and producer index go
together, last (R404). -/
def partOf (now cq room : Nat) : List PubWrite → List PubWrite × List PubWrite
  | [] => ([], [])
  | w :: r =>
    let n := if w.closing then charge ((w :: r).foldr (fun x a => x.outs now cq ++ a) []) else charge (w.outs now cq)
    if room < n then ([], w :: r)
    else if w.closing then (w :: r, [])
    else
      let (a, b) := partOf now cq (room - n) r
      (w :: a, b)

/-- Order of the writes of an oversized unit: the closing ones last. -/
def partOrder (l : List PubWrite) : List PubWrite := l.filter (fun w => !w.closing) ++ l.filter (fun w => w.closing)

/-- A long token-log write as writes of at most 256 positions. -/
def cutLogs (l : List PubWrite) : List PubWrite :=
  (joinLogs l).foldr (fun w a => match w with
    | .log x ts => (splitLog (ts.length + 1) x ts).map (fun y => PubWrite.log y.1 y.2) ++ a
    | w => w :: a) []

/-- What one phase 5 writes of a deckle's queue: the writes, whether a message is due, the units left. -/
structure PubRun where
  room   : Nat
  cqPi   : Nat
  outs   : List PubOut := []
  tokens : Nat := 0
  done   : Nat := 0
  irq    : Bool := false
  quires : Bool := false
  left   : List PubUnit := []
  deriving DecidableEq, Repr

/-- Host address of completion record `i` of a deckle. -/
def State.cqAddr (s : State) (d i : Nat) : Nat := s.reg .cqBase d * 4096 + 32 * (i % 2 ^ s.reg .cqSize d)

/-- Write units from the head of the queue (R404, steps 2 to 5). `full` is the whole allowance less the reservations. -/
def State.pubUnits (s : State) (d full : Nat) : List PubUnit → PubRun → PubRun
  | [], p => p
  | u :: r, p =>
    let cq := s.cqAddr d p.cqPi
    let ws := cutLogs u.writes
    let outs := ws.foldr (fun w a => w.outs s.tick.now cq ++ a) []
    let take := fun (p : PubRun) (ws : List PubWrite) (outs : List PubOut) => { p with
      room := p.room - charge outs, outs := p.outs ++ outs
      tokens := p.tokens + (ws.filter (fun w => w.rank == 2)).length
      done := p.done + (ws.filter (fun w => w.rank == 1)).length, cqPi := p.cqPi + (ws.filter (fun w => w.rank == 1)).length
      irq := p.irq || (u.irq && ws.any (fun w => w.rank == 1)) || (u.irqTok && ws.any (fun w => w.rank == 2))
      quires := p.quires || (u.quire && !ws.isEmpty) }
    if charge outs ≤ p.room then s.pubUnits d full r (take p ws outs)
    else if charge outs ≤ full then { p with left := u :: r }
    else
      let (a, b) := partOf s.tick.now cq p.room (partOrder ws)
      let outs := a.foldr (fun w a => w.outs s.tick.now cq ++ a) []
      if b.isEmpty then s.pubUnits d full r (take p a outs)
      else { take p a outs with left := { u with writes := b } :: r }

/-- Order of the units of one tick (R404, step 3). -/
def unitLe (a b : PubUnit) : Bool :=
  if a.quire ≠ b.quire then !a.quire
  else if a.order ≠ b.order then decide (a.order ≤ b.order)
  else decide (a.session ≤ b.session)

/-- The queue as phase 5 takes it: deferred units, then the tick's own. -/
def pubQueue (l : List PubUnit) : List PubUnit :=
  l.filter (fun u => !u.fresh) ++ sortBy unitLe (l.filter (fun u => u.fresh))

/-- The vector of a deckle's publication (R302, R405). -/
def State.pubVector (s : State) (d : Nat) : Nat × Nat := if d < s.host.vfs then (d + 1, 0) else (0, 16 + d)

/-- Phase 5 of one deckle: the state, and its writes with their function. -/
def State.publishDeckle (s : State) (d : Nat) : State × List (Nat × PubOut) :=
  let k := s.deckle d
  let q := pubQueue k.units
  let open_ := k.cqOn && s.mayIssue (s.fnOf d) && !s.hubReload
  let due := q.any (fun u => u.writes.any (fun w => match w with
    | .completion .. => true
    | _ => false))
  let held := (if due then 40 else 0) + (if q.any (fun u => u.irq || u.irqTok) then 36 else 0)
  let full := s.reg .pubBytes d - held
  let p := if open_ then s.pubUnits d full q { room := full, cqPi := k.cqPi } else { room := full, cqPi := k.cqPi, left := q }
  let pi := if p.cqPi = k.cqPi then [] else [{ rank := 3, addr := s.reg .cqPiAddr d * 8, data := leBytes 8 p.cqPi : PubOut }]
  let fresh := (p.left.filter (fun u => u.fresh)).length
  let s := s.modDeckle d (fun k => { k with
    units := p.left.map (fun u => { u with fresh := false }), cqPi := p.cqPi, cqHeld := k.cqHeld - (p.cqPi - k.cqPi)
    tokCnt := satAdd 64 k.tokCnt p.tokens, deferUnits := satAdd 32 k.deferUnits fresh
    deferTicks := satAdd 32 k.deferTicks (b2n (!p.left.isEmpty))
    pubLast := charge (p.outs ++ pi) + (if p.irq then 36 else 0) })
  let v := s.pubVector d
  let s := if p.irq then s.raiseVector v.1 v.2 else s
  let s := if p.quires then s.raiseVector (d + 1) 1 else s
  (s, (p.outs ++ pi).map (fun w => (s.fnOf d, w)))

/-- Every deckle in turn. -/
def State.publishAll (s : State) : State × List (Nat × PubOut) :=
  (allDeckles.filter (fun d => (s.deckle d).opened)).foldl (fun a d =>
    let (s, l) := a.1.publishDeckle d
    (s, a.2 ++ l)) (s, [])

/-- Positions of the steps that completed in the tick are committed, and those that other members of a ring write (R262,
R266, R288). -/
def State.commitLengths (s : State) : State :=
  let s := (s.sessions.map (fun x => x.1)).foldl (fun s i => s.ringSkip i) s
  (s.sessions.map (fun x => x.1)).foldl (fun s i =>
    let x := s.session i
    if x.commitDue = 0 then s
    else (s.modSession i (fun x => { x with commitDue := 0 })).setCommit i (x.commitLen + x.commitDue)) s

/-- Operations that have not completed when the tick's work ends have overrun (R42). -/
def State.overrunAll (s : State) : State :=
  (s.sched.ops.filter (fun o => o.state == .waiting && !o.reissue)).foldl (fun s o => s.overrun o.deckle o.seq) s

/-- The scoreboard entries of completed operations are free, and what exchanges have not committed is discarded (R42,
R233). -/
def State.freeEntries (s : State) : State :=
  { s with sched := { s.sched with ops := s.sched.ops.filter (fun o => o.state != .complete), staged := [] } }

/-- The records, producer indices and messages of phase 5. -/
def State.writeAll (s : State) : State :=
  let (s, l) := s.publishAll
  let l := sortBy (fun a b => decide (a.2.rank ≤ b.2.rank)) l
  let s := l.foldl (fun s w => s.post w.1 w.2.addr w.2.data) s
  let s := if s.therm.stepSaid then ({ s with therm := { s.therm with stepSaid := false } }).raiseVector 0 3 else s
  s.flushPf.sendVectors

/-- The session windows show the descriptors as they stand at the end of phase 5 (R579). -/
def State.showSessions (s : State) : State := { s with sessShown := s.sessions }

/-- The tick ends, and the tick stops when a stop is due (R47). -/
def State.endTick (s : State) : State :=
  { s with tick := { s.tick with inTick := false, stage := .outside, stopReq := false,
                                   running := s.tick.running && !s.tick.stopReq } }

/-- PUBLICATION_PHASE: phase 5, after the execution phase (R33). -/
def State.publication (s : State) : State :=
  if s.tick.stage ≠ .execution then s
  else
    let s := s.overrunAll
    if s.coreOn then s.commitLengths.freeEntries.writeAll.showSessions.endTick else s

def execPublicationPhase (s : State) : Out := .next s.publication

end Sys2Proof.Machine
end

