-- ==== Sys2Proof/Machine/RegWrites.lean ====
section
/-! DEFINITION. REGISTER_WRITE: a host write to any register of the PF's or a VF's BAR0, by the register maps, the access
codes and the rules of a VF mirror (R21, R395 to R398, R553 to R600). -/
namespace Sys2Proof.Machine

/-- A write as it reaches a register: the register's offset within its page, the written value in place, and which halves
it carries. -/
structure RegWrite where
  reg  : Nat
  low  : Bool
  high : Bool
  word : Nat
  deriving DecidableEq, Repr

/-- The write of `size` bytes at an offset; none where R397 answers Unsupported Request. -/
def regWrite (off size value : Nat) : Option RegWrite :=
  let r := off % 4096 / 8 * 8
  if size = 8 ∧ off % 8 = 0 then some { reg := r, low := true, high := true, word := value % 2 ^ 64 }
  else if size = 4 ∧ off % 8 = 0 then some { reg := r, low := true, high := false, word := value % 2 ^ 32 }
  else if size = 4 ∧ off % 8 = 4 then some { reg := r, low := false, high := true, word := value % 2 ^ 32 * 2 ^ 32 }
  else none

/-- The register's word after the write, from the word `cur` before it. -/
def merged (w : RegWrite) (cur : Nat) : Nat :=
  (if w.low then w.word % 2 ^ 32 else cur % 2 ^ 32) +
  (if w.high then w.word / 2 ^ 32 else cur / 2 ^ 32 % 2 ^ 32) * 2 ^ 32

/-- The write carries some bit of [hi:lo]. -/
def carries (w : RegWrite) (hi lo : Nat) : Bool := (w.low && decide (lo < 32)) || (w.high && decide (32 ≤ hi))

/-! ### Stored fields (R21, R558) -/

/-- The copy of a field that a write to a page names. -/
def State.copyOf (s : State) (f : Fld) (inst : Nat) : Nat :=
  match f with
  | .accAllot => allotCopy inst (s.reg .accSel inst)
  | .ringNode => memberCopy inst (s.reg .ringSel inst)
  | _ => inst

/-- The bits of a field that are not reserved: ACC_COUNT and ACC_BASE stand apart in one register (R558, R596). -/
def fieldBits (f : Fld) (v : Nat) : Nat := if f = .accAllot then bits v 47 32 * 2 ^ 32 + bits v 15 0 else v

/-- The value a write gives a field: a half not written keeps its pending bits, else those in force. -/
def State.fieldValue (s : State) (w : RegWrite) (f : Fld) (c : Nat) : Nat :=
  fieldBits f (bits (merged w (s.pendingOr f c * 2 ^ (fldInfo f).lo)) (fldInfo f).hi (fldInfo f).lo)

/-- Write the stored fields of a register that `keep` names, each under its own access code. -/
def State.writeFields (s : State) (kind inst : Nat) (w : RegWrite) (keep : Fld → Bool) : State :=
  (allFlds.filter (fun f => (fldInfo f).kind == kind && (fldInfo f).off == w.reg && keep f &&
      carries w (fldInfo f).hi (fldInfo f).lo)).foldl
    (fun s f => s.writeField f (s.copyOf f inst) (s.fieldValue w f (s.copyOf f inst))) s

/-! ### Common registers (R494, R496, R497, R553, R557, R560, R583) -/

/-- PAGE_CTL: RUN of the TICK and DECK pages, and the requests of a VAT page, SERVICE before DRAIN before RUN. -/
def State.writePageCtl (s : State) (kind inst : Nat) (w : RegWrite) : State :=
  if !w.low then s
  else if kind = 0x02 then
    if bit w.word 0 then s.startTick
    else ({ s with torus := { s.torus with waiting := false } }).stopTick
  else if kind = 0x18 then s.writeDeckRun inst (bit w.word 0) true
  else if kind = 0x13 then
    if bit w.word 2 then s.requestService inst
    else if bit w.word 1 then s.requestDrain inst
    else if bit w.word 0 then s.requestRun inst
    else s
  else s

/-- A common register of a page. -/
def State.writeCommon (s : State) (kind inst : Nat) (w : RegWrite) : State :=
  let p := pageIndex kind inst
  let r := s.pageRegs p
  if w.reg = 0x010 then s.writePageCtl kind inst w
  else if w.reg = 0x020 then s.clearPageErr p (merged w 0)
  else if w.reg = 0x030 then s.modPage p (fun r => { r with mask := bits (merged w r.mask) 1 0 })
  else if w.reg = 0x038 then if w.low then s.writeInj p w.word else s
  else if w.reg = 0x040 then s.writeLatch p (merged w (b2n r.latchEn * 2 ^ 63 + r.latchTick))
  else s

/-! ### DECK pages (R280, R398, R597 to R599) -/

/-- A ring register that holds a size, an enable bit and a field of the PF alone. -/
def State.writeRing (s : State) (d : Nat) (w : RegWrite) (sq pf : Bool) : State :=
  if !w.low then s
  else
    let size := if sq then Fld.sqSize else .cqSize
    let quota := if sq then Fld.fetchMax else .trReads
    let v := s.fieldValue w size d
    let s := if !s.deckLocked d size then s.putField size d v
             else if v = s.reg size d then s else s.setWwr (pageIndex 0x18 d)
    let s := if pf then s.putShadow quota d (s.fieldValue w quota d) else s
    if sq then s.writeSqEn d (bit w.word 0) else s.writeCqEn d (bit w.word 0)

/-- SESS_BASE and SESS_COUNT stand in one register and are checked together. -/
def State.writeSess (s : State) (d : Nat) (w : RegWrite) : State :=
  s.writeSessRange d (s.fieldValue w .sessBase d) (s.fieldValue w .sessCount d)

/-- The fields a VF selects with, as the PF does. -/
def isSelector (f : Fld) : Bool := f == .derrSel || f == .accSel || f == .ringSel

/-- A register of the DECK page, written by the PF. -/
def State.writeDeckPf (s : State) (d : Nat) (w : RegWrite) : State :=
  if w.reg = 0x100 then s.writeSess d w
  else if w.reg = 0x120 then s.writeRing d w true true
  else if w.reg = 0x148 then s.writeRing d w false true
  else s.writeFields 0x18 d w (fun _ => true)

/-- The registers of a DECK page. -/
def isDeckReg (r : Nat) : Bool := decide (r ≤ 0x048) || (decide (0x100 ≤ r) && decide (r ≤ 0x1D0))

/-- A register of the mirror, written by the deckle's VF: tenant fields and selectors, and the W1C bits of PAGE_ERR. -/
def State.writeDeckVf (s : State) (d : Nat) (w : RegWrite) : State :=
  let keep := fun f => isTenant f || isSelector f
  if w.reg = 0x020 then s.clearPageErr (pageIndex 0x18 d) (merged w 0)
  else if w.reg = 0x120 then s.writeRing d w true false
  else if w.reg = 0x148 then s.writeRing d w false false
  else if allFlds.any (fun f => (fldInfo f).kind == 0x18 && (fldInfo f).off == w.reg && keep f) then
    s.writeFields 0x18 d w keep
  else if isDeckReg w.reg then s.corrected .vfWriteRo d (some d)
  else s

/-! ### Registers that act (R126, R134, R169, R357, R383, R386, R431, R507, R548, R567, R572, R590, R593, R595) -/

/-- MMAP_DATA: an entry of a slot's member map, locked while the slot holds an image with MODULES above 1. -/
def State.writeMmap (s : State) (v : Nat) : State :=
  let k := s.reg .mmapSlot
  if (s.slot k).images.any (fun m => decide (1 < m.modules)) then
    s.setWwr (pageIndex 0x0F 0)
  else s.modSlot k (fun x => { x with members := put 0 x.members (s.reg .mmapIdx) (v % 2 ^ 15) })

/-- The word that CORR_DATA shows in its target fields, which a half write keeps. -/
def State.corrTargets (s : State) (v : Nat) : Nat :=
  let g := s.group v (s.reg .corrGroup v)
  let i := s.reg .corrIndex v
  if s.reg .corrKind v = 0 then ofSigned 12 (g.conv i).gainTgt * 2 ^ 44 + ofSigned 10 (g.conv i).ofsTgt * 2 ^ 16
  else ofSigned 7 (g.trim i).target * 2 ^ 16

/-- A register of a page of a vat that acts when it is written. -/
def State.writeVatPage (s : State) (kind v : Nat) (w : RegWrite) : State :=
  if kind = 0x16 ∧ w.reg = 0x100 then if w.low then s.writeRefEn v (bit w.word 0) else s
  else if kind = 0x16 ∧ w.reg = 0x110 then s.accessCorr v (some (merged w (s.corrTargets v)))
  else if kind = 0x17 ∧ w.reg = 0x128 then
    if w.low ∧ bits w.word 24 3 * 8 < scrBytes then s.modVat v (fun x => { x with scrAddr := bits w.word 24 3 * 8 }) else s
  else if kind = 0x17 ∧ w.reg = 0x130 then
    s.accessScr v (some (merged w (s.readNum (scrAddrOf v (s.vat v).scrAddr) 8)))
  else s.writeFields kind v w (fun _ => true)

/-- A register of a FELT page. -/
def State.writeFeltPage (s : State) (p : Nat) (w : RegWrite) : State :=
  if w.reg = 0x100 then
    let s := s.writeFields 0x11 p w (fun _ => true)
    if w.low then s.writePortEn p (bit w.word 0) else s
  else if w.reg = 0x110 then if w.low then s.writeDrain p w.word else s
  else s.writeFields 0x11 p w (fun _ => true)

/-- A register of a MEM page: RETIRE_PAGE and UNRETIRE act, refused under R18. -/
def State.writeMemPage (s : State) (st : Nat) (w : RegWrite) : State :=
  if w.reg = 0x118 then
    if !w.low then s
    else if s.refused18 then s.corrected .retireRefused st none
    else
      let k := pageKey st (bits w.word 19 0)
      if bit w.word 63 then { s with pageOut := put 0 s.pageOut k 0 } else s.retirePageAt k
  else s.writeFields 0x12 st w (fun _ => true)

/-- A register of a global page. -/
def State.writeGlobal (s : State) (kind : Nat) (w : RegWrite) : State :=
  if kind = 0x01 ∧ w.reg = 0x128 then
    let s := if bit w.word 63 then s.requestLeave else s
    s.writeFields 0x01 0 w (fun _ => true)
  else if kind = 0x02 ∧ w.reg = 0x100 then if w.low then s.writePeriod (bits w.word 15 0) else s
  else if kind = 0x04 ∧ w.reg = 0x110 then s.challenge
  else if kind = 0x05 ∧ w.reg = 0x108 then
    if w.low then { s with power := { s.power with autoReset := bit w.word 0 } } else s
  else if kind = 0x08 ∧ w.reg = 0x108 then
    if bit w.word 63 then s.requestReplan true 0
    else if w.low then s.requestReplan false (bits w.word 5 0) else s
  else if kind = 0x08 ∧ w.reg = 0x110 then s.requestInit w.word
  else if kind = 0x08 ∧ w.reg = 0x128 then if w.low then s.writeHistSel w.word else s
  else if kind = 0x09 ∧ w.reg = 0x120 then if bit w.word 0 then s.requestShut else s
  else if kind = 0x0F ∧ w.reg = 0x110 then if w.low then s.writeMmap (bits w.word 14 0) else s
  else s.writeFields kind 0 w (fun _ => true)

/-! ### MSI-X tables (R397, R405, R581) -/

/-- A register of a function's MSI-X table: entry `r / 16`, its address, or its data and its mask bit. -/
def State.writeMsix (s : State) (fn r : Nat) (w : RegWrite) : State :=
  s.modFunc fn (fun f =>
    let e := get {} f.table (r / 16)
    let e' := if r % 16 = 0 then { e with addr := merged w e.addr }
              else
                let x := merged w (e.data + b2n e.masked * 2 ^ 32)
                { e with data := x % 2 ^ 32, masked := bit x 32 }
    { f with table := put {} f.table (r / 16) e' })

/-! ### The BARs (R395, R396) -/

/-- A write through BAR0 of the PF. -/
def State.writePf (s : State) (off : Nat) (w : RegWrite) : State :=
  match pageOf (off / 4096) with
  | none => if off < 0x200 then s.writeMsix 0 w.reg w else s
  | some (kind, i) =>
    if w.reg < 0x100 then s.writeCommon kind i w
    else if kind = 0x18 then s.writeDeckPf i w
    else if kind = 0x11 then s.writeFeltPage i w
    else if kind = 0x12 then s.writeMemPage i w
    else if 0x13 ≤ kind then s.writeVatPage kind i w
    else s.writeGlobal kind w

/-- A write through BAR0 of VF `n`: its DECK mirror and its MSI-X table; its other windows are read-only. -/
def State.writeVf (s : State) (n off : Nat) (w : RegWrite) : State :=
  if off < 0x1000 then s.writeDeckVf (n - 1) w
  else if 0x3000 ≤ off ∧ off < 0x3040 then s.writeMsix n w.reg w
  else s

/-- The host reaches the function: the link is up, the function is in D0, and a VF is one of those enabled. -/
def State.reaches (s : State) (fn : Nat) : Bool :=
  s.power.phase == .up && s.host.linkUp && !(s.func fn).d3 && decide (fn ≤ s.host.vfs)

/-- REGISTER_WRITE. -/
def execRegisterWrite (fn : Fin 17) (offset size value : Nat) (s : State) : Out :=
  .next (if !s.reaches fn.val then s
  else match regWrite offset size value with
    | none => s
    | some w => if fn.val = 0 then s.writePf offset w else s.writeVf fn.val offset w)

end Sys2Proof.Machine
end

