-- ==== Sys2Proof/Machine/Dispatch.lean ====
section
/-! DEFINITION. Which meaning each command has: one arm per constructor. -/
namespace Sys2Proof.Machine

def exec (i : Instr) (s : State) : Host.Outcome State Fault Refusal :=
  match i with
  | .vin64Loss => Sys2Proof.Machine.execVin64Loss s
  | .vin64Qualified => Sys2Proof.Machine.execVin64Qualified s
  | .alwaysOnResetExit refSel clock => Sys2Proof.Machine.execAlwaysOnResetExit refSel clock s
  | .modResetN longPulse refSel clock => Sys2Proof.Machine.execModResetN longPulse refSel clock s
  | .hostLinkDown perst => Sys2Proof.Machine.execHostLinkDown perst s
  | .hostLinkUp => Sys2Proof.Machine.execHostLinkUp s
  | .flrVf n entropy => Sys2Proof.Machine.execFlrVf n entropy s
  | .flrPf entropy => Sys2Proof.Machine.execFlrPf entropy s
  | .d3hot func enter => Sys2Proof.Machine.execD3hot func enter s
  | .pwrOnBatt level => Sys2Proof.Machine.execPwrOnBatt level s
  | .refLost => Sys2Proof.Machine.execRefLost s
  | .thermTrip model index => Sys2Proof.Machine.execThermTrip model index s
  | .thermtripRelease => Sys2Proof.Machine.execThermtripRelease s
  | .pstageFault => Sys2Proof.Machine.execPstageFault s
  | .clkLock v => Sys2Proof.Machine.execClkLock v s
  | .ideFail => Sys2Proof.Machine.execIdeFail s
  | .bootDirectory copy0 copy1 => Sys2Proof.Machine.execBootDirectory copy0 copy1 s
  | .bootImages slots => Sys2Proof.Machine.execBootImages slots s
  | .bootIdentity rec0 rec1 entropy => Sys2Proof.Machine.execBootIdentity rec0 rec1 entropy s
  | .hostPortStart => Sys2Proof.Machine.execHostPortStart s
  | .linkTrained ms => Sys2Proof.Machine.execLinkTrained ms s
  | .tickBoundary strobe rings => Sys2Proof.Machine.execTickBoundary strobe rings s
  | .calibrationWindow v blocks => Sys2Proof.Machine.execCalibrationWindow v blocks s
  | .evaluationPhase => Sys2Proof.Machine.execEvaluationPhase s
  | .intermediateStrobe k strobe => Sys2Proof.Machine.execIntermediateStrobe k strobe s
  | .allocationPhase => Sys2Proof.Machine.execAllocationPhase s
  | .publicationPhase => Sys2Proof.Machine.execPublicationPhase s
  | .selfStrobe strobe => Sys2Proof.Machine.execSelfStrobe strobe s
  | .tickRunSet => Sys2Proof.Machine.execTickRunSet s
  | .tickRunClear => Sys2Proof.Machine.execTickRunClear s
  | .tickPeriod value => Sys2Proof.Machine.execTickPeriod value s
  | .tileMvm opr faults sampled => Sys2Proof.Machine.execTileMvm opr faults sampled s
  | .residual opr found => Sys2Proof.Machine.execResidual opr found s
  | .sizing opr => Sys2Proof.Machine.execSizing opr s
  | .attnBlock opr => Sys2Proof.Machine.execAttnBlock opr s
  | .vector opr => Sys2Proof.Machine.execVector opr s
  | .kvAppend opr => Sys2Proof.Machine.execKvAppend opr s
  | .exchange opr peer => Sys2Proof.Machine.execExchange opr peer s
  | .sample opr => Sys2Proof.Machine.execSample opr s
  | .ctxSave opr => Sys2Proof.Machine.execCtxSave opr s
  | .ctxRestore opr => Sys2Proof.Machine.execCtxRestore opr s
  | .overrun d seq => Sys2Proof.Machine.execOverrun d seq s
  | .openSession d header history => Sys2Proof.Machine.execOpenSession d header history s
  | .prefill d tokens => Sys2Proof.Machine.execPrefill d tokens s
  | .generate d => Sys2Proof.Machine.execGenerate d s
  | .pause d => Sys2Proof.Machine.execPause d s
  | .resume d => Sys2Proof.Machine.execResume d s
  | .cancel d => Sys2Proof.Machine.execCancel d s
  | .checkpoint d => Sys2Proof.Machine.execCheckpoint d s
  | .checkpointWrite d session log => Sys2Proof.Machine.execCheckpointWrite d session log s
  | .close d => Sys2Proof.Machine.execClose d s
  | .setQuire d => Sys2Proof.Machine.execSetQuire d s
  | .ttlExpired session => Sys2Proof.Machine.execTtlExpired session s
  | .swapOutComplete session readBack => Sys2Proof.Machine.execSwapOutComplete session readBack s
  | .swapInComplete session slots => Sys2Proof.Machine.execSwapInComplete session slots s
  | .hostReadFail what => Sys2Proof.Machine.execHostReadFail what s
  | .load desc chain => Sys2Proof.Machine.execLoad desc chain s
  | .reamImageData slot part => Sys2Proof.Machine.execReamImageData slot part s
  | .switch desc => Sys2Proof.Machine.execSwitch desc s
  | .discard desc => Sys2Proof.Machine.execDiscard desc s
  | .unload desc => Sys2Proof.Machine.execUnload desc s
  | .stuckExport desc => Sys2Proof.Machine.execStuckExport desc s
  | .couchRecv desc => Sys2Proof.Machine.execCouchRecv desc s
  | .qload d desc => Sys2Proof.Machine.execQload d desc s
  | .qunload d desc => Sys2Proof.Machine.execQunload d desc s
  | .rewriteComplete slot stuck => Sys2Proof.Machine.execRewriteComplete slot stuck s
  | .drainLimitExpiry slot d => Sys2Proof.Machine.execDrainLimitExpiry slot d s
  | .vatReplace v => Sys2Proof.Machine.execVatReplace v s
  | .spareRewriteDone v group stuck => Sys2Proof.Machine.execSpareRewriteDone v group stuck s
  | .converterCalDone v group conv meas => Sys2Proof.Machine.execConverterCalDone v group conv meas s
  | .fallbackStart v => Sys2Proof.Machine.execFallbackStart v s
  | .fallbackEnd v convs blocks => Sys2Proof.Machine.execFallbackEnd v convs blocks s
  | .marginWindowEnd => Sys2Proof.Machine.execMarginWindowEnd s
  | .periodicReplan => Sys2Proof.Machine.execPeriodicReplan s
  | .replanCandidateEnd v group => Sys2Proof.Machine.execReplanCandidateEnd v group s
  | .replanReq all v => Sys2Proof.Machine.execReplanReq all v s
  | .initCal msk => Sys2Proof.Machine.execInitCal msk s
  | .initCalDone v groups => Sys2Proof.Machine.execInitCalDone v groups s
  | .marginRecordDue => Sys2Proof.Machine.execMarginRecordDue s
  | .recordWriteDone ok => Sys2Proof.Machine.execRecordWriteDone ok s
  | .recShut => Sys2Proof.Machine.execRecShut s
  | .refbufEn v value => Sys2Proof.Machine.execRefbufEn v value s
  | .refbufReady v unsettled => Sys2Proof.Machine.execRefbufReady v unsettled s
  | .corrData v value => Sys2Proof.Machine.execCorrData v value s
  | .histSel value => Sys2Proof.Machine.execHistSel value s
  | .histData => Sys2Proof.Machine.execHistData s
  | .scrData v value => Sys2Proof.Machine.execScrData v value s
  | .seqFault b => Sys2Proof.Machine.execSeqFault b s
  | .seqReloadDone b digestOk => Sys2Proof.Machine.execSeqReloadDone b digestOk s
  | .hubHang refSel clock => Sys2Proof.Machine.execHubHang refSel clock s
  | .managementEvent => Sys2Proof.Machine.execManagementEvent s
  | .pageErrClear page func bts => Sys2Proof.Machine.execPageErrClear page func bts s
  | .pageErrInj page value => Sys2Proof.Machine.execPageErrInj page value s
  | .pageLatch page value => Sys2Proof.Machine.execPageLatch page value s
  | .vatRun v => Sys2Proof.Machine.execVatRun v s
  | .vatDrain v => Sys2Proof.Machine.execVatDrain v s
  | .vatService v => Sys2Proof.Machine.execVatService v s
  | .deckOpen d run entropy => Sys2Proof.Machine.execDeckOpen d run entropy s
  | .sqEn d func value => Sys2Proof.Machine.execSqEn d func value s
  | .cqEn d func value => Sys2Proof.Machine.execCqEn d func value s
  | .retirePage stack page => Sys2Proof.Machine.execRetirePage stack page s
  | .unretire stack page => Sys2Proof.Machine.execUnretire stack page s
  | .registerWrite func offset size value => Sys2Proof.Machine.execRegisterWrite func offset size value s
  | .pldmSettingWrite coolant value => Sys2Proof.Machine.execPldmSettingWrite coolant value s
  | .portEn p value => Sys2Proof.Machine.execPortEn p value s
  | .laneDrain p msk => Sys2Proof.Machine.execLaneDrain p msk s
  | .laneFail p lane => Sys2Proof.Machine.execLaneFail p lane s
  | .laneTestPass p lane => Sys2Proof.Machine.execLaneTestPass p lane s
  | .portTrained p lanes => Sys2Proof.Machine.execPortTrained p lanes s
  | .linkSession p neigh => Sys2Proof.Machine.execLinkSession p neigh s
  | .sessionRetry p => Sys2Proof.Machine.execSessionRetry p s
  | .rekeyDue p neigh => Sys2Proof.Machine.execRekeyDue p neigh s
  | .rekeyFail p => Sys2Proof.Machine.execRekeyFail p s
  | .frameReceive p frame => Sys2Proof.Machine.execFrameReceive p frame s
  | .exchangeCompletion d seq message => Sys2Proof.Machine.execExchangeCompletion d seq message s
  | .timeFrame p frame => Sys2Proof.Machine.execTimeFrame p frame s
  | .timeFrameMissing p => Sys2Proof.Machine.execTimeFrameMissing p s
  | .alignLost => Sys2Proof.Machine.execAlignLost s
  | .autoRejoin p => Sys2Proof.Machine.execAutoRejoin p s
  | .firstAlignedStrobe p present down => Sys2Proof.Machine.execFirstAlignedStrobe p present down s
  | .membershipProposal p proposer number whenTick entries => Sys2Proof.Machine.execMembershipProposal p proposer number whenTick entries s
  | .leave => Sys2Proof.Machine.execLeave s
  | .capWaitSignal d seq => Sys2Proof.Machine.execCapWaitSignal d seq s
  | .setKey cmd => Sys2Proof.Machine.execSetKey cmd s
  | .clearKey cmd => Sys2Proof.Machine.execClearKey cmd s
  | .reqSigOn cmd => Sys2Proof.Machine.execReqSigOn cmd s
  | .reqSigOff cmd => Sys2Proof.Machine.execReqSigOff cmd s
  | .lock cmd => Sys2Proof.Machine.execLock cmd s
  | .unlock cmd => Sys2Proof.Machine.execUnlock cmd s
  | .chal => Sys2Proof.Machine.execChal s
  | .dbgToken token => Sys2Proof.Machine.execDbgToken token s
  | .keyGen => Sys2Proof.Machine.execKeyGen s
  | .getCertificate req slot => Sys2Proof.Machine.execGetCertificate req slot s
  | .getMeasurements req nonce indices => Sys2Proof.Machine.execGetMeasurements req nonce indices s
  | .keyExchange req pubKey transcript entropy => Sys2Proof.Machine.execKeyExchange req pubKey transcript entropy s
  | .ideKm act => Sys2Proof.Machine.execIdeKm act s
  | .entdaa addr => Sys2Proof.Machine.execEntdaa addr s
  | .setdasa sta addr => Sys2Proof.Machine.execSetdasa sta addr s
  | .write => Sys2Proof.Machine.execWrite s
  | .updWin data drained flashOk => Sys2Proof.Machine.execUpdWin data drained flashOk s
  | .imageVerifyDone img readBack => Sys2Proof.Machine.execImageVerifyDone img readBack s
  | .activate => Sys2Proof.Machine.execActivate s
  | .updCancel => Sys2Proof.Machine.execUpdCancel s
  | .queryDeviceIdentifiers => Sys2Proof.Machine.execQueryDeviceIdentifiers s
  | .getFirmwareParameters => Sys2Proof.Machine.execGetFirmwareParameters s
  | .requestUpdate => Sys2Proof.Machine.execRequestUpdate s
  | .passComponentTable ids => Sys2Proof.Machine.execPassComponentTable ids s
  | .updateComponent kind len => Sys2Proof.Machine.execUpdateComponent kind len s
  | .firmwareData data flashOk => Sys2Proof.Machine.execFirmwareData data flashOk s
  | .activateFirmware selfContained => Sys2Proof.Machine.execActivateFirmware selfContained s
  | .getStatus => Sys2Proof.Machine.execGetStatus s
  | .cancelUpdateComponent => Sys2Proof.Machine.execCancelUpdateComponent s
  | .cancelUpdate => Sys2Proof.Machine.execCancelUpdate s
  | .start => Sys2Proof.Machine.execStart s
  | .abort => Sys2Proof.Machine.execAbort s
  | .stressPhaseEnd results groups => Sys2Proof.Machine.execStressPhaseEnd results groups s
  | .vin64AlwaysOnLoss => Sys2Proof.Machine.execVin64AlwaysOnLoss s
  | .perstNRelease => Sys2Proof.Machine.execPerstNRelease s
  | .configurationWrite func field => Sys2Proof.Machine.execConfigurationWrite func field s
  | .alwaysOnDomainFail => Sys2Proof.Machine.execAlwaysOnDomainFail s
  | .tapInstruction tapInst => Sys2Proof.Machine.execTapInstruction tapInst s
  | .i3cHdrEntry => Sys2Proof.Machine.execI3cHdrEntry s
  | .portLightReceived p => Sys2Proof.Machine.execPortLightReceived p s
  | .directoryWritten => Sys2Proof.Machine.execDirectoryWritten s
  | .checkpointWritten session => Sys2Proof.Machine.execCheckpointWritten session s

end Sys2Proof.Machine
end

