-- ==== Sys2Proof/Safety.lean ====
section
/-! DEFINITION. What counts as a safe outcome and a sound state, in the terms the statements use. -/
namespace Sys2Proof.Machine

/-- The step answered a next state: neither a fault nor a refusal. -/
def Completes (o : Out) : Prop := ∃ t, o = .next t

/-- The step answered a next state with the property. -/
def NextIs (o : Out) (P : State → Prop) : Prop := ∃ t, o = .next t ∧ P t

/-- A tick period that R31 allows. -/
def periodOk (n : Nat) : Prop := 5000 ≤ n ∧ n ≤ 50000

/-- A state the step keeps sound: device memory is in its canonical form, so that equal memories are equal data, and the
tick period, with the one accepted to follow it, lies within the bounds of R31. -/
def State.Sound (s : State) : Prop :=
  Memory.wf s.mem = true ∧ periodOk s.tick.period ∧ ∀ n, s.tick.periodNext = some n → periodOk n

/-- The oldest accepted command of deckle `d` is `c`, of that code, and `rest` follows it; the session table is in place,
not being reloaded. -/
abbrev State.Front (s : State) (d code : Nat) (c : Cmd) (rest : List Cmd) : Prop :=
  (s.deckle d).accepted = c :: rest ∧ eCode c.entry = code ∧ s.reloading (seqCode .sess) = false

/-- A completion record of command `c` with that status and code waits for publication on deckle `d`. -/
def State.Completed (s : State) (d : Nat) (c : Cmd) (status err : Nat) : Prop :=
  ∃ u ∈ (s.deckle d).units, u.req = c.id ∧ ∃ flags ended tokens commit,
    PubWrite.completion (eTag c.entry) (eSession c.entry) status flags (eCode c.entry) ended err tokens commit ∈ u.writes

/-- The event names operation `o` of step `t` with template `m`, which may end now: it has started, its deadline has not
passed, nothing it conflicts with is open, its tiles and pages are its deckle's, the web allows every access it makes, and
the hardware found no fault. -/
def State.Runs (s : State) (r : OpRef) (typ : OpType) (o : OpRec) (t : StepRec) (m : Template) : Prop :=
  s.opAt r.deckle.val r.seq = some o ∧ s.stepOf o.deckle o.step = some t ∧ o.tmpl = some m ∧ o.typ = typ ∧
  s.mayEnd o r.time = true ∧ s.foreignTile o = false ∧ s.foreignKv o = false ∧
  s.webAll o.deckle (s.accesses t m) = none ∧ r.fault = .none

/-- The scoreboard shows operation `o` as complete until publication. -/
def State.Done (s : State) (o : OpRec) : Prop := s.opAt o.deckle o.seq = some { o with state := .complete, retry := 0 }

/-- Every session but those of the list is as it was. -/
def State.SameSessionsBut (s t : State) (l : List Nat) : Prop := ∀ j, j ∉ l → t.session j = s.session j

/-- Every byte of device memory outside the ranges (first address, length) reads as it did. -/
def State.SameBytesOutside (s t : State) (l : List (Nat × Nat)) : Prop :=
  ∀ a, (∀ r ∈ l, a < r.1 ∨ r.1 + r.2 ≤ a) → t.byte a = s.byte a

/-! ### A tile as the ream manager writes it (R77, R80, R99, R112) -/

/-- The bit a cell should hold: what the stuck-bit map says of it, else the stored bit. -/
def Tile.bitAt (t : Tile) (r col : Nat) : Bool :=
  match t.stuck.find? (fun c => c.row == r && c.col == col) with
  | some c => c.wanted
  | none => (t.rows.getD r 0#272).getLsbD col

/-- Check code chk(r, g) of a row and check group. -/
def Tile.checkAt (t : Tile) (r g : Nat) : Nat := b2n (t.bitAt r (256 + 2 * g)) + 2 * b2n (t.bitAt r (257 + 2 * g))

/-- Sum of an integer over the 256 rows. -/
def overRows (f : Nat → Int) : Int := (List.range 256).foldl (fun a r => a + f r) 0

/-- The tile has 256 rows, SW and SC are the sums of its weights and check codes, each check code is its row's weights
modulo 3, and its stuck-bit map names each cell once and says what it holds. -/
def Tile.Sound (t : Tile) : Prop :=
  t.rows.length = 256 ∧ (∀ n < 64, t.sw.getD n 0 = overRows (fun r => t.weight r n)) ∧
  (∀ g < 8, ((nth t.sc g : Nat) : Int) = overRows (fun r => (t.checkAt r g : Nat))) ∧
  (∀ r < 256, ∀ g < 8, (t.checkAt r g : Int) % 3 = ((List.range 8).foldl (fun a k => a + t.weight r (8 * g + k)) 0) % 3) ∧
  (∀ c ∈ t.stuck, c.row < 256 ∧ c.col < 272 ∧ (t.rows.getD c.row 0#272).getLsbD c.col = c.held) ∧
  t.stuck.Pairwise (fun a b => a.row ≠ b.row ∨ a.col ≠ b.col)

end Sys2Proof.Machine
end

