-- ==== Sys2Proof/Certificates/Slice0/Obligations.lean ====
section
/-! DEFINITION. The statements about the module. Each docstring says in words what its proposition says; conditions speak of
the state and the operands alone, and a field that a statement does not name in `t = { s with … }` stays as it was. -/
open Sys2Proof Sys2Proof.Machine

/-! ### One step of the queue -/

/-- A step carries out the command at the front of the queue on the state with the queue's rest. -/
def Obligations.StepRunsFront : Prop := ∀ (c : Instr) (rest : List Instr) (s : State),
    step { s with pending := c :: rest } = exec c { s with pending := rest }

/-- Every step answers a next state and uses up exactly the command in front: no command of the table is refused, none stops
the module, and the commands behind stay as they stand. On an empty queue the block idles: the block's clock comes as
commands of the table, so idling in place of a tick is the model's choice (log entry 2). -/
def Obligations.IdleAndConsume : Prop :=
  (∀ s : State, s.pending = [] → step s = .next s) ∧
  (∀ s : State, NextIs (step s) (fun t => t.pending = s.pending.drop 1))

/-! ### Invariants -/

/-- Device memory keeps its one canonical form, so that equal memories are equal data, and the tick period stays within the
bounds of R31: every step keeps both. -/
def Obligations.SoundKept : Prop := ∀ s t : State, s.Sound → step s = .next t → t.Sound

/-- The state after reset has the invariant. -/
def Obligations.ResetSound : Prop := State.reset.Sound

/-- What a module reset leaves: the module is in BOOT at the directory stage with core power on, every register field at its
reset value, no deckle open, no session, no image in a slot, every vat OFF, no tick running, a tick period of 12,500
reference periods, and nothing issued into host memory. Where the spec leaves the reading open, it is the model's own (log
entry 1). -/
def Obligations.ResetState : Prop := let r := State.reset
  r.moduleState = 1 ∧ r.power.stage = 1 ∧ (∀ f c, r.reg f c = (fldInfo f).reset) ∧
  (∀ d, (r.deckle d).opened = false) ∧ (∀ i, (r.session i).state = .closed) ∧ (∀ k, r.currentOf k = none) ∧
  (∀ v, (r.vat v).state = .off) ∧ (∀ p, (r.port p).state = .down) ∧ r.tick.running = false ∧ r.tick.period = 12500 ∧
  r.host.posted = [] ∧ r.host.linkUp = false ∧ r.sec.unlocked = false ∧ r.pending = []

/-- Every error code is 16 bits: the class in [15:12], the page kind of the reporting block in [11:6], the block's own code
in [5:0]. -/
def Obligations.ErrorCodeFields : Prop := ∀ e : Err, (∀ k, e = .seqFault k → k < 64) →
    errCode e < 2 ^ 16 ∧ bits (errCode e) 15 12 = (errInfo e).cls ∧ bits (errCode e) 11 6 = (errInfo e).kind ∧
    bits (errCode e) 5 0 = (errInfo e).code

/-! ### Supplies, resets and trips -/

/-- Loss of VIN_64: core power goes and the module is OFF; the records of the always-on domain, the fuses and the flash stay
(R440). Below 40 V the always-on domain stops as well and its retained records are lost (R522). A pulse of at least 10 µs on
MOD_RESET_N resets the module: it starts at BOOT with nothing loaded, unless VIN_64 is missing, and the fuses, owner keys
and flash stay. A shorter pulse is ignored. -/
def Obligations.Resets : Prop :=
  (∀ s : State,
    NextIs (exec .vin64Loss s) (fun t => t.moduleState = 0 ∧ t.power.vinOk = false ∧ t.sessions = [] ∧ t.regs = [] ∧
      t.mem = [] ∧ t.slots = [] ∧ t.deckles = [] ∧ t.therm.lastShut = s.therm.lastShut ∧ t.errs.last16 = s.errs.last16 ∧
      t.errs.events = s.errs.events ∧ t.sec.owners = s.sec.owners ∧ t.upd.flash = s.upd.flash) ∧
    NextIs (exec .vin64AlwaysOnLoss s) (fun t => t.moduleState = 0 ∧ t.power.vinOk = false ∧ t.power.alwaysOn = false ∧
      t.power.i3cUp = false ∧ t.sessions = [] ∧ t.regs = [] ∧ t.mem = [] ∧ t.errs.events = [] ∧ t.errs.last16 = [] ∧
      t.therm.lastShut = (0, 0, 0) ∧ t.sec.owners = s.sec.owners ∧ t.upd.flash = s.upd.flash)) ∧
  (∀ (s : State) (sel clock : Bool),
    exec (.modResetN false sel clock) s = .next s ∧
    NextIs (exec (.modResetN true sel clock) s) (fun t =>
      t.moduleState = (if s.power.vinOk then 1 else 0) ∧ t.sessions = [] ∧ t.regs = [] ∧ t.mem = [] ∧ t.slots = [] ∧
      t.tick.running = false ∧ t.power.i3cAddr = 0 ∧ t.sec.owners = s.sec.owners ∧ t.sec.unlocked = false ∧
      t.upd.flash = s.upd.flash ∧ t.power.refExt = (sel && clock)))

/-- VIN_64 qualified brings a module in OFF to BOOT at the directory stage, and a module in another state stays there.
PERST_N released is remembered, and a test-access instruction that needs it low is BYPASS from then on. The always-on domain
samples REF_SEL as it leaves reset, and takes the crystal when REF_SEL asks for an external reference without a clock. After
a thermal shutdown, the release of THERMTRIP_N brings the module to BOOT; after another shutdown it changes nothing. -/
def Obligations.SupplyReturn : Prop :=
  (∀ (s : State) (sel clock : Bool),
    (s.power.phase = .off → s.power.alwaysOn = true → NextIs (exec .vin64Qualified s) (fun t =>
      t.moduleState = 1 ∧ t.power.stage = 1 ∧ t.power.vinOk = true ∧ t.power.thermTripN = false ∧ t.mem = s.mem ∧
      t.regs = s.regs ∧ t.sec = s.sec)) ∧
    (s.power.phase ≠ .off → exec .vin64Qualified s = .next { s with power := { s.power with vinOk := true } }) ∧
    NextIs (exec .perstNRelease s) (fun t => t.host = { s.host with perstN := true } ∧
      (s.power.tap = .extest ∨ s.power.tap = .clamp ∨ s.power.tap = .highz → t.power.tap = .bypass) ∧
      t = { s with host := t.host, power := { s.power with tap := t.power.tap } }) ∧
    NextIs (exec (.alwaysOnResetExit sel clock) s) (fun t => t.power.alwaysOn = true ∧ t.power.i3cUp = true ∧
      t.power.refExt = (sel && clock) ∧ t.power.refFell = (sel && !clock) ∧ t.power.phase = s.power.phase ∧
      t.mem = s.mem ∧ t.regs = s.regs ∧ t.sessions = s.sessions)) ∧
  (∀ s : State,
    (s.power.phase = .shutdown → s.power.shutCause = 1 ∨ s.power.shutCause = 2 → NextIs (exec .thermtripRelease s) (fun t =>
      t.moduleState = 1 ∧ t.power.stage = 1 ∧ t.power.thermTripN = false ∧ t.therm.lastShut = s.therm.lastShut ∧
      t.mem = s.mem)) ∧
    (s.power.shutCause ≠ 1 → s.power.shutCause ≠ 2 → exec .thermtripRelease s = .next s))

/-- Events that remove core power while it is on: a thermal trip, a power-stage fault, the loss of the reference, and a hub
hang without AUTO_RESET. The module is in SHUTDOWN, LAST_SHUT holds cause, index and tick, sessions and memory are gone;
only the thermal trip drives THERMTRIP_N. Without core power they change nothing. A converter clock that loses lock retires
its vat with cause 2, and of its operations none is left waiting to run there, unless an error counted against the same die
within 64 ticks raises it to the module; without core power nothing changes. -/
def Obligations.CorePowerRemoved : Prop :=
  (∀ (s : State) (model sel clock : Bool) (i : Fin 512),
    let down := fun (cause index : Nat) (t : State) => t.moduleState = 5 ∧ t.sessions = [] ∧ t.mem = [] ∧ t.regs = [] ∧
      t.tick.running = false ∧ t.power.shutCause = cause ∧ t.therm.lastShut = (cause, index, s.tick.now % 2 ^ 32)
    (s.coreOn = true →
      NextIs (exec (.thermTrip model i) s) (fun t => down (if model then 2 else 1) i.val t ∧ t.power.thermTripN = true) ∧
      NextIs (exec .pstageFault s) (fun t => down 4 0 t ∧ t.power.thermTripN = s.power.thermTripN) ∧
      NextIs (exec .refLost s) (fun t => down 3 0 t ∧ t.power.thermTripN = s.power.thermTripN) ∧
      (s.power.autoReset = false → NextIs (exec (.hubHang sel clock) s) (fun t => down 3 0 t)) ∧
      (s.power.autoReset = true → s.power.vinOk = true → NextIs (exec (.hubHang sel clock) s) (fun t =>
        t.moduleState = 1 ∧ t.power.stage = 1 ∧ t.sessions = [] ∧ t.mem = []))) ∧
    (s.coreOn = false → exec (.thermTrip model i) s = .next s ∧ exec .pstageFault s = .next s ∧ exec .refLost s = .next s ∧
      exec (.hubHang sel clock) s = .next s)) ∧
  (∀ (s : State) (v : Fin 64),
    (s.coreOn = true → s.counted (unitDie (dieOf v.val)) = false → (s.vat v.val).state ≠ .retired →
      NextIs (exec (.clkLock v) s) (fun t => (t.vat v.val).state = .retired ∧ (t.vat v.val).retCause = 2 ∧
        (∀ o ∈ t.sched.ops, o.unit = v.val → o.state = .waiting → o.reissue = true) ∧ t.power.phase = s.power.phase)) ∧
    (s.coreOn = true → s.counted (unitDie (dieOf v.val)) = true → (s.vat v.val).state ≠ .retired →
      NextIs (exec (.clkLock v) s) (fun t => t.moduleState = 5)) ∧
    (s.coreOn = false → exec (.clkLock v) s = .next s))

/-- The sideband and test-access commands: a failed always-on domain stops the I3C port and nothing else; the oldest event
goes to management; ENTDAA and SETDASA, the latter from static address 0x2D, assign the dynamic address; an HDR entry is
ignored; PWR_ON_BATT is remembered for the next boundary; EXTEST, CLAMP and HIGHZ decode only with PERST_N low and the tick
stopped, and the scan instructions only with debug scope SCAN. Where the spec leaves the reading open, it is the model's own
(log entry 39). -/
def Obligations.Sideband : Prop := ∀ (s : State) (a : Fin 128) (b : Bool) (c : Capture) (r : List Capture),
  exec .alwaysOnDomainFail s = .next { s with power := { s.power with i3cUp := false } } ∧
  exec .i3cHdrEntry s = .next s ∧
  exec (.pwrOnBatt b) s = .next { s with power := { s.power with battRaw := b } } ∧
  (s.i3cAnswers = true →
    exec (.entdaa a) s = .next { s with power := { s.power with i3cAddr := a.val } } ∧
    exec (.setdasa 0x2D a) s = .next { s with power := { s.power with i3cAddr := a.val } } ∧
    (∀ x : Fin 128, x ≠ 0x2D → exec (.setdasa x a) s = .next s) ∧
    (s.errs.events = c :: r →
      exec .managementEvent s = .next { s with errs := { s.errs with events := r, sent := s.errs.sent ++ [c] } })) ∧
  (s.power.alwaysOn = true →
    (∀ x, x = .extest ∨ x = .clamp ∨ x = .highz → exec (.tapInstruction x) s = .next { s with power := { s.power with
      tap := if s.host.perstN = false ∧ s.tick.running = false then x else .bypass } }) ∧
    exec (.tapInstruction .scan) s = .next { s with power := { s.power with
      tap := if s.sec.unlocked = true ∧ s.sec.scopeScan = true then .scan else .bypass } } ∧
    (∀ x, x = .bypass ∨ x = .idcode ∨ x = .samplePreload →
      exec (.tapInstruction x) s = .next { s with power := { s.power with tap := x } }))

/-! ### Boot (R467, R474, R530, R542 to R544) -/

/-- The directory stage: the valid copy with the higher sequence number is taken and the image stage follows; with no valid
copy the module stays in BOOT. The image stage: where the slot the directory names verifies for every kind and the seven
images are compatible, each of them is active, no directory is written, and the identity stage follows. The identity stage:
with entropy the authentic margin record with the higher sequence number, if any, becomes the seed and the PCIe stage
follows; without entropy the module stays where it is. The boot engine starts the controller, and the first DL_Active with
PERST_N high makes the module READY with the time it took in BOOT_MS; while PERST_N is low the link does not come up. Where
the spec leaves the reading open, it is the model's own (log entry 15). -/
def Obligations.BootStages : Prop :=
  (∀ (s : State) (c0 c1 : Bytes), s.power.phase = .boot → s.power.stage = 1 →
    (∀ a b, parseDirectory c0 = some a → parseDirectory c1 = some b →
      NextIs (exec (.bootDirectory c0 c1) s) (fun t => t.power.stage = 2 ∧ t.moduleState = 1 ∧
        t.upd.dirUse = (if a.seq < b.seq then b else a) ∧ t.upd.dirCopy = (if a.seq < b.seq then 1 else 0) ∧
        t.upd.dirs = [some a, some b])) ∧
    (∀ a, parseDirectory c0 = some a → parseDirectory c1 = none →
      NextIs (exec (.bootDirectory c0 c1) s) (fun t => t.power.stage = 2 ∧ t.upd.dirUse = a ∧ t.upd.dirCopy = 0)) ∧
    (∀ b, parseDirectory c0 = none → parseDirectory c1 = some b →
      NextIs (exec (.bootDirectory c0 c1) s) (fun t => t.power.stage = 2 ∧ t.upd.dirUse = b ∧ t.upd.dirCopy = 1)) ∧
    (parseDirectory c0 = none → parseDirectory c1 = none →
      NextIs (exec (.bootDirectory c0 c1) s) (fun t => t.power.stage = 1 ∧ t.moduleState = 1 ∧
        t.upd.dirUse = s.upd.dirUse))) ∧
  (∀ (s : State) (slots : List ImageIn) (img : Nat → ImgRec),
    s.power.phase = .boot → s.power.stage = 2 →
    (∀ k, 1 ≤ k → k ≤ 7 → s.slotImage slots k (s.upd.dirUse.slotOf k) = some (img k)) →
    (∀ j k, 1 ≤ j → j ≤ 7 → 1 ≤ k → k ≤ 7 → compatible (img j) (img k) = true) →
    NextIs (exec (.bootImages slots) s) (fun t => t.power.stage = 3 ∧ t.moduleState = 1 ∧
      (∀ k, 1 ≤ k → k ≤ 7 → t.activeImage k = img k) ∧ t.upd.dirUse = s.upd.dirUse ∧ t.upd.dirBusy = s.upd.dirBusy)) ∧
  (∀ (s : State) (r0 r1 : Bytes), s.power.phase = .boot → s.power.stage = 3 →
    NextIs (exec (.bootIdentity r0 r1 true) s) (fun t => t.power.stage = 4 ∧ t.moduleState = 1 ∧
      t.upd.seed = (if recordOk t.sec.recKey r0 then
          (if recordOk t.sec.recKey r1 then some (if recSeqOf r0 < recSeqOf r1 then r1 else r0) else some r0)
        else if recordOk t.sec.recKey r1 then some r1 else none)) ∧
    NextIs (exec (.bootIdentity r0 r1 false) s) (fun t => t.power.stage = 3 ∧ t.moduleState = 1 ∧ t.upd.seed = s.upd.seed)) ∧
  (∀ (s : State) (ms : Nat), s.power.phase = .boot →
    (s.power.stage = 4 → exec .hostPortStart s =
      .next { s with host := { s.host with started := true }, power := { s.power with stage := 5 } }) ∧
    (s.power.stage = 5 → s.host.perstN = true → s.tick.running = false → NextIs (exec (.linkTrained ms) s) (fun t =>
      t.moduleState = 2 ∧ t.power.stage = 6 ∧ t.power.bootMs = min ms 65535 ∧ t.host.linkUp = true ∧ t.mem = s.mem ∧
      t.regs = s.regs)) ∧
    (s.power.stage = 5 → s.host.perstN = false → exec (.linkTrained ms) s = .next s))

/-! ### The host port (R392, R394, R405, R408, R410) -/

/-- Host link events. A link loss takes down the link, every function's configuration and every VF, and a running tick
stops: after its phase 5, or at once between ticks; PERST_N asserted is remembered. When the link is up again nothing
restarts by itself. The IDE streams end, which is the model's own reading (log entry 132). Sessions, images, registers and
device memory stay. -/
def Obligations.HostLink : Prop := ∀ (s : State) (perst : Bool), s.power.phase = .up → s.host.started = true →
  NextIs (exec (.hostLinkDown perst) s) (fun t => t.host.linkUp = false ∧ t.host.vfs = 0 ∧ (∀ n, t.func n = {}) ∧
    t.host.perstN = (s.host.perstN && !perst) ∧ t.host.ideLink = (false, false) ∧ t.host.ideSel = (false, false) ∧
    (s.tick.running = true → s.tick.inTick = true → t.tick = { s.tick with stopReq := true }) ∧
    (s.tick.running = true → s.tick.inTick = false →
      t.tick = { s.tick with running := false, stopReq := false, starting := false }) ∧
    t = { s with host := t.host, tick := t.tick, errs := t.errs }) ∧
  (s.host.perstN = true → exec .hostLinkUp s = .next { s with host := { s.host with linkUp := true } })

/-- The IDE stream in use leaves the Secure state. While IDE_REQ is 1 no function may issue a request from then on, and a
running tick stops: after its phase 5, or at once between ticks. With IDE_REQ 0 only the streams change. -/
def Obligations.StreamLost : Prop := ∀ s : State,
  (s.host.ideLink.2 = true ∨ s.host.ideSel.2 = true → s.reg .ideReq = 1 →
    NextIs (exec .ideFail s) (fun t => t.host.stopIssue = true ∧ t.host.ideLink = (s.host.ideLink.1, false) ∧
      t.host.ideSel = (s.host.ideSel.1, false) ∧ (∀ fn, t.mayIssue fn = false) ∧
      (s.tick.running = true → s.tick.inTick = true → t.tick = { s.tick with stopReq := true }) ∧
      (s.tick.running = true → s.tick.inTick = false →
        t.tick = { s.tick with running := false, stopReq := false, starting := false }) ∧
      t = { s with host := t.host, tick := t.tick, errs := t.errs })) ∧
  (s.reg .ideReq = 0 → exec .ideFail s = .next { s with host := { s.host with
    ideLink := (s.host.ideLink.1, false), ideSel := (s.host.ideSel.1, false) } })

/-- Commands to one function that is enabled. Configuration writes set its Bus Master Enable, MSI-X Enable and Function
Mask, and on the PF the number of enabled VFs, of which those that end leave no registers. A VF enters and leaves D3hot at
any time, the PF enters it only while the tick is stopped. A function-level reset of a VF returns its own registers to reset
and leaves its deckle's part to the next boundary; one of the PF does so for every function and deckle, and a running tick
stops. Nothing else changes. -/
def Obligations.FunctionControl : Prop := ∀ (s : State) (fn n : Fin 17) (v : Fin 16) (b entropy : Bool),
  s.host.started = true → s.host.linkUp = true →
  (fn.val ≤ s.host.vfs →
    exec (.configurationWrite fn (.busMaster b)) s = .next (s.modFunc fn.val (fun f => { f with busMaster := b })) ∧
    exec (.configurationWrite fn (.msixEnable b)) s = .next (s.modFunc fn.val (fun f => { f with msixEn := b })) ∧
    exec (.configurationWrite fn (.functionMask b)) s = .next (s.modFunc fn.val (fun f => { f with msixMask := b })) ∧
    (fn.val ≠ 0 → exec (.d3hot fn b) s = .next (s.modFunc fn.val (fun f => { f with d3 := b })))) ∧
  NextIs (exec (.configurationWrite 0 (.vfEnable n)) s) (fun t => t.host.vfs = n.val ∧
    (∀ m, t.func m = if m ≤ n.val then s.func m else {}) ∧ t = { s with host := t.host }) ∧
  (s.tick.running = false → exec (.d3hot 0 true) s = .next (s.modFunc 0 (fun f => { f with d3 := true }))) ∧
  (s.tick.running = true → exec (.d3hot 0 true) s = .next s) ∧
  exec (.d3hot 0 false) s = .next (s.modFunc 0 (fun f => { f with d3 := false })) ∧
  (v.val < s.host.vfs → NextIs (exec (.flrVf v entropy) s) (fun t => t.func (v.val + 1) = {} ∧
    (t.deckle v.val).flrDue = some entropy ∧ (∀ m, m ≠ v.val + 1 → t.func m = s.func m) ∧
    (∀ d, d ≠ v.val → t.deckle d = s.deckle d) ∧ t = { s with host := t.host, deckles := t.deckles })) ∧
  NextIs (exec (.flrPf entropy) s) (fun t => (∀ m, t.func m = {}) ∧ t.host.vfs = 0 ∧
    (∀ d : Fin 16, t.deckle d.val = { s.deckle d.val with flrDue := some entropy }) ∧
    (s.tick.running = true → s.tick.inTick = true → t.tick = { s.tick with stopReq := true }) ∧
    (s.tick.running = true → s.tick.inTick = false →
      t.tick = { s.tick with running := false, stopReq := false, starting := false }) ∧
    t = { s with host := t.host, deckles := t.deckles, tick := t.tick })

/-! ### The tick (R31, R32, R46, R47) -/

/-- RUN set: with the module up, the host's interface level equal to HUBCFG's and IDE not demanded, the tick starts, a
module with JOIN set waits for an aligned strobe instead, and a set in a tick that was to stop takes the stop back. RUN is
refused, with its error recorded on the HUB page and no effect on the tick, when the interface levels differ or when IDE is
demanded and no stream is Secure. RUN cleared: within a tick the tick goes on to its phase 5 and then stops; between ticks
it stops at once. A module that waits to join waits no longer. TICK_PERIOD is accepted from 5,000 to 50,000 while no vat is
in RUN and no image in a slot that is done loading has a plan that needs a longer period, and is in force from the next
boundary; outside the bounds nothing but the error registers and the host port changes; while a vat is in RUN the write only
sets WRITE_WHILE_RUNNING. Where the spec leaves the reading open, it is the model's own (log entry 83). -/
def Obligations.TickRun : Prop :=
  (∀ s : State, s.power.phase = .up → s.reg .hostIfl = s.activeIfLevel →
    s.reg .ideReq = 0 →
    (s.tick.running = false → s.reg .join = 0 → NextIs (exec .tickRunSet s) (fun t =>
      t.tick = { s.tick with running := true, starting := true, stopReq := false } ∧ t.moduleState = (if s.vats.any
        (fun x => x.2.state == VatState.retired) then 4 else 3) ∧ t.mem = s.mem ∧ t.sessions = s.sessions ∧
      t.regs = s.regs)) ∧
    (s.tick.running = false → s.reg .join = 1 → NextIs (exec .tickRunSet s) (fun t =>
      t.tick = s.tick ∧ t.torus.waiting = true ∧ t.mem = s.mem ∧ t.sessions = s.sessions ∧ t.regs = s.regs)) ∧
    (s.tick.running = true → exec .tickRunSet s = .next { s with tick := { s.tick with stopReq := false } })) ∧
  (∀ s : State, s.power.phase = .up →
    (s.reg .hostIfl ≠ s.activeIfLevel → exec .tickRunSet s = .next (s.corrected .hubIflMismatch 0 none) ∧
      (s.corrected .hubIflMismatch 0 none).tick = s.tick) ∧
    (s.reg .hostIfl = s.activeIfLevel → s.reg .ideReq = 1 → s.host.ideLink.2 = false → s.host.ideSel.2 = false →
      exec .tickRunSet s = .next (s.corrected .ideFail 0 none) ∧ (s.corrected .ideFail 0 none).tick = s.tick)) ∧
  (∀ s : State,
    NextIs (exec .tickRunClear s) (fun t => t.torus.waiting = false ∧ t.mem = s.mem ∧ t.sessions = s.sessions ∧
      t.regs = s.regs ∧ t.deckles = s.deckles ∧
      (s.tick.running = true → s.tick.inTick = true → t.tick = { s.tick with stopReq := true }) ∧
      (s.tick.running = true → s.tick.inTick = false →
        t.tick = { s.tick with running := false, stopReq := false, starting := false }))) ∧
  (∀ (s : State) (n : Nat),
    ((∀ v : Fin 64, (s.vat v.val).state ≠ .run) →
      ((∀ k : Fin 16, ∀ m ∈ (s.slot k.val).images, m.state ≠ .loading → ∀ p, m.plan = some p → p.minPeriod ≤ n) →
        5000 ≤ n → n ≤ 50000 →
        exec (.tickPeriod n) s = .next { s with tick := { s.tick with periodNext := some n } }) ∧
      (n < 5000 ∨ 50000 < n → NextIs (exec (.tickPeriod n) s) (fun t => t = { s with errs := t.errs, host := t.host }))) ∧
    ((∃ v : Fin 64, (s.vat v.val).state = .run) → NextIs (exec (.tickPeriod n) s) (fun t =>
      (t.pageRegs (pageIndex 2 0)).wwr = true ∧ t = { s with errs := t.errs })))

/-! ### The phases of a tick (R33 to R39, R137, R141, R199, R452) -/

/-- TICK_BOUNDARY advances the tick number, the first tick ever keeping the number it starts with, and carries out the
actions of R34 in their order for as long as core power stays on; SELF_STROBE carries out those that do not need a tick.
Without a running tick that has ended, or while one runs, they change nothing. Where the spec leaves the reading open, it is
the model's own (log entries 80 and 83). -/
def Obligations.BoundaryActions : Prop := ∀ (s : State) (inp : StrobeIn) (rings : List RingIn),
  let t := { s with tick := s.tick.begin }
  let both := [State.commitAll, State.takeBatt, State.debugUnlock, State.handOver, State.raiseInjected, State.updPause]
  (s.coreOn = true → s.tick.running = true → s.tick.inTick = false →
    t.tick.now = (if s.tick.starting = true ∧ s.tick.started = false then s.tick.now else s.tick.now + 1) ∧
    t.tick.inTick = true ∧ t.tick.stage = .started ∧
    exec (.tickBoundary inp rings) s = .next (runActions ([fun s => (s.takeTelem 0 inp).ageStrobe, State.calTurns] ++ both ++
      [State.deckleBoundary, State.enterGroups, State.takePeriod, State.planBoundary,
       fun s => s.applyMembership s.tick.now, State.vatBoundary, State.reloadsEnd,
       State.stressCheck, State.beginRecord, State.sweepContexts, State.sendTimes, State.preemptAll, State.latchPorts,
       State.stepEffect, fun s => { s with therm := { s.therm with fast := s.therm.fastNext } }, State.latchPower,
       State.stopSessions, State.settleSwaps, State.slotEffects, State.slotBoundary, State.correctStep, State.showGroups,
       fun s => s.fetchAll rings]) t)) ∧
  (s.coreOn = true → s.tick.running = false → exec (.selfStrobe inp) s = .next (runActions
    ([fun s => s.takeTelem 0 inp] ++ both ++ [State.slotEffects, State.slotBoundary, State.deckleBoundary,
       State.enterGroups, State.evalSelf, State.stressCheck, State.beginRecord, State.showGroups]) s)) ∧
  (s.coreOn = false ∨ s.tick.running = false ∨ s.tick.inTick = true → exec (.tickBoundary inp rings) s = .next s) ∧
  (s.coreOn = false ∨ s.tick.running = true → exec (.selfStrobe inp) s = .next s)

/-- The phases that follow the boundary come in their order, each once. The evaluation either trips the module into SHUTDOWN
or leaves core power on: P_EST has one value more, and fast rate is selected for the next tick at 97 °C or above, by an
intermediate strobe that saw it, with more than 8 diodes excluded or with FORCE_FAST set; while the THERM tables reload it
only selects fast rate. The allocation phase with no deckle open sets the cap of the tick and of each deckle, and groups
with a second watermark mismatch go to RECAL. The publication phase ends the tick: no stop stays requested and the tick
stops if one was, no completed operation keeps a scoreboard entry, no staged byte is left, and the session windows show the
descriptors as they stand. In another phase each changes nothing. Where the spec leaves the reading open, it is the model's
own (log entries 42 and 73). -/
def Obligations.PhasesComplete : Prop := ∀ s : State,
  (s.tick.stage = .started → s.coreOn = true →
    (s.reloading (seqCode .therm) = false → NextIs (exec .evaluationPhase s) (fun t => t.moduleState = 5 ∨
      (t.coreOn = true ∧ t.tick = { s.tick with stage := .evaluated } ∧ t.therm.pCnt = s.therm.pCnt + 1 ∧
        t.therm.fastNext = (decide (degrees 2192 ≤ t.therm.hi) || s.therm.hotMid || t.therm.degraded ||
          s.reg .forceFast == 1) ∧
        t.therm.hotMid = false ∧
        t = { s with therm := t.therm, tick := t.tick, torus := t.torus, errs := t.errs, host := t.host }))) ∧
    (s.reloading (seqCode .therm) = true → s.torus.member = 0 → exec .evaluationPhase s = .next { s with
      tick := { s.tick with stage := .evaluated }, therm := { s.therm with fastNext := true } })) ∧
  (s.tick.stage ≠ .started → exec .evaluationPhase s = .next s) ∧
  (s.tick.stage = .evaluated → (∀ d : Fin 16, (s.deckle d.val).opened = false) →
    NextIs (exec .allocationPhase s) (fun t =>
      t.tick = { s.tick with stage := .execution } ∧ t.sched = { s.sched with capNow := s.capTotal } ∧
      (∀ d : Fin 16, t.deckle d.val = { s.deckle d.val with capLeft := s.deckCap d.val }) ∧
      (∀ x ∈ s.groupList, (s.group x.1 x.2).recalNext = true → (t.group x.1 x.2).state = .recal) ∧
      t = { s with tick := t.tick, sched := t.sched, deckles := t.deckles, groups := t.groups })) ∧
  (s.tick.stage ≠ .evaluated → exec .allocationPhase s = .next s) ∧
  (s.tick.stage = .execution → s.coreOn = true → (∀ o ∈ s.sched.ops, o.state = .waiting → o.reissue = true) →
    NextIs (exec .publicationPhase s) (fun t =>
      t.tick = { s.tick with inTick := false, stage := .outside, stopReq := false
                             running := s.tick.running && !s.tick.stopReq } ∧
      t.sessShown = t.sessions ∧ (∀ o ∈ t.sched.ops, o.state ≠ .complete) ∧ t.sched.staged = [] ∧ t.power = s.power)) ∧
  (s.tick.stage ≠ .execution → exec .publicationPhase s = .next s)

/-- An intermediate strobe acts at fast rate, in the execution phase of a tick or while no tick runs; strobe 0 is the
boundary's. Its evaluation at or above 97 °C selects fast rate for the rest of the interval; while the THERM tables reload
the strobe only stores, for each analogue channel it gives, the corrected value with its strobe and tick. Where the spec
leaves the reading open, it is the model's own (log entries 42 and 47). -/
def Obligations.IntermediateStrobes : Prop := ∀ (s : State) (k : Fin 8) (inp : StrobeIn),
  (k = 0 ∨ s.midStrobes = false → exec (.intermediateStrobe k inp) s = .next s) ∧
  (k ≠ 0 → s.therm.fast = true → s.tick.stage = .execution ∨ s.tick.running = false →
    (s.coreOn = true → s.reloading (seqCode .therm) = false → NextIs (exec (.intermediateStrobe k inp) s) (fun t =>
      t.moduleState = 5 ∨ (t.coreOn = true ∧ t.therm.pCnt = s.therm.pCnt + 1 ∧
        t.therm.hotMid = (s.therm.hotMid || decide (degrees 2192 ≤ t.therm.hi)) ∧
        t = { s with therm := t.therm, errs := t.errs, host := t.host }))) ∧
    (s.reloading (seqCode .therm) = true → NextIs (exec (.intermediateStrobe k inp) s) (fun t =>
      t = { s with therm := { s.therm with telem := t.therm.telem } } ∧
      (∀ c, c < 194 → c < inp.raw.length → get {} t.therm.telem c =
        (let x := get {} s.therm.tconv (s.therm.convOf c)
         let cal := (s.activeImage 4).cal
         { valid := true, strobe := k.val, tick := s.tick.now % 65536
           value := correctTelem (nth inp.raw c % 4096) x.tofs x.tgain (get 0 cal.chOfs c) (get 0 cal.chGain c) })) ∧
      (∀ c, 194 ≤ c ∨ inp.raw.length ≤ c → get {} t.therm.telem c = get {} s.therm.telem c))))

/-! ### Operations of the scoreboard (R42, R43, R49, R220, R231 to R234, R243, R367, R460) -/

/-- Each of the eight template types completes with the state its work gives when it may end, fails with the report its work
gives, and is left alone at a time at which it may not end. The work is the model's own function of each type. Where the
spec leaves the reading open, it is the model's own (log entry 74). -/
def Obligations.OperationsComplete : Prop := ∀ (s u : State) (r : OpRef) (o : OpRec) (t : StepRec) (m : Template)
    (fs : List CodeFault) (sm : List (Nat × Nat)) (peer : PeerIn) (rep : Report) (named : List Nat),
  let ends := fun (c : Instr) (typ : OpType) (w : Except (Report × List Nat) State) => s.Runs r typ o t m →
    (w = .ok u → exec c s = .next (u.endOp o r.time)) ∧
    (w = .error (rep, named) → exec c s = .next (s.failOp o rep named r.time))
  ends (.tileMvm r fs sm) .tileMvm (passWork fs sm s o t m) ∧
  ends (.residual r ⟨fs, sm⟩) .residual (passWork fs sm s o t m) ∧
  ends (.sizing r) .sizing (eachVec (State.sizeVec o t m) (tmplVecs t m) s) ∧
  ends (.attnBlock r) .attnBlock (attnWork s o t m) ∧
  ends (.vector r) .vector (eachVec (State.vectorVec o t m) (tmplVecs t m) s) ∧
  ends (.kvAppend r) .kvAppend (eachVec (State.appendVec o t m) (tmplVecs t m) s) ∧
  ends (.sample r) .sample
    (eachVec (State.sampleVec o m (((s.stepImage t).map (fun i => i.vocab)).getD 0)) (tmplVecs t m) s) ∧
  (s.Runs r .exchange o t m →
    (exchWork r.fault peer s o t m = .ok u → o.cross = false →
      exec (.exchange r peer) s = .next (u.finishExchange peer.tokens o r.time)) ∧
    (exchWork r.fault peer s o t m = .error (rep, named) → exec (.exchange r peer) s = .next (s.failOp o rep named r.time))) ∧
  (s.opAt r.deckle.val r.seq = some o → s.stepOf o.deckle o.step = some t → o.tmpl = some m → s.mayEnd o r.time = false →
    ∀ c ∈ [Instr.tileMvm r fs sm, .residual r ⟨fs, sm⟩, .sizing r, .attnBlock r, .vector r, .kvAppend r, .sample r,
      .exchange r peer, .ctxSave r, .ctxRestore r], exec c s = .next s)

/-- CTX_SAVE and CTX_RESTORE complete when they may end. A save leaves its entry COMPLETE and the step one operation
shorter, and changes device memory alone. A restore whose record has both checksums right and the step's own generation
writes only the accumulator tiles of its vat that the step's names are bound to, and leaves its entry COMPLETE; one whose
checksums fail fails with CTX_CRC and names the step's requests. Where the spec leaves the reading open, it is the model's
own (log entries 75 and 118). -/
def Obligations.ContextOperations : Prop := ∀ (s : State) (r : OpRef) (o : OpRec) (t : StepRec),
  s.opAt r.deckle.val r.seq = some o → s.stepOf o.deckle o.step = some t → s.mayEnd o r.time = true →
  s.foreignTile o = false → r.fault = .none →
  let pages := (s.session (t.sessions.headD 0)).ctxPages
  (o.typ = .ctxSave → NextIs (exec (.ctxSave r) s) (fun v => v.Done o ∧
    v.stepOf o.deckle o.step = some { t with open_ops := t.open_ops - 1 } ∧
    v = { s with sched := v.sched, deckles := v.deckles, mem := v.mem })) ∧
  (o.typ = .ctxRestore → s.ctxGood pages t.savedNames.length = true → field (s.readPaged pages 0 64) 0x10 8 = t.gen →
    t.deckle = o.deckle → 1 < t.open_ops → NextIs (exec (.ctxRestore r) s) (fun v => v.Done o ∧
      s.SameBytesOutside v ((t.bind.filter (fun b => b.2.1 == o.unit)).map (fun b => (s.accAddr b.2.1 b.2.2, 4096))) ∧
      v = { s with sessions := v.sessions, owners := v.owners, pageOut := v.pageOut, errs := v.errs, host := v.host,
                   mem := v.mem, sched := v.sched, deckles := v.deckles })) ∧
  (o.typ = .ctxRestore → s.ctxGood pages t.savedNames.length = false →
    exec (.ctxRestore r) s = .next (s.failOp o (vatReport .ctxCrc o.unit) t.live r.time))

/-- What completion does to the scoreboard: the entry is COMPLETE with RETRY 0 until publication, the names the template
releases are free, the step has one open operation less, and nothing but the scoreboard and the deckle's step changes while
the segment has others open. An overrun below its limit counts, discards the operation's staging and leaves it for a later
tick; at the limit the requests of its step end with their KV invalid. One whose peer waits for the conversion cap is
withdrawn without counting. -/
def Obligations.CompletionAndOverrun : Prop :=
  (∀ (s : State) (o : OpRec) (t : StepRec) (time : Nat),
    s.opAt o.deckle o.seq = some o → s.stepOf o.deckle o.step = some t → t.deckle = o.deckle → 1 < t.open_ops →
    let v := s.endOp o time
    v.Done o ∧ v.stepOf o.deckle o.step = some { t with
      open_ops := t.open_ops - 1
      bind := t.bind.filter (fun b => !((o.tmpl.map (fun m => m.release)).getD []).contains b.1) } ∧
    v = { s with sched := v.sched, deckles := v.deckles }) ∧
  (∀ (s : State) (d : Fin 16) (seq : Nat) (o : OpRec),
    s.opAt d.val seq = some o → o.state = .waiting → o.reissue = false → s.tick.stage = .execution →
    let limit := if o.cross then 8 else 4
    (o.peerWaits = true → NextIs (exec (.overrun d seq) s) (fun t =>
      t.opAt d.val seq = some (o.again s.tick.now) ∧ t = { s with sched := t.sched })) ∧
    (o.peerWaits = false → s.opBar o none = none → o.retry + 1 < limit → NextIs (exec (.overrun d seq) s) (fun t =>
      t.opAt d.val seq = some { o.again s.tick.now with retry := o.retry + 1 } ∧
      (t.deckle d.val).overruns = satAdd 32 (s.deckle d.val).overruns 1 ∧
      (o.unit < 64 → (t.vat o.unit).overruns = satAdd 32 (s.vat o.unit).overruns 1 ∧
        t.tick.overruns = satAdd 32 s.tick.overruns 1) ∧
      t = { s with sched := t.sched, tick := t.tick, vats := t.vats, deckles := t.deckles })) ∧
    (o.peerWaits = false → s.opBar o none = none → limit ≤ o.retry + 1 → s.counted (unitHub 0x0B) = false →
      NextIs (exec (.overrun d seq) s) (fun t =>
        (∀ i ∈ s.opSessions o, (s.session i).state ≠ .closed → (t.session i).kvInvalid = true) ∧
        t = { s with sched := t.sched, tick := t.tick, vats := t.vats, deckles := t.deckles, sessions := t.sessions,
                     errs := t.errs, host := t.host, rejects := t.rejects })))

/-- The two ends of a cross-module exchange that both windows allow. When this end's work is done it waits for the other
end, or completes with it. The other end's completion message by the deadline ends an exchange that is done here, and is
remembered for one that is not; a message that the transfer is foreign there fails it; one after the deadline changes
nothing. A message that the peer waits for its conversion cap marks the exchange and no other operation. -/
def Obligations.CrossExchange : Prop := ∀ (s : State) (d : Fin 16) (seq time : Nat) (o : OpRec) (foreign : Bool),
  s.opAt d.val seq = some o → o.cross = true →
  (o.state = .waiting → o.reissue = false → s.tick.stage = .execution → time ≤ o.deadline →
    (o.localDone = true → exec (.exchangeCompletion d seq ⟨time, false⟩) s = .next (s.finishExchange [] o time)) ∧
    (o.localDone = false → NextIs (exec (.exchangeCompletion d seq ⟨time, false⟩) s) (fun t =>
      t.opAt d.val seq = some { o with peerDone := true } ∧ t = { s with sched := t.sched })) ∧
    exec (.exchangeCompletion d seq ⟨time, true⟩) s = .next (s.failOp o { err := .xferForeign } (s.opSessions o) time)) ∧
  (o.deadline < time → exec (.exchangeCompletion d seq ⟨time, foreign⟩) s = .next s) ∧
  NextIs (exec (.capWaitSignal d seq) s) (fun t => t.opAt d.val seq = some { o with peerWaits := true } ∧
    (∀ e n, e ≠ d.val ∨ n ≠ seq → t.opAt e n = s.opAt e n) ∧ t = { s with sched := t.sched }) ∧
  (∀ (r : OpRef) (t : StepRec) (m : Template) (u : State) (peer : PeerIn), r.deckle = d → r.seq = seq →
    s.Runs r .exchange o t m → exchWork r.fault peer s o t m = .ok u →
    (peer.done = false → o.peerDone = false →
      exec (.exchange r peer) s = .next (u.modOp o.deckle o.seq (fun x => { x with localDone := true }))) ∧
    (peer.done = true ∨ o.peerDone = true → exec (.exchange r peer) s = .next (u.finishExchange peer.tokens o r.time)))

/-! ### What operations compute -/

/-- A VECTOR operation on one vector, whose segment has others open, writes its bytes at its place in the STAGE region of
its vat and of each vat it is broadcast to; every other byte of device memory stays. ATTN_BLOCK and SAMPLE change no byte of
device memory, and while their segment has others open they end no request: a SAMPLE only adds its choices to the step, an
ATTN_BLOCK its partials, and counts of its vat and stack. Where the spec leaves the reading open, it is the model's own (log
entries 11 and 77). -/
def Obligations.StoresOfOperations : Prop :=
  (∀ (s : State) (r : OpRef) (o : OpRec) (t : StepRec) (m : Template) (x : VecAt)
      (b : Bytes), s.Runs r .vector o t m → t.deckle = o.deckle → 1 < t.open_ops → tmplVecs t m = [x] →
    s.vectorBytes t m x = some b → m.bcast = [] →
    NextIs (exec (.vector r) s) (fun u => u.readMem (s.dstAt m x.v) b.length = b ∧
      s.SameBytesOutside u [(s.dstAt m x.v, b.length)] ∧ u.Done o ∧
      u = { s with sched := u.sched, deckles := u.deckles, mem := u.mem })) ∧
  (∀ (s : State) (r : OpRef) (o : OpRec) (t : StepRec) (m : Template),
    t.deckle = o.deckle → 1 < t.open_ops →
    (s.Runs r .attnBlock o t m → NextIs (exec (.attnBlock r) s) (fun u => u.Done o ∧
      u = { s with sched := u.sched, deckles := u.deckles, vats := u.vats, memStat := u.memStat } ∧
      (∀ v, v ≠ o.unit → u.vat v = s.vat v) ∧
      (∀ d, d ≠ o.deckle → u.deckle d = s.deckle d))) ∧
    (s.Runs r .sample o t m → (m.head = 0 → ∀ x ∈ tmplVecs t m, (s.floatsAt (s.srcAt m x.v)
        (((s.stepImage t).map (fun i => i.vocab)).getD 0)).all f32Finite = true) →
      NextIs (exec (.sample r) s) (fun u => u.Done o ∧
        u = { s with sched := u.sched, deckles := u.deckles } ∧ (∀ d, d ≠ o.deckle → u.deckle d = s.deckle d))))

/-- SIZING, KV_APPEND and a copy on one vector, whose segment has others open, complete. SIZING with sound bursts and finite
low-rank terms writes the merged pairs of its outputs and, in the last SIZING of its elements, their 256 bytes each in the
STAGE region, and no other byte. KV_APPEND of finite values leaves WRITTEN_LEN of the session's region past the position. A
copy inside the module writes the bytes of its source at its target. Nothing else changes but the entry, the step and the
counters of the vat and the stacks. Where the spec leaves the reading open, it is the model's own (log entries 6 and 76). -/
def Obligations.MergesAppendsCopies : Prop := ∀ (s : State) (r : OpRef) (o : OpRec) (t : StepRec) (m : Template) (x : VecAt)
    (peer : PeerIn), t.deckle = o.deckle → 1 < t.open_ops → tmplVecs t m = [x] →
  (s.Runs r .sizing o t m →
    (∀ p, m.last = true → s.pairFor t m.layer m.matrix x.sess = some p →
      (∀ b ∈ s.rankBursts m x.v, burstBad b.1 = false ∧ ∀ y, b.2 = some y → burstBad y = false) ∧
      (lowRankT p (s.rankBursts m x.v)).all bf16Finite = true) →
    NextIs (exec (.sizing r) s) (fun u => u.Done o ∧
      (∀ a, (∀ k base, s.pairsAddr t (m.accWr.getD k 0xFFFF) x.v = some base → a < base ∨ base + 512 ≤ a) →
        (m.last = true → ∀ j, j < m.nBlocks.length → a < s.dstAt m x.v + 256 * j ∨ s.dstAt m x.v + 256 * j + 256 ≤ a) →
        u.byte a = s.byte a) ∧
      u = { s with mem := u.mem, vats := u.vats, sched := u.sched, deckles := u.deckles })) ∧
  (s.Runs r .kvAppend o t m →
    (∀ j, j < m.heads.length → (s.floatsAt (s.srcAt m x.v + 512 * j) 128).all f32Finite = true ∧
      (s.floatsAt (s.src2At m x.v + 512 * j) 128).all f32Finite = true) →
    (s.session x.sess).ring = false ∨ ((s.session x.sess).firstPos ≤ x.pos ∧ x.pos < (s.session x.sess).chunkEnd) →
    NextIs (exec (.kvAppend r) s) (fun u => u.Done o ∧
      (x.pos + 1 < 2 ^ 32 → x.pos + 1 ≤ u.readNum ((s.session x.sess).base + 0x28) 4) ∧
      u = { s with mem := u.mem, memStat := u.memStat, kvSat := u.kvSat, sched := u.sched, deckles := u.deckles })) ∧
  (s.Runs r .exchange o t m → o.cross = false → m.exch = .copy → NextIs (exec (.exchange r peer) s) (fun u =>
    (let to_ := m.dst + x.v * m.dstStride
     u.readMem to_ m.count = s.readMem (m.src + x.v * m.srcStride) m.count ∧ s.SameBytesOutside u [(to_, m.count)]) ∧
    u.opAt o.deckle o.seq = some { o with state := .complete, retry := 0 } ∧
    u = { s with mem := u.mem, sched := u.sched, deckles := u.deckles }))

/-- A TILE_MVM or RESIDUAL whose bursts are as R69 asks, and whose tile records its deckle may read, completes, whatever
codes its converters misread: it writes only the 64 pairs of each vector in the accumulator tiles it names, changes no
session, and completes its entry while others are open. -/
def Obligations.TilePassStores : Prop := ∀ (s : State) (r : OpRef) (o : OpRec) (t : StepRec) (m : Template)
    (fs : List CodeFault) (sm : List (Nat × Nat)) (z : OpType × Instr),
  z ∈ [(OpType.tileMvm, Instr.tileMvm r fs sm), (.residual, .residual r ⟨fs, sm⟩)] →
  s.Runs r z.1 o t m → t.deckle = o.deckle → 1 < t.open_ops →
  (∀ p ∈ s.passesOf t m, burstBad p.burst = false ∧ ∀ im k, s.stepImage t = some im →
    im.recordPage p.tile.index = some k → s.webCheck o.deckle (k * 65536) 1 false = .ok) →
  NextIs (exec z.2 s) (fun u => u.Done o ∧
    (∀ a, (∀ k v base, s.pairsAddr t (m.accWr.getD k 0xFFFF) v = some base → a < base ∨ base + 512 ≤ a) →
      u.byte a = s.byte a) ∧
    u = { s with mem := u.mem, vats := u.vats, groups := u.groups, deckles := u.deckles, sched := u.sched,
                 errs := u.errs, host := u.host })

/-! ### One tile pass (R97, R100 to R103, R112) -/

/-- Errors of the converters are contained in one tile pass. With right codes a sound tile fails no check and D is the exact
product Σ x(r) w(r, n), stuck cells or not. Whatever the codes of some columns are, a neuron of another check group, or of a
group that was repaired, has its exact result; and one code of a driven plane that is wrong by 1 or 2 is always repaired. -/
def Obligations.PassContained : Prop := ∀ (split : Bool) (cor : Corr) (t : Tile) (codes : List Nat) (fs : List CodeFault),
  t.Sound → codes.length = 256 → (∀ c ∈ codes, c < 16) →
  let o := assemble split cor t codes fs t.weight
  (fs = [] → o.fixed = [] ∧ o.tooHigh = []) ∧
  (∀ n < 64, (∀ f ∈ fs, colGroup f.col ≠ n / 8) ∨ n / 8 ∈ o.fixed → o.d.getD n 0 = goldenD codes t.weight n) ∧
  (∀ f, fs = [f] → f.col < 272 → f.plane < 4 → f.half < (if split then 2 else 1) → activeRows codes f.plane ≠ 0 →
    let exact := if split then colCount t codes f.col f.plane (128 * f.half) (128 * f.half + 128)
      else colCount t codes f.col f.plane 0 256
    let code := readCode cor fs f.col f.plane f.half exact
    code ≠ exact → code ≤ exact + 2 → exact ≤ code + 2 →
    colGroup f.col ∈ o.fixed ∧ ∀ n < 64, o.d.getD n 0 = goldenD codes t.weight n)

/-- Two attention partials m, l, o merge as R252 says: the larger maximum, and both sums and the 128 outputs added after
scaling each side by the exponential of its distance to that maximum, in single precision. -/
def Obligations.AttentionMerge : Prop := ∀ a b : List F32, a.length = 130 → b.length = 130 →
  let at_ := fun (x : List F32) (j : Nat) => x.getD j f32Zero
  let m := f32Max (at_ a 0) (at_ b 0)
  let fa := exp2u (f32Sub (at_ a 0) m)
  let fb := exp2u (f32Sub (at_ b 0) m)
  (amerge a b).length = 130 ∧ at_ (amerge a b) 0 = m ∧
  ∀ j, 1 ≤ j → j < 130 → at_ (amerge a b) j = f32Add (f32Mul (at_ a j) fa) (f32Mul (at_ b j) fb)

/-- The choice of a group's plan: in the order of PLAN_ORDER, the first plan at or above 0.33 LSB; without one, the earliest
of those with the largest low when it meets 0.30 LSB; without that the group retires. -/
def Obligations.PlanChoice : Prop := ∀ (s : State) (order : List Nat) (m : Nat → Option Nat) (i q c : Nat),
  s.planOrder = (if s.reg .planOrder = 0 then [0, 2, 1, 3, 4, 6] else [0, 1, 4, 2, 3, 6]) ∧
  (order[i]? = some q → m q = some c →
    (66 ≤ c → (∀ j p e, j < i → order[j]? = some p → m p = some e → e < 66) → choosePlan order m = some q) ∧
    (60 ≤ c → (∀ p e, p ∈ order → m p = some e → e < 66 ∧ e ≤ c) →
      (∀ j p e, j < i → order[j]? = some p → m p = some e → e < c) → choosePlan order m = some q)) ∧
  ((∀ p e, p ∈ order → m p = some e → e < 60) → choosePlan order m = none) ∧
  (∀ (v : Fin 64) (p : Nat) (r : Replan), p < 1536 → (s.group v.val p).replan = some r → r.left.drop 1 = [] →
    (s.group v.val p).logical = 0x7FF → (s.group v.val p).state ≠ .retired →
    choosePlan s.planOrder (fun x => ((r.lows ++ (r.low.map (fun c => (nth r.left 0, c))).toList).find?
      (fun y => y.1 == x)).map (fun y => y.2)) = none →
    NextIs (exec (.replanCandidateEnd v p) s) (fun t => (t.group v.val p).state = .retired ∧
      t = { s with groups := t.groups, errs := t.errs, host := t.host }))

/-! ### Session commands (R284 to R293, R509 to R512) -/

/-- PREFILL and GENERATE that nothing bars, on a session with free request slots: GENERATE becomes the active request with
its token count and its ring's credit; PREFILL becomes active over the pending token and the given ones, and one that has
nothing to write but its only token leaves it pending and completes DONE. Nothing changes but the session and the deckle.
Where the spec leaves the reading open, it is the model's own (log entry 10). -/
def Obligations.WorkStarts : Prop := ∀ (s : State) (d : Fin 16) (c : Cmd) (rest : List Cmd) (m : Image) (b : Bytes),
  let i := eSession c.entry
  let x := s.session i
  let frame := fun t : State => s.SameSessionsBut t [i] ∧ (t.deckle d.val).accepted = rest ∧
    t = { s with sessions := t.sessions, deckles := t.deckles }
  s.deckOf i = d.val → x.active = none → x.waiting = none → x.swapping ≠ some .outPause → x.kvInvalid = false →
  x.commitDue = 0 → s.currentOf x.model = some m → (s.slot x.model).unplaced = false →
  (s.Front d.val 3 c rest → x.state = .decode ∨ x.state = .swapped → s.generateBad i c.entry = false →
    x.hasPending = true → x.commitLen < x.maxLen → NextIs (exec (.generate d) s) (fun t =>
      t.session i = { x with active := some { kind := .generate, cmd := c, remain := gMaxTokens c.entry
                                              credit := 2 ^ gRingLog2 c.entry } } ∧ frame t)) ∧
  (s.Front d.val 2 c rest → x.state = .opened ∨ x.state = .decode ∨ x.state = .swapped → 0 < pCount c.entry →
    (∀ w ∈ words32 (pCount c.entry) b, w < m.vocab) → x.commitLen + pCount c.entry ≤ x.maxLen →
    let toks := (if x.hasPending then [x.pendingTok] else []) ++ words32 (pCount c.entry) b
    (1 < toks.length → NextIs (exec (.prefill d (.data b)) s) (fun t =>
      t.session i = { x with state := if x.state == .swapped then .swapped else .prefill
                             active := some { kind := .prefill, cmd := c, tokens := toks, remain := toks.length - 1
                                              logged := x.commitLen + b2n x.hasPending } } ∧ frame t)) ∧
    (toks.length ≤ 1 → NextIs (exec (.prefill d (.data b)) s) (fun t =>
      t.session i = { x with state := if x.state == .swapped then .swapped else .decode
                             hasPending := true, pendingTok := nth toks 0 } ∧ t.Completed d.val c 1 0 ∧ frame t))) ∧
  exec (.prefill d .late) s = .next s

/-- PAUSE, RESUME, CANCEL, CHECKPOINT, CLOSE and SET_QUIRE where the session allows them: each leaves its mark in the
descriptor for the boundary or allocation phase that carries it out; CANCEL and SET_QUIRE complete DONE at once. A command
other than OPEN that names a CLOSED session completes REJECTED with SESS_STATE and counts on the SESS page; no session
changes. Where the deckle has no accepted command the command's row changes nothing. Where the spec leaves the reading open,
it is the model's own (log entries 10 and 17). -/
def Obligations.SessionCommands : Prop := ∀ (s : State) (d : Fin 16) (c : Cmd) (rest : List Cmd) (b : Bytes),
  let i := eSession c.entry
  let x := s.session i
  let gives := fun (cmd : Instr) (done : Bool) (y : Session) => NextIs (exec cmd s) (fun t => t.session i = y ∧
    (done = true → t.Completed d.val c 1 0) ∧ s.SameSessionsBut t [i] ∧ (t.deckle d.val).accepted = rest ∧
    t = { s with sessions := t.sessions, deckles := t.deckles })
  (x.state ≠ .closed → (x.state = .paused → x.ttl ≠ 0) →
    (s.Front d.val 4 c rest → x.state = .opened ∨ x.state = .decode ∨ x.state = .swapped → x.pausePending = none →
      (∀ r, x.active = some r → r.kind ≠ .pause) → x.ring = false →
      gives (.pause d) false { x with pausePending := some c, cancelAt := s.tick.now + 1 }) ∧
    (s.Front d.val 5 c rest → x.state = .paused → x.kvInvalid = false → x.resumeReq = none →
      gives (.resume d) false { x with resumeReq := some c }) ∧
    (s.Front d.val 6 c rest → x.state ≠ .paused → x.cancelPending = false →
      (∃ r ∈ x.cancellable, cancelTag c.entry = 0 ∨ eTag r.cmd.entry = cancelTag c.entry) →
      gives (.cancel d) true { x with cancelPending := true, cancelAt := s.tick.now + 1 }) ∧
    (s.Front d.val 7 c rest → x.kvInvalid = false → x.waiting = none →
      gives (.checkpoint d) false { x with waiting := some { kind := .checkpoint, cmd := c } }) ∧
    (s.Front d.val 8 c rest →
      gives (.close d) false { x with closePending := x.closePending ++ [c], cancelAt := s.tick.now + 1 }) ∧
    (s.Front d.val 9 c rest → x.kvInvalid = false → s.quireBound d.val x.model (sqQuire c.entry) (s.nextGen i) = true →
      gives (.setQuire d) true { x with quire := sqQuire c.entry })) ∧
  (∀ (code : Nat) (cmd : Instr),
    (code, cmd) ∈ [(2, Instr.prefill d (.data b)), (3, .generate d), (4, .pause d), (5, .resume d), (6, .cancel d),
      (7, .checkpoint d), (8, .close d), (9, .setQuire d)] →
    (s.Front d.val code c rest → x.state = .closed → NextIs (exec cmd s) (fun t =>
      t.Completed d.val c 6 (errCode .sessState) ∧ t.sessions = s.sessions ∧ t.rejects = satAdd 32 s.rejects 1 ∧
      (t.deckle d.val).accepted = rest ∧
      t = { s with deckles := t.deckles, errs := t.errs, host := t.host, rejects := t.rejects })) ∧
    ((s.deckle d.val).accepted = [] → exec cmd s = .next s))

/-- OPEN of a fresh session with room in its quota: the session is OPENED with the command's fields, resident at a run of
free pages that its deckle owns from then on, whose first 256 bytes are the region header; the command completes DONE and
nothing else in device memory changes. Where the spec leaves the reading open, it is the model's own (log entries 6, 10). -/
def Obligations.OpenCompletes : Prop := ∀ (s : State) (d : Fin 16) (c : Cmd) (rest : List Cmd) (m : Image) (st k : Nat)
    (rd : HostRead),
  let i := eSession c.entry
  let o := openOfEntry c.entry
  let n := localLen o.maxLen o.chunk (oMember c.entry)
  let pages := regionPages m.layers m.kvHeads n (o.fmt == 1)
  s.Front d.val 1 c rest → s.reloading (seqCode .kv) = false → s.session i = {} → get {} (s.deckle d.val).snaps i = {} →
  oCkptAddr c.entry = 0 →
  s.deckOf i = d.val → s.openBar d.val c.entry o = none → s.currentOf (oModel c.entry) = some m → n ≤ 1048576 →
  pages ≤ stackPages → s.kvUsed d.val + pages ≤ s.reg .kvQuota d.val → s.regionStack d.val pages = some st →
  s.gapIn st pages = some k →
  NextIs (exec (.openSession d rd rd) s) (fun t =>
    (let x := t.session i
     x.state = .opened ∧ x.resident = true ∧ x.kvAddr = k * 65536 ∧ x.regPages = k ∧ x.kvPages = pages ∧
     x.regStack = st ∧ x.commitLen = 0 ∧ x.maxLen = oMaxLen c.entry ∧ x.model = oModel c.entry ∧
     x.seed = oSeed c.entry ∧ x.priority = oPriority c.entry ∧ x.quire = oQuire c.entry ∧ x.active = none ∧
     x.hasPending = false ∧ x.openReq = none) ∧
    (∀ p, k ≤ p → p < k + pages → t.owner p = ownDeckle d.val) ∧
    (∀ p, p < k ∨ k + pages ≤ p → t.owner p = s.owner p) ∧
    t.readMem (k * 65536) 256 = regionHeader d.val i (firstPosOf o.chunk (oMember c.entry)) m o.fmt n pages ∧
    s.SameBytesOutside t [(k * 65536, 256)] ∧ t.Completed d.val c 1 0 ∧ s.SameSessionsBut t [i] ∧
    t = { s with sessions := t.sessions, deckles := t.deckles, owners := t.owners, free := t.free, mem := t.mem })

/-- The ends of swaps, pauses and checkpoints: a swap-out whose directory was read back is done; a swap-in whose image opens
restores the pages and sets WRITTEN_LEN to COMMIT_LEN, and one whose image does not open leaves the session's KV invalid; a
run-out pause completes TTL_EXPIRED and closes the session; a checkpoint writes its history and then its header, and
completes DONE when the writes have finished. -/
def Obligations.SwapsAndCheckpoints : Prop := ∀ (s : State) (i : Nat) (d : Fin 16) (r : Request) (b : Bytes)
    (slots : List HostRead) (bs : List Bytes) (ps : List (Nat × Bytes)),
  let x := s.session i
  (x.swapping = some .outPressure ∨ x.swapping = some .outPause → x.swapLeft = 0 →
    NextIs (exec (.swapOutComplete i (.data b)) s) (fun t => t.session i = { x with
      swapDone := true, image := x.image.map (fun m => { m with counters := [], tags := [] }) } ∧
      s.SameSessionsBut t [i] ∧ t = { s with sessions := t.sessions })) ∧
  exec (.swapOutComplete i .late) s = .next s ∧
  (x.swapping = some .swapIn → x.swapLeft = 0 → x.swapDone = false → readAll slots = some (some bs) →
    (s.openImage i bs = some ps → NextIs (exec (.swapInComplete i slots) s) (fun t =>
      t.session i = { x with swapDone := true } ∧ t.readNum (x.base + 0x28) 4 = x.commitLen % 2 ^ 32 ∧
      s.SameBytesOutside t ((x.base + 0x28, 4) :: ps.map (fun p => (x.pageAddr p.1, p.2.length))) ∧
      s.SameSessionsBut t [i] ∧ t = { s with sessions := t.sessions, mem := t.mem })) ∧
    (s.openImage i bs = none → s.counted (unitHub 0x0D) = false → x.state ≠ .closed →
      NextIs (exec (.swapInComplete i slots) s) (fun t => (t.session i).kvInvalid = true ∧
        (t.session i).resident = false ∧
        t = { s with sessions := t.sessions, owners := t.owners, pageOut := t.pageOut, deckles := t.deckles,
                     sched := t.sched, errs := t.errs, host := t.host, rejects := t.rejects }))) ∧
  (x.state = .paused → x.ttl = 0 → x.resumeReq = none → x.active = some r → x.resident = false → x.swapping = none →
    NextIs (exec (.ttlExpired i) s) (fun t => t.session i = {} ∧ t.Completed (s.deckOf i) r.cmd 5 0 ∧
      s.SameSessionsBut t [i] ∧ t = { s with sessions := t.sessions, deckles := t.deckles, sched := t.sched })) ∧
  (x.state ≠ .paused ∨ x.ttl ≠ 0 → exec (.ttlExpired i) s = .next s) ∧
  (x.waiting = some r → r.kind = .checkpoint → x.swapping = none →
    (r.ending = false → s.ownerOf i = some d.val → s.inStep i = false → s.mayIssue (s.fnOf d.val) = true → x.commitDue = 0 →
      cpSnapshot r.cmd.entry = false →
      x.isTail = true → 256 + 4 * (x.commitLen + b2n x.hasPending) ≤ cpSize r.cmd.entry →
      let hist := slice b 0 (4 * (x.commitLen + b2n x.hasPending))
      NextIs (exec (.checkpointWrite d i (.data b)) s) (fun t =>
        t.host.posted = s.host.posted ++ [{ fn := s.fnOf d.val, addr := cpAddr r.cmd.entry + 0x100, data := hist, relaxed := true },
          { fn := s.fnOf d.val, addr := cpAddr r.cmd.entry, data := s.ckptHeader i 0 hist, relaxed := true }] ∧
        t.session i = { x with waiting := some { r with ending := true } } ∧ s.SameSessionsBut t [i] ∧
        t = { s with sessions := t.sessions, host := t.host })) ∧
    (r.ending = true → NextIs (exec (.checkpointWritten i) s) (fun t =>
      t.session i = { x with waiting := none } ∧ t.Completed (s.deckOf i) r.cmd 1 0 ∧ s.SameSessionsBut t [i] ∧
      t = { s with sessions := t.sessions, deckles := t.deckles })))

/-- A failed read of host memory: sixteen ticks in a row of failed ring reads clear SQ_EN; a failed prompt rejects its
PREFILL with HOST_READ; a failed descriptor, owner command or debug token takes nothing with it but its error. Where the
spec leaves the reading open, it is the model's own (log entry 82). -/
def Obligations.FailedReads : Prop := ∀ (s : State) (d : Fin 16) (c : Cmd) (rest : List Cmd),
  ((s.deckle d.val).sqFails + 1 < 16 → exec (.hostReadFail (.ring d)) s =
    .next (s.modDeckle d.val (fun k => { k with sqFails := k.sqFails + 1 }))) ∧
  (16 ≤ (s.deckle d.val).sqFails + 1 → NextIs (exec (.hostReadFail (.ring d)) s) (fun t => t.reg .sqEn d.val = 0 ∧
    (t.deckle d.val).sqFails = 0 ∧ (∀ f k, k < 2 ^ 24 → f ≠ .sqEn ∨ k ≠ d.val → t.reg f k = s.reg f k) ∧
    t = { s with regs := t.regs, deckles := t.deckles, errs := t.errs, host := t.host })) ∧
  (s.Front d.val 2 c rest → (s.session (eSession c.entry)).state ≠ .paused →
    NextIs (exec (.hostReadFail (.prompt d (eSession c.entry))) s) (fun t =>
      t.Completed d.val c 6 (errCode .deckHostRead) ∧ t.sessions = s.sessions ∧ (t.deckle d.val).accepted = rest ∧
      t = { s with deckles := t.deckles, rejects := t.rejects })) ∧
  (∀ w ∈ [ReadKind.reamDesc, .token, .quireDesc d], NextIs (exec (.hostReadFail w) s) (fun t =>
    t = { s with errs := t.errs, host := t.host })) ∧
  NextIs (exec (.hostReadFail .owner) s) (fun t => t.sec = { s.sec with lastCmd := 2 } ∧
    t = { s with sec := t.sec, errs := t.errs, host := t.host })

/-! ### Reams and quires (R315 to R345, R546, R603) -/

/-- The ream operations that only begin at their descriptor: LOAD and COUCH_RECV open an incoming image in LOADING, SWITCH
of a READY image and UNLOAD wait for the next boundary. Only their slot changes. An operation on a slot whose switch or
unload is under way is refused with SLOT_BUSY, a LOAD or COUCH_RECV below the slot's generation with GEN_ORDER, a SWITCH
without a READY image with REAM_FORMAT: the status record waits with the code, and nothing but the error registers and the
host port changes. A descriptor still being read changes nothing. Where the spec leaves the reading open, it is the model's
own (log entries 18, 19 and 123). -/
def Obligations.ReamOperationsStart : Prop := ∀ (s : State) (b : Bytes) (m : Image) (o : SlotOp),
  let k := dSlot b
  let x := s.slot k
  let starts := fun (c : Instr) (y : Slot) => NextIs (exec c s) (fun t => t.slot k = y ∧
    (∀ j, j ≠ k → t.slot j = s.slot j) ∧ t = { s with slots := t.slots })
  let refuses := fun (c : Instr) (e : Err) => NextIs (exec c s) (fun t =>
    (s.tick.inTick = true → (dStatus b, s.statusRecord b 0 (errCode e)) ∈ t.host.pfRecs) ∧
    t = { s with errs := t.errs, host := t.host })
  let opened : Image := { state := .loading, gen := dGen b, member := dMember b, mask := dDeckles b }
  let calm := x.current = none ∨ s.tick.running = false ∨ s.refused18 = false
  (s.reloading (seqCode .ream) = false → k ≤ 15 →
    (s.slotBusy k = false → x.incoming = none → x.current = none ∨ x.retiring = none → x.lastGen ≤ dGen b →
      (dOp b = 1 → dChainAddr b = 0 → dSource b = 0 → dChainLen b = 0 → s.spaceFor (dLen b) = true →
        starts (.load (.data b) .late) { x with
          incoming := some opened, op := some { op := 1, desc := b, begun := true }, lastGen := dGen b + 1 }) ∧
      (dOp b = 6 → dInPort b ≤ 5 →
        starts (.couchRecv (.data b)) { x with incoming := some opened, op := some { op := 6, desc := b } })) ∧
    (s.slotBusy k = false → dOp b = 2 → calm → x.incoming = some m → m.state = .ready →
      starts (.switch (.data b)) { x with op := some { op := 2, desc := b, due := some s.tick.now } }) ∧
    (s.slotBusy k = false → dOp b = 4 →
      starts (.unload (.data b)) { x with op := some { op := 4, desc := b, due := some s.tick.now } }) ∧
    (x.op = some o → o.op ≠ 1 → o.op ≠ 6 → ∀ z : Nat × Instr, z ∈ [(1, Instr.load (.data b) .late), (2, .switch (.data b)),
      (3, .discard (.data b)), (4, .unload (.data b)), (5, .stuckExport (.data b)), (6, .couchRecv (.data b))] →
      dOp b = z.1 → refuses z.2 .slotBusy) ∧
    (s.slotBusy k = false → x.incoming = none → x.current = none → dGen b < x.lastGen →
      (dOp b = 1 → refuses (.load (.data b) .late) .genOrder) ∧ (dOp b = 6 → refuses (.couchRecv (.data b)) .genOrder)) ∧
    (s.slotBusy k = false → calm → x.incoming = none → dOp b = 2 → refuses (.switch (.data b)) .reamFormat)) ∧
  (∀ c ∈ [Instr.load .late .late, .couchRecv .late, .switch .late, .unload .late, .discard .late, .stuckExport .late],
    exec c s = .next s)

/-- A load whose bytes have all come and whose checks hold becomes READY, its slot otherwise as it was; one that fails its
final checks leaves the slot without an incoming image and its pages free. DISCARD of a READY image frees its pages.
STUCK_EXPORT posts the stuck-bit map and clears the NEW marks of the slot's tiles. Where the spec leaves the reading open,
it is the model's own (log entries 21, 22 and 28). -/
def Obligations.ReamOperationsEnd : Prop := ∀ (s : State) (k : Fin 16) (b : Bytes) (o : SlotOp) (m : Image) (e : Err),
  let x := s.slot k.val
  let others := fun (t : State) => ∀ j, j ≠ k.val → t.slot j = s.slot j
  s.reloading (seqCode .ream) = false →
  (x.op = some o → o.op = 1 ∨ o.op = 6 → o.begun = true → o.chain = [] → x.incoming = some m → m.sections ≠ [] →
    (∀ z ∈ m.sections, (z.len = 0 → z.digest = sha384 []) ∧ (z.len ≠ 0 → m.secDone.contains z.typ = true)) →
    m.tilesIn = m.tileCnt → (∀ d : Fin 16, (get {} (s.deckle d.val).qops k.val).held_ = []) →
    (s.finalCheck k.val m [dExpect o.desc, o.expect] = none → NextIs (exec (.reamImageData k .done) s) (fun t =>
      t.slot k.val = { x with op := none, incoming := some { m with state := .ready, wout := [] } } ∧ others t ∧
      t = { s with slots := t.slots, errs := t.errs, host := t.host })) ∧
    (s.finalCheck k.val m [dExpect o.desc, o.expect] = some e → NextIs (exec (.reamImageData k .done) s) (fun t =>
      t.slot k.val = { x with op := none, incoming := none } ∧ (∀ p ∈ m.pages, t.owner p = 0) ∧ others t ∧
      t = { s with slots := t.slots, owners := t.owners, pageOut := t.pageOut, errs := t.errs, host := t.host }))) ∧
  (k.val = dSlot b → x.op = none → x.incoming = some m → dOp b = 3 → NextIs (exec (.discard (.data b)) s) (fun t =>
    t.slot k.val = { x with incoming := none } ∧ (∀ p ∈ m.pages, t.owner p = 0) ∧
    (∀ p, p ∉ m.pages → t.owner p = s.owner p) ∧ others t ∧
    t = { s with slots := t.slots, owners := t.owners, pageOut := t.pageOut, errs := t.errs, host := t.host })) ∧
  (k.val = dSlot b → s.slotBusy k.val = false → s.mayIssue 0 = true → dOp b = 5 → s.tick.inTick = true →
    NextIs (exec (.stuckExport (.data b)) s) (fun t =>
      (∃ d, t.host.posted = s.host.posted ++ [{ fn := 0, addr := dAddr b, data := d, relaxed := false }] ∧
        d.length ≤ dLen b ∧ (dStatus b, s.statusRecord b d.length 0) ∈ t.host.pfRecs) ∧
      (∀ g ∈ s.slotGroups k.val, ∀ z ∈ (t.group g.1 g.2).tiles, ∀ c ∈ z.2.stuck, c.fresh = false) ∧
      t = { s with groups := t.groups, errs := t.errs, host := t.host }))

/-- QLOAD starts on a free slot of its deckle; QUNLOAD of an index no session selects removes the deckle's images of it and
frees their pages; an index in use stays, and the record says QUIRE_IN_USE. Where the spec leaves the reading open, it is
the model's own (log entry 25). -/
def Obligations.QuireOperations : Prop := ∀ (s : State) (d : Fin 16) (b : Bytes),
  let k := dSlot b
  let used := (s.sessionsOf d.val).any (fun i => ((s.session i).state != .closed || (s.session i).openReq.isSome) &&
    (s.session i).model == k && (s.session i).quire == dDeckles b)
  let gone := fun q : Quire => q.deckle == d.val && q.slot == k && q.index == dDeckles b
  (s.reloading (seqCode .ream) = false → k ≤ 15 → dDeckles b ≤ 1023 → s.quireBusy k = false →
  (dOp b = 0x11 → NextIs (exec (.qload d (.data b)) s) (fun t =>
    get {} (t.deckle d.val).qops k = { op := 0x11, fn := d.val + 1, desc := b } ∧ t = { s with deckles := t.deckles })) ∧
  (dOp b = 0x12 → used = false → NextIs (exec (.qunload d (.data b)) s) (fun t =>
    t.quires = s.quires.filter (fun q => !gone q) ∧ (∀ q ∈ s.quires, gone q = true → ∀ p ∈ q.pages, t.owner p = 0) ∧
    (∃ u ∈ (t.deckle d.val).units, u.writes = [.quireStatus (dStatus b) (s.statusRecord b 0 0)]) ∧
    t = { s with quires := t.quires, owners := t.owners, pageOut := t.pageOut, deckles := t.deckles, errs := t.errs,
                 host := t.host })) ∧
  (dOp b = 0x12 → used = true → NextIs (exec (.qunload d (.data b)) s) (fun t => t.quires = s.quires ∧
    (∃ u ∈ (t.deckle d.val).units, u.writes = [.quireStatus (dStatus b) (s.statusRecord b 0 (errCode .quireInUse))]) ∧
    t = { s with deckles := t.deckles, errs := t.errs, host := t.host }))) ∧
  exec (.qload d .late) s = .next s ∧ exec (.qunload d .late) s = .next s

/-- Writes of the arrays that end: a rewrite serves from the next boundary, at once while no tick runs; a spare that took a
retired group's weights is ready for service with the stuck cells its read-back found, and retires at a 65th in one tile; a
vat in RETIRED or SERVICE hands its one group over to the best spare of the first receiving vat; the requests of a deckle
still pinned when its drain limit runs out are ended. Where the spec leaves the reading open, it is the model's own (log
entry 27). -/
def Obligations.ArrayWrites : Prop := ∀ (s : State) (k d : Fin 16) (v : Fin 64) (p w q : Nat) (stuck : List StuckIn)
    (m : Image),
  let x := s.slot k.val
  let g := s.group v.val p
  (x.current = some m → x.rewriting = true → NextIs (exec (.rewriteComplete k []) s) (fun t =>
    (t.slot k.val).rewriting = false ∧ (t.slot k.val).op = none ∧ (t.slot k.val).current = some m ∧
    (s.tick.running = true → (t.slot k.val).rewriteEnd = true ∧ (t.slot k.val).retiring = x.retiring) ∧
    (s.tick.running = false → (t.slot k.val).rewriteEnd = false ∧ (t.slot k.val).retiring = none) ∧
    (∀ j, j ≠ k.val → t.slot j = s.slot j) ∧ t = { s with slots := t.slots, groups := t.groups, vats := t.vats,
                                                           owners := t.owners, pageOut := t.pageOut, errs := t.errs, host := t.host })) ∧
  (x.rewriting = false → exec (.rewriteComplete k []) s = .next s) ∧
  (p < 1536 → g.rewriting = true → (∀ c ∈ stuck, c.col < 272) →
    ((∀ z ∈ g.tiles, (stuckCells z.2 (stuck.filter (fun c => c.tile == z.1))).length ≤ 64) → g.state ≠ .retired →
      NextIs (exec (.spareRewriteDone v p stuck) s) (fun t =>
        t.group v.val p = { g with
          rewriting := false, readyNext := some .inService
          tiles := g.tiles.map (fun z => (z.1, z.2.withStuck (stuckCells z.2 (stuck.filter (fun c => c.tile == z.1))))) } ∧
        (∀ u n, n < 1536 → u ≠ v.val ∨ n ≠ p → t.group u n = s.group u n) ∧ t = { s with groups := t.groups })) ∧
    ((∃ z ∈ g.tiles, 64 < (stuckCells z.2 (stuck.filter (fun c => c.tile == z.1))).length) → g.logical = 0x7FF →
      NextIs (exec (.spareRewriteDone v p stuck) s) (fun t => (t.group v.val p).state = .retired ∧
        (g.state ≠ .retired → (t.group v.val p).retCause = 1) ∧
        t = { s with groups := t.groups, errs := t.errs, host := t.host }))) ∧
  (g.rewriting = false → exec (.spareRewriteDone v p stuck) s = .next s) ∧
  (p < 1536 → q < 1536 → (s.vat v.val).state = .retired ∨ (s.vat v.val).state = .service → x.current = some m →
    m.turnover = false → s.toMove v.val k.val = [p] → (∀ j, j ≠ k.val → (s.slot j).current = none) →
    (s.receivers v.val).find? (fun u => decide (16 < (s.spares u).length)) = some w → s.pickSpare w = some q →
    NextIs (exec (.vatReplace v) s) (fun t => (let h := t.group w q
      h.state = .recal ∧ h.rewriting = true ∧ h.logical = g.logical ∧ h.modelSlot = k.val ∧
      h.tiles = freshTiles g.tiles) ∧ (t.slot k.val).moving = true ∧ t = { s with groups := t.groups, slots := t.slots })) ∧
  ((s.vat v.val).state ≠ .retired → (s.vat v.val).state ≠ .service → (s.vat v.val).state ≠ .run →
    exec (.vatReplace v) s = .next s) ∧
  (x.drained.contains d.val = true → x.switchTick + s.reg .drainLimit d.val ≤ s.tick.now →
    NextIs (exec (.drainLimitExpiry k d) s) (fun t => d.val ∉ (t.slot k.val).drained ∧
      (∀ i ∈ s.slotSessions k.val, s.ownerOf i = some d.val → (t.session i).drains = false) ∧
      t = { s with slots := t.slots, sessions := t.sessions, deckles := t.deckles, sched := t.sched, errs := t.errs,
                   host := t.host, rejects := t.rejects })) ∧
  (x.drained.contains d.val = false → exec (.drainLimitExpiry k d) s = .next s)

/-! ### Calibration, re-planning and the margin record (R127, R129, R148, R153 to R176, R548, R572, R573) -/

/-- Re-planning starts every group of the vats asked for that may be planned, a candidate below 0.33 LSB gives way to the
next, and the last one or one that reaches 0.33 LSB settles the plan for the next boundary. Where the spec leaves the
reading open, it is the model's own (log entry 52). -/
def Obligations.Replanning : Prop := ∀ (s : State) (v : Fin 64) (all : Bool) (p q : Nat) (r : Replan),
  (let started := fun (t : State) (f : Nat → Bool) => ∀ w n : Nat, n < 1536 → t.group w n =
      if w < 64 ∧ f w = true ∧ s.vatPlans w = true ∧ (s.group w n).replan = none ∧
        ((s.group w n).state = .inService ∨ (s.group w n).state = .spare)
      then { s.group w n with replan := some { left := s.planOrder }, slowAt := (s.vat w).slowPpm } else s.group w n
   NextIs (exec (.replanReq all v) s) (fun t => started t (fun w => all || w == v.val) ∧ t = { s with groups := t.groups }) ∧
   NextIs (exec .periodicReplan s) (fun t => started t (fun _ => true) ∧ t = { s with groups := t.groups })) ∧
  (p < 1536 → (s.group v.val p).replan = some r →
    let lows := r.lows ++ (r.low.map (fun c => (nth r.left 0, c))).toList
    let g := s.group v.val p
    ((∀ c, r.low = some c → c < 66) → r.left.drop 1 ≠ [] → exec (.replanCandidateEnd v p) s = .next
      (s.modGroup v.val p (fun g => { g with replan := some { left := r.left.drop 1, lows := lows } }))) ∧
    ((∃ c, r.low = some c ∧ 66 ≤ c) ∨ r.left.drop 1 = [] →
      choosePlan s.planOrder (fun x => (lows.find? (fun y => y.1 == x)).map (fun y => y.2)) = some q →
      NextIs (exec (.replanCandidateEnd v p) s) (fun t => t.group v.val p =
        { g with replan := none, replanCnt := satAdd 8 g.replanCnt 1, planNext := some q } ∧
        (∀ w n, n < 1536 → w ≠ v.val ∨ n ≠ p → t.group w n = s.group w n) ∧ t = { s with groups := t.groups }))) ∧
  ((s.group v.val p).replan = none → exec (.replanCandidateEnd v p) s = .next s)

/-- Margin calibration. The head of a vat's fall-back queue goes to RECAL with its whole bank in CAL; a fall-back whose
converters are all accepted, and whose blocks give a plan that meets the floor, ends with that plan and the group's return
due at the next boundary, and one with a converter not accepted retires the group with cause 2. A block under the serving
plan counts into the window's margins, and one below the floor takes the group to RECAL and into the fall-back queue; a
complete window's minimum and histogram become the last ones. In the tick that handed CAL over, the image before gives the
patterns. Where the spec leaves the reading open, it is the model's own
(log entries 50, 51 and 100). -/
def Obligations.MarginCalibration : Prop := ∀ (s : State) (v : Fin 64) (p : Nat) (b : BlockIn) (convs : List ConvIn)
    (bs : List BlockIn) (low : Nat),
  let g := s.group v.val p
  let cal := s.passCal
  p < 1536 →
  (s.reloading (seqCode .cal) = false → s.falling v.val = none → s.tick.stage = .execution → s.vatPlans v.val = true →
    (s.vat v.val).refReady = true → s.fallHead v.val = some p → NextIs (exec (.fallbackStart v) s) (fun t =>
      (t.group v.val p).state = .recal ∧ (t.group v.val p).inFall = true ∧
      (∀ j, j < 9 → ((t.group v.val p).conv j).state = .cal) ∧ t = { s with groups := t.groups })) ∧
  (s.falling v.val = some p → g.readyNext = none →
    let r := g.bankConvs (fun i => convs.getD i [])
    let x := bs.foldl (BankRun.settle cal Group.blockCells) { g := r.1.applyAll }
    (∀ q, r.2 = [] → choosePlan s.planOrder x.low = some q → x.ones = false → x.trims = [] →
      NextIs (exec (.fallbackEnd v convs bs) s) (fun t => (t.group v.val p).planNext = some q ∧
        (t.group v.val p).readyNext = some (if g.logical = 0x7FF then .spare else .inService) ∧
        (t.group v.val p).due = none ∧ (t.group v.val p).breach = false ∧ (t.group v.val p).state = g.state ∧
        t = { s with groups := t.groups })) ∧
    (r.2 ≠ [] → g.logical = 0x7FF → g.state ≠ .retired → NextIs (exec (.fallbackEnd v convs bs) s) (fun t =>
      (t.group v.val p).state = .retired ∧ (t.group v.val p).retCause = 2 ∧
      t = { s with groups := t.groups, errs := t.errs, host := t.host }))) ∧
  (s.falling v.val = none → exec (.fallbackEnd v convs bs) s = .next s) ∧
  (s.reloading (seqCode .cal) = false → s.vatPlans v.val = true → s.tick.stage = .started ∨ s.tick.stage = .evaluated →
    (s.vat v.val).refReady = true → b.group = p → b.plan = g.plan → g.state = .inService ∨ g.state = .spare →
    g.replan = none → g.onesBad (patsOf cal b) b = false → (g.takeTrims (patsOf cal b) (g.blockCells b) b).2 = [] →
    lowest (g.codes (patsOf cal b) (g.blockCells b) b) = some low →
    (66 ≤ low → (g.measured = true → 66 ≤ g.marginMin) → NextIs (exec (.calibrationWindow v [b]) s) (fun t =>
      (t.group v.val p).marginMin = (if g.measured then min g.marginMin low else low) ∧
      (t.group v.val p).measured = true ∧ (t.group v.val p).lastLow = low ∧ (t.group v.val p).state = g.state ∧
      t = { s with groups := t.groups })) ∧
    (low < 60 → NextIs (exec (.calibrationWindow v [b]) s) (fun t => (t.group v.val p).state = .recal ∧
      (t.group v.val p).breach = true ∧ (t.group v.val p).due.isSome = true ∧
      t = { s with groups := t.groups, errs := t.errs, host := t.host }))) ∧
  NextIs (exec .marginWindowEnd s) (fun t => (∀ y ∈ s.groupList, t.group y.1 y.2 = (s.group y.1 y.2).windowEnd) ∧
    t = { s with groups := t.groups }) ∧
  (g.measured = true → g.partialWin = false → g.windowEnd.marginLast = g.marginMin ∧ g.windowEnd.valid = true ∧
    g.windowEnd.histLast = g.hist) ∧
  (g.measured = false ∨ g.partialWin = true → g.windowEnd.marginLast = g.marginLast)

/-- The rolling calibration of a converter whose turn it is: two agreeing measurements set its targets and leave its applied
corrections, and the next converter of the cycle is due; one that fails acceptance becomes SUSPECT with converter 8 in its
place and its group due for fall-back calibration. A converter whose turn it is not is left alone. Where the spec leaves the
reading open, it is the model's own (log entry 49). -/
def Obligations.RollingCalibration : Prop := ∀ (s : State) (v : Fin 64) (p : Nat) (i : Fin 9) (meas : ConvIn)
    (ofs gain : Int),
  let g := s.group v.val p
  (s.rolling v.val p = some i.val →
    (calibrate 4 meas = some (ofs, gain) → NextIs (exec (.converterCalDone v p i meas) s) (fun t =>
      (t.group v.val p).conv i.val = { g.conv i.val with ofsTgt := ofs, gainTgt := gain } ∧
      (∀ j, j ≠ i.val → (t.group v.val p).conv j = g.conv j) ∧ (t.group v.val p).nextConv = (i.val + 1) % 9 ∧
      t = { s with groups := t.groups })) ∧
    (calibrate 4 meas = none → NextIs (exec (.converterCalDone v p i meas) s) (fun t =>
      ((t.group v.val p).conv i.val).state = .suspect ∧ (t.group v.val p).due.isSome = true ∧
      (i.val ≠ 8 → ((t.group v.val p).conv 8).state = .serving ∧ ((t.group v.val p).conv 8).covers = some i.val) ∧
      t = { s with groups := t.groups, errs := t.errs, host := t.host }))) ∧
  (s.rolling v.val p ≠ some i.val → exec (.converterCalDone v p i meas) s = .next s) ∧
  (s.tick.stage ≠ .execution → s.rolling v.val p = none)

/-- Initial calibration begins on each OFF or IDLE vat the mask names whose reference buffers are ready and leaves the state
of the others. A vat for which at least 1,488 groups pass leaves CALIBRATING: as IDLE where no image is resident, and
otherwise, unless the write of the resident images finds too few spares, too. With fewer it is RETIRED with cause 6, unless
an error counted against the die within 64 ticks raises it. The margin record is written at once into the older copy, or
waits while the flash is busy; an orderly shutdown request is ignored while the tick runs and only sets WRITE_WHILE_RUNNING.
A write that ends makes its copy valid with the next sequence number, and one that fails makes it invalid and leaves the
other. Where the spec leaves the reading open, it is the model's own (log entries 53 and 54). -/
def Obligations.InitialCalibrationAndRecord : Prop :=
  (∀ (s : State) (v : Fin 64) (mask : Nat) (l : List InitIn),
    NextIs (exec (.initCal mask) s) (fun t =>
      (∀ w, w < 64 → t.vat w = if bit mask w = true ∧ ((s.vat w).state = .off ∨ (s.vat w).state = .idle) ∧
          (s.vat w).refReady = true then { s.vat w with state := .calibrating } else s.vat w) ∧
      t = { s with vats := t.vats, errs := t.errs, host := t.host }) ∧
    ((s.vat v.val).state ≠ .calibrating → exec (.initCalDone v l) s = .next s) ∧
    ((s.vat v.val).state = .calibrating → (s.initVat v.val l).2 = true →
      NextIs (exec (.initCalDone v l) s) (fun t => (t.vat v.val).state = .idle ∨ (t.vat v.val).state = .retired ∨
        t.moduleState = 5) ∧
      ((∀ k : Fin 16, (s.slot k.val).current = none) → NextIs (exec (.initCalDone v l) s) (fun t =>
        (t.vat v.val).state = .idle ∧ (∀ w, w ≠ v.val → t.vat w = s.vat w) ∧
        t = { s with vats := t.vats, groups := t.groups, errs := t.errs, host := t.host }))) ∧
    ((s.vat v.val).state = .calibrating → (s.initVat v.val l).2 = false → s.counted (unitDie (dieOf v.val)) = false →
      NextIs (exec (.initCalDone v l) s) (fun t => (t.vat v.val).state = .retired ∧ (t.vat v.val).retCause = 6 ∧
        (t.vat v.val).initFail = true ∧
        t = { s with vats := t.vats, groups := t.groups, errs := t.errs, host := t.host, deckles := t.deckles,
                     sched := t.sched, sessions := t.sessions, rejects := t.rejects }))) ∧
  (∀ (s : State) (copy cause : Nat) (b : Bytes),
    let older := if nth s.upd.recSeqs 1 < nth s.upd.recSeqs 0 then 1 else 0
    let writes := fun (c : Instr) (n : Nat) =>
      (s.flashBusy = false → exec c s = .next { s with upd := { s.upd with
        recWait := none, recBusy := some (older, n, s.recordBytes n (s.upd.recSeq + 1)) } }) ∧
      (s.flashBusy = true → exec c s = .next { s with upd := { s.upd with recWait := some n } })
    writes .marginRecordDue 0 ∧ (s.tick.running = false → writes .recShut 1) ∧
    (s.tick.running = true → NextIs (exec .recShut s) (fun t => (t.pageRegs (pageIndex 9 0)).wwr = true ∧
      t = { s with errs := t.errs })) ∧
    (s.upd.recBusy = some (copy, cause, b) → s.upd.recWait = none →
      exec (.recordWriteDone true) s = .next { s with upd := { s.upd with
        recBusy := none, recs := s.upd.recs.set copy (some b), recSeqs := s.upd.recSeqs.set copy (s.upd.recSeq + 1)
        recSeq := s.upd.recSeq + 1, recDone := s.upd.recDone || cause == 1 } } ∧
      NextIs (exec (.recordWriteDone false) s) (fun t => t.upd = { s.upd with
        recBusy := none, recs := s.upd.recs.set copy none, recSeqs := s.upd.recSeqs.set copy 0 } ∧
        t = { s with upd := t.upd, errs := t.errs, host := t.host })) ∧
    (s.upd.recBusy = none → ∀ ok, exec (.recordWriteDone ok) s = .next s))

/-! ### Registers that act (R126, R132 to R135, R497, R557, R565, R567, R583, R590, R595) -/

/-- The windows and buffers of a vat and the histogram window. REFBUF_EN only sets WRITE_WHILE_RUNNING in RUN, CALIBRATING
and DRAINING. A module reset and a shutdown clear both. The end of the settling count makes the vat ready and marks each
unsettled bank once. CORR_DATA changes target fields under debug alone, SCR_DATA writes a word under debug alone and always
advances its address by 8 with a wrap, and HIST_SEL copies the histogram of another group. Where the spec leaves the reading
open, it is the model's own (log entry 36). -/
def Obligations.VatWindows : Prop := ∀ (s : State) (v : Fin 64) (on : Bool) (w p : Nat),
  let x := s.vat v.val
  (x.state = .run ∨ x.state = .calibrating ∨ x.state = .draining → NextIs (exec (.refbufEn v on) s) (fun t =>
    (t.pageRegs (pageIndex 0x16 v.val)).wwr = true ∧ t = { s with errs := t.errs })) ∧
  (x.state ≠ .run → x.state ≠ .calibrating → x.state ≠ .draining →
    exec (.refbufEn v true) s = .next (s.modVat v.val (fun y => { y with refEn := true })) ∧
    exec (.refbufEn v false) s = .next (s.modVat v.val (fun y => { y with refEn := false, refReady := false }))) ∧
  (let off := fun (t : State) => (t.vat v.val).refEn = false ∧ (t.vat v.val).refReady = false
   ∀ (a b : Bool) (j : Fin 512), NextIs (exec (.modResetN true a b) s) off ∧ (s.coreOn = true →
     NextIs (exec (.thermTrip a j) s) off ∧ NextIs (exec .pstageFault s) off ∧ NextIs (exec .refLost s) off ∧
     NextIs (exec (.hubHang a b) s) off)) ∧
  (x.refEn = true → x.refReady = false → p < 1536 → (s.group v.val p).refFault = false →
    exec (.refbufReady v []) s = .next (s.modVat v.val (fun y => { y with refReady := true })) ∧
    NextIs (exec (.refbufReady v [p]) s) (fun t => (t.vat v.val).refReady = true ∧
      t.group v.val p = { s.group v.val p with refFault := true } ∧
      (t.vat v.val).refFaults = satAdd 16 x.refFaults 1 ∧
      t = { s with vats := t.vats, groups := t.groups, errs := t.errs, host := t.host })) ∧
  (x.refEn = false ∨ x.refReady = true → exec (.refbufReady v [p]) s = .next s) ∧
  (let g := s.group v.val (s.reg .corrGroup v.val)
   let i := s.reg .corrIndex v.val
   (s.corrBad v.val = true → exec (.corrData v (some w)) s = .next (s.corrected .corrSelRange v.val none)) ∧
   (s.corrBad v.val = false → exec (.corrData v none) s = .next s ∧
     (s.debugReg = false → exec (.corrData v (some w)) s = .next s) ∧
     (s.debugReg = true → s.reg .corrKind v.val = 0 → NextIs (exec (.corrData v (some w)) s) (fun t =>
       (t.group v.val (s.reg .corrGroup v.val)).conv i =
         { g.conv i with gainTgt := toSigned 12 (bits w 55 44), ofsTgt := toSigned 10 (bits w 25 16) } ∧
       t = { s with groups := t.groups })) ∧
     (s.debugReg = true → s.reg .corrKind v.val ≠ 0 → NextIs (exec (.corrData v (some w)) s) (fun t =>
       (t.group v.val (s.reg .corrGroup v.val)).trim i = { g.trim i with target := toSigned 7 (bits w 22 16) } ∧
       t = { s with groups := t.groups })))) ∧
  (∀ value : Option Nat, x.scrAddr + 8 ≤ scrBytes → NextIs (exec (.scrData v value) s) (fun t =>
    (t.vat v.val).scrAddr = (if x.scrAddr = 0x17FFFF8 then 0 else x.scrAddr + 8) ∧
    (s.debugReg = false ∨ value = none → t.mem = s.mem) ∧
    (s.debugReg = true → ∀ n, value = some n → t.readNum (scrAddrOf v.val x.scrAddr) 8 = n % 2 ^ 64 ∧
      s.SameBytesOutside t [(scrAddrOf v.val x.scrAddr, 8)]) ∧ t = { s with vats := t.vats, mem := t.mem })) ∧
  NextIs (exec .histData s) (fun t => t.reg .histPair = (s.reg .histPair + 1) % 16 ∧ t = { s with regs := t.regs }) ∧
  NextIs (exec (.histSel w) s) (fun t => t.reg .histVat = bits w 29 24 ∧ t.reg .histGroup = bits w 18 8 ∧
    t.reg .histPair = bits w 3 0 ∧
    (¬(s.reg .histVat = bits w 29 24 ∧ s.reg .histGroup = bits w 18 8) → bits w 18 8 ≤ 1535 → ∀ n, n < 32 →
      get 0 t.histSnap n = get 0 (s.group (bits w 29 24) (bits w 18 8)).histLast n) ∧
    t = { s with regs := t.regs, histSnap := t.histSnap })

/-- RUN, DRAIN and SERVICE requests of a vat and the withdrawal of pages. A condition of R18 refuses DRAIN, SERVICE,
RETIRE_PAGE and UNRETIRE; RUN needs ready reference buffers and acts at the next boundary while the tick runs; a free page
leaves at once, an owned one when it is released, and UNRETIRE returns it. Where the spec leaves the reading open, it is the
model's own (log entry 37). -/
def Obligations.InServiceChanges : Prop := ∀ (s : State) (v : Fin 64) (st : Fin 8) (pg : Fin 1048576),
  let x := s.vat v.val
  let k := pageKey st.val pg.val
  (x.state = .idle ∨ x.state = .service → s.stressOn v.val = false →
    (x.refReady = true → s.tick.running = true →
      exec (.vatRun v) s = .next (s.modVat v.val (fun y => { y with runReq := true }))) ∧
    (x.refReady = true → s.tick.running = false → NextIs (exec (.vatRun v) s) (fun t => (t.vat v.val).state = .run ∧
      t = { s with vats := t.vats })) ∧
    (x.refReady = false → NextIs (exec (.vatRun v) s) (fun t => t = { s with errs := t.errs, host := t.host }))) ∧
  (s.refused18 = false →
    (x.state = .run → exec (.vatDrain v) s = .next (s.modVat v.val (fun y => { y with state := .draining, idleReq := true }))) ∧
    (x.state = .idle → exec (.vatService v) s = .next (s.modVat v.val (fun y => { y with state := .service, runReq := false }))) ∧
    (x.state = .run ∨ x.state = .draining → exec (.vatService v) s = .next (s.modVat v.val (fun y =>
      { y with state := .draining, serviceReq := true }))) ∧
    (s.owner k = 0 → NextIs (exec (.retirePage st pg) s) (fun t => t.isOut k = true ∧ t.owner k = 0 ∧
      (∀ j, j ≠ k → get 0 t.pageOut j = get 0 s.pageOut j) ∧ t = { s with pageOut := t.pageOut, errs := t.errs, host := t.host })) ∧
    (s.owner k ≠ 0 → s.isOut k = false → NextIs (exec (.retirePage st pg) s) (fun t => get 0 t.pageOut k = 2 ∧
      t.isOut k = false ∧ t = { s with pageOut := t.pageOut })) ∧
    NextIs (exec (.unretire st pg) s) (fun t => get 0 t.pageOut k = 0 ∧
      (∀ j, j ≠ k → get 0 t.pageOut j = get 0 s.pageOut j) ∧ t = { s with pageOut := t.pageOut })) ∧
  (s.refused18 = true → x.state ≠ .retired →
    exec (.vatDrain v) s = .next (s.corrected .serviceRefused v.val none) ∧
    exec (.vatService v) s = .next (s.corrected .serviceRefused v.val none) ∧
    exec (.retirePage st pg) s = .next (s.corrected .retireRefused st.val none) ∧
    exec (.unretire st pg) s = .next (s.corrected .retireRefused st.val none)) ∧
  (x.state = .retired → exec (.vatRun v) s = .next s ∧ exec (.vatDrain v) s = .next s ∧ exec (.vatService v) s = .next s)

/-- The common registers of a page and the settings management writes. Writing 1 to VALID removes the whole capture and to
WRITE_WHILE_RUNNING clears it; an error is armed under debug with scope REG alone; PAGE_LATCH takes EN and its target, and
with DISCARD drops the page's shadows; a PLDM setting waits in the same shadow as a write of the PF. Where the spec leaves
the reading open, it is the model's own (log entry 79). -/
def Obligations.CommonRegisters : Prop := ∀ (s : State) (page : Nat) (fn : Fin 17) (w : Nat),
  (pageOf page).isSome = true →
  (mayWrite page fn.val = true → NextIs (exec (.pageErrClear page fn w) s) (fun t =>
    (bit w 16 = true → (t.pageRegs page).capture = none) ∧
    (bit w 16 = false → bit w 17 = false → (t.pageRegs page).capture = (s.pageRegs page).capture) ∧
    (t.pageRegs page).wwr = ((s.pageRegs page).wwr && !bit w 18) ∧
    (t.pageRegs page).corrected = (s.pageRegs page).corrected ∧ (t.pageRegs page).others = (s.pageRegs page).others ∧
    (∀ q, q ≠ page → t.pageRegs q = s.pageRegs q) ∧ t = { s with errs := t.errs })) ∧
  (mayWrite page fn.val = false → exec (.pageErrClear page fn w) s = .next s) ∧
  (s.debugReg = true → NextIs (exec (.pageErrInj page w) s) (fun t =>
    (t.pageRegs page).inj = bits w 15 0 + b2n (bit w 31) * 2 ^ 31 ∧ t = { s with errs := t.errs })) ∧
  (s.debugReg = false → exec (.pageErrInj page w) s = .next s) ∧
  NextIs (exec (.pageLatch page w) s) (fun t => (t.pageRegs page).latchEn = bit w 63 ∧
    (t.pageRegs page).latchTick = bits w 61 0 ∧
    t.shadows = (if bit w 62 then s.shadows.filter (fun x => x.page != page) else s.shadows) ∧
    t = { s with errs := t.errs, shadows := t.shadows }) ∧
  NextIs (exec (.pldmSettingWrite true w) s) (fun t => t.pendingOr .coolantIn 0 = w % 4096 ∧ t.regs = s.regs ∧
    t = { s with shadows := t.shadows }) ∧
  NextIs (exec (.pldmSettingWrite false w) s) (fun t => t.pendingOr .pwrLimit 0 = w ∧ t.regs = s.regs ∧
    t = { s with shadows := t.shadows })

/-- A host write reaches a register when its function answers and it is 4 or 8 bytes, naturally aligned. An RWT field waits
in its shadow, an RW field is in force at once, an RWL field of a vat in RUN stays and its page shows WRITE_WHILE_RUNNING; a
VF's write of a read-only DECK register records VF_WRITE_RO. DECK_OPEN and the ring enables act as their page says. Where
the spec leaves the reading open, it is the model's own (log entries 35, 38 and 84 to 87). -/
def Obligations.RegistersAndDeckles : Prop := ∀ (s : State) (v : Fin 64) (d : Fin 16) (fn : Fin 17) (off size w : Nat),
  (s.reaches fn.val = false → exec (.registerWrite fn off size w) s = .next s) ∧
  (size ≠ 4 → size ≠ 8 → exec (.registerWrite fn off size w) s = .next s) ∧
  (off % 4 ≠ 0 ∨ (size = 8 ∧ off % 8 ≠ 0) → exec (.registerWrite fn off size w) s = .next s) ∧
  (s.reaches 0 = true →
    exec (.registerWrite 0 (4096 * pageIndex 0x14 v.val + 0x100) 8 w) s = .next (s.putShadow .repairRes v.val (w % 256)) ∧
    exec (.registerWrite 0 (4096 * pageIndex 0x12 0 + 0x120) 4 w) s = .next (s.setReg .ownerSel 0 (w % 2 ^ 20)) ∧
    ((s.vat v.val).state = .run → exec (.registerWrite 0 (4096 * pageIndex 0x13 v.val + 0x100) 4 w) s =
      .next (s.setWwr (pageIndex 0x13 v.val))) ∧
    ((s.vat v.val).state ≠ .run → 128 ≤ w % 256 → w % 256 ≤ 192 →
      exec (.registerWrite 0 (4096 * pageIndex 0x13 v.val + 0x100) 4 w) s = .next (s.setReg .surgeLim v.val (w % 256)))) ∧
  (s.reaches (d.val + 1) = true → exec (.registerWrite ⟨d.val + 1, by omega⟩ 0x100 8 w) s =
    .next (s.corrected .vfWriteRo d.val (some d.val))) ∧
  (∀ entropy, s.reg .sessCount d.val ≠ 0 → exec (.deckOpen d true entropy) s =
    .next (s.modDeckle d.val (fun k => { k with openReq := some (true, entropy) }))) ∧
  (∀ entropy, s.openSessions d.val = [] → exec (.deckOpen d false entropy) s =
    .next (s.modDeckle d.val (fun k => { k with openReq := some (false, entropy) }))) ∧
  (∀ entropy, s.openSessions d.val ≠ [] → exec (.deckOpen d false entropy) s =
    .next (s.corrected .deckBusy d.val (some d.val))) ∧
  (tenantFn d.val fn.val = true →
    exec (.sqEn d fn false) s = .next (s.setReg .sqEn d.val 0) ∧ exec (.cqEn d fn false) s = .next (s.setReg .cqEn d.val 0) ∧
    ((s.deckle d.val).opened = true → s.reg .cqSize d.val ≠ 0 → s.reg .cqBase d.val ≠ 0 → s.reg .cqPiAddr d.val ≠ 0 →
      s.reg .cqCiAddr d.val ≠ 0 → exec (.cqEn d fn true) s = .next (s.setReg .cqEn d.val 1)) ∧
    ((s.deckle d.val).opened = true → s.reg .sqSize d.val ≠ 0 → s.reg .sqBase d.val ≠ 0 → s.reg .sqPiAddr d.val ≠ 0 →
      s.reg .cqEn d.val ≠ 0 → s.reg .deckIfl d.val = s.activeIfLevel → NextIs (exec (.sqEn d fn true) s) (fun t =>
        t.reg .sqEn d.val = 1 ∧ (t.deckle d.val).sqFails = 0 ∧ t = { s with regs := t.regs, deckles := t.deckles })) ∧
    ((s.deckle d.val).opened = false → exec (.sqEn d fn true) s = .next (s.corrected .ringConfig d.val (some d.val)))) ∧
  (tenantFn d.val fn.val = false → exec (.sqEn d fn true) s = .next s ∧ exec (.cqEn d fn true) s = .next s)

/-! ### Sequencer faults and field test (R504, R505, R514 to R519) -/

/-- A sequencer fault of a block whose own unit has no error counted against it: the block reloads for two ticks, none of
its operations is left waiting to run, and an open stress window aborts with the test engine. A reload whose digest holds
serves at once while no tick runs, one whose digest fails retires the vat or shuts the module down. Where the spec leaves
the reading open, it is the model's own (log entries 44 and 62). -/
def Obligations.SequencerFaults : Prop := ∀ (s : State) (b : SeqBlock),
  (s.coreOn = true → s.reloading (seqCode b) = false → s.counted (unitHub (seqPage b).1) = false →
    (∀ v, seqVat b = some v → s.counted (unitVat v) = false) →
    (∀ p : Fin 6, b = .felt p → s.counted (unitPort p.val) = false) →
    NextIs (exec (.seqFault b) s) (fun t => get 0 t.reloads (seqCode b) = s.tick.now + 3 ∧
      (∀ o ∈ t.sched.ops, o.state = .waiting → seqHolds b o = true → o.reissue = true) ∧
      (b ≠ .test → t.test = s.test) ∧
      (b = .test → s.test.phase = .settle ∨ s.test.phase = .heat ∨ s.test.phase = .run → t.test.phase = .cool) ∧
      t = { s with errs := t.errs, host := t.host, deckles := t.deckles, sched := t.sched, sessions := t.sessions,
                   rejects := t.rejects, reloads := t.reloads, test := t.test })) ∧
  (s.reloading (seqCode b) = false → ∀ ok, exec (.seqReloadDone b ok) s = .next s) ∧
  (s.reloading (seqCode b) = true →
    (s.tick.running = true → exec (.seqReloadDone b true) s = .next s) ∧
    (s.tick.running = false → NextIs (exec (.seqReloadDone b true) s) (fun t => t.reloading (seqCode b) = false ∧
      t = { s with reloads := t.reloads })) ∧
    (seqVat b = none → NextIs (exec (.seqReloadDone b false) s) (fun t => t.moduleState = 5 ∧ t.therm.lastShut.1 = 3)) ∧
    (∀ v, seqVat b = some v → s.counted (unitDie (dieOf v)) = false → (s.vat v).state ≠ .retired →
      NextIs (exec (.seqReloadDone b false) s) (fun t => (t.vat v).state = .retired ∧ (t.vat v).retCause = 4)))

/-- A stress window opens only on a vat in SERVICE, with no other window, no condition of R18 and a class the active KRYTIK
image defines, and is refused with its cause otherwise; ABORT sends it to COOL; its phases follow in order, and the results
of RUN are kept, up to 4,096. Where the spec leaves the reading open, it is the model's own (log entry 55). -/
def Obligations.StressWindow : Prop := ∀ (s : State) (l : List TestResult) (gs : List InitIn),
  (s.reg .testOp = 1 → s.startCause = 0 → NextIs (exec .start s) (fun t => t.test.phase = .settle ∧
    t.test.vat = s.reg .testVat ∧ t.test.apply = (s.reg .testApply == 1) ∧ t.test.results = [] ∧ t.reg .testOp = 0 ∧
    t = { s with test := t.test, regs := t.regs })) ∧
  (s.startCause = 0 → (s.vat (s.reg .testVat)).state = .service ∧ s.windowOpen = false ∧ s.refused18 = false) ∧
  (s.reg .testOp = 1 → s.startCause ≠ 0 → NextIs (exec .start s) (fun t => t.test = { s.test with cause := s.startCause } ∧
    t = { s with test := t.test, regs := t.regs, errs := t.errs, host := t.host })) ∧
  (s.reg .testOp = 2 → s.test.phase = .settle ∨ s.test.phase = .heat ∨ s.test.phase = .run →
    NextIs (exec .abort s) (fun t => t.test = { s.test with phase := .cool, aborted := true, cause := 5 } ∧
      t = { s with test := t.test, regs := t.regs })) ∧
  (s.reg .testOp ≠ 1 → exec .start s = .next s) ∧ (s.reg .testOp ≠ 2 → exec .abort s = .next s) ∧
  (s.test.phase = .settle → exec (.stressPhaseEnd l gs) s = .next { s with test := { s.test with phase := .heat } }) ∧
  (s.test.phase = .heat → exec (.stressPhaseEnd l gs) s = .next { s with test := { s.test with phase := .run } }) ∧
  (s.test.phase = .run → NextIs (exec (.stressPhaseEnd l gs) s) (fun t => t.test.phase = .cool ∧
    t.test.results = s.test.results ++ l.take (4096 - s.test.results.length) ∧
    t = { s with test := t.test, errs := t.errs, host := t.host })) ∧
  (s.test.phase = .cool → s.test.aborted = false → s.upd.seed.isSome = true →
    exec (.stressPhaseEnd l gs) s = .next { s with test := { s.test with phase := .recal } }) ∧
  (s.test.phase = .idle ∨ s.test.phase = .done → exec (.stressPhaseEnd l gs) s = .next s)

/-! ### Felt ports, sessions and the torus (R356 to R385, R592, R593) -/

/-- A felt port's states and lanes. PORT_EN 1 clears every counter of the port, and 0 ends its session: the port is DOWN
with no key. Light brings an enabled DOWN port to TRAINING, and training with at least 30 lanes to SESSION. A failing lane
of a port in SESSION or UP is mapped out; the third lane out makes the port FAILED. A drain that leaves at most two lanes
out takes them out of service, one beyond that is only recorded as LANE_LIMIT, and a condition of R18 refuses a drain of
further lanes. A released lane that passes its test is back in service. Where the spec leaves the reading open, it is the
model's own (log entries 56 and 57). -/
def Obligations.FeltPorts : Prop := ∀ (s : State) (p : Fin 6) (lane : Fin 32) (mask : Nat),
  let x := s.port p.val
  let adds := (maskBits 32 mask).filter (fun l => !x.drained.contains l)
  let portsOnly := fun (t : State) => (∀ q, q ≠ p.val → t.port q = s.port q) ∧ t = { s with ports := t.ports }
  let bad := (List.range 32).filter (fun l => !bit mask l)
  (x.enable = false → NextIs (exec (.portEn p true) s) (fun t => t.port p.val = { x with
    enable := true, fecCorr := 0, fecUncorr := 0, retry := 0, authFail := 0, txFrames := 0, rxFrames := 0, fwdFrames := 0
    symLast := [], symNow := [] } ∧ portsOnly t)) ∧
  (x.enable = true → exec (.portEn p true) s = .next s) ∧
  NextIs (exec (.portEn p false) s) (fun t => (t.port p.val).state = .down ∧ (t.port p.val).enable = false ∧
    (t.port p.val).key = none ∧ (t.port p.val).fecCorr = x.fecCorr ∧ (∀ q, q ≠ p.val → t.port q = s.port q) ∧
    t = { s with ports := t.ports, torus := t.torus } ∧ (x.state ≠ .up ∨ s.torus.member ≠ 2 → t.torus = s.torus)) ∧
  (x.enable = true → x.state = .down → NextIs (exec (.portLightReceived p) s) (fun t =>
    t.port p.val = { x with state := .training } ∧ portsOnly t)) ∧
  (x.enable = false ∨ x.state ≠ .down → NextIs (exec (.portLightReceived p) s) (fun t => t.port p.val = x ∧ portsOnly t)) ∧
  (x.state = .training → bad.length ≤ 2 → NextIs (exec (.portTrained p mask) s) (fun t =>
    t.port p.val = { x with state := .session, mapped := bad } ∧ portsOnly t)) ∧
  (x.state ≠ .training ∨ 2 < bad.length → NextIs (exec (.portTrained p mask) s) (fun t =>
    t.port p.val = x ∧ portsOnly t)) ∧
  (x.state = .session ∨ x.state = .up → x.mapped.contains lane.val = false →
    let out := (Port.out { x with mapped := x.mapped ++ [lane.val] }).length
    (out ≤ 2 → NextIs (exec (.laneFail p lane) s) (fun t =>
      t.port p.val = { x with mapped := x.mapped ++ [lane.val] } ∧ (∀ q, q ≠ p.val → t.port q = s.port q) ∧
      t = { s with ports := t.ports, errs := t.errs, host := t.host })) ∧
    (2 < out → NextIs (exec (.laneFail p lane) s) (fun t => (t.port p.val).state = .failed ∧ (t.port p.val).key = none ∧
      (t.port p.val).mapped = x.mapped ++ [lane.val] ∧ (∀ q, q ≠ p.val → t.port q = s.port q) ∧
      t = { s with ports := t.ports, torus := t.torus, errs := t.errs, host := t.host }))) ∧
  (x.mapped.contains lane.val = true ∨ (x.state ≠ .session ∧ x.state ≠ .up) → exec (.laneFail p lane) s = .next s) ∧
  (adds ≠ [] → s.refused18 = true → exec (.laneDrain p mask) s = .next s) ∧
  (adds ≠ [] → s.refused18 = false → 2 < (Port.out { x with drained := x.drained ++ adds }).length →
    exec (.laneDrain p mask) s = .next (s.corrected .laneLimit p.val none)) ∧
  (adds = [] ∨ (s.refused18 = false ∧ (Port.out { x with drained := x.drained ++ adds }).length ≤ 2) →
    NextIs (exec (.laneDrain p mask) s) (fun t => (∀ l ∈ maskBits 32 mask, l ∈ (t.port p.val).drained) ∧
      (∀ l ∈ (t.port p.val).testing, l ∉ maskBits 32 mask) ∧ (t.port p.val).drainReg = mask ∧
      (t.port p.val).state = x.state ∧ portsOnly t)) ∧
  (x.testing.contains lane.val = true → NextIs (exec (.laneTestPass p lane) s) (fun t =>
    lane.val ∉ (t.port p.val).out ∧ (∀ l, l ≠ lane.val → l ∈ x.drained → l ∈ (t.port p.val).drained) ∧
    (t.port p.val).state = x.state ∧ portsOnly t)) ∧
  (x.testing.contains lane.val = false → NextIs (exec (.laneTestPass p lane) s) (fun t => t.port p.val = x ∧ portsOnly t))

/-- Link sessions. A port in SESSION sends its part of the session, and one whose neighbour passes every check of R373 is UP
with keys, numbered from 0, and holds the neighbour's node ID; one whose neighbour fails stays in SESSION and waits, and its
retry trains again. New keys restart the numbers inside the session; a neighbour that no longer attests, or a rekey that
fails, ends it. Where the spec leaves the reading open, it is the model's own (log entry 56). -/
def Obligations.LinkSessions : Prop := ∀ (s : State) (p : Fin 6) (n : NeighIn),
  let x := s.port p.val
  let others := fun (t : State) => ∀ q, q ≠ p.val → t.port q = s.port q
  let hello := fun (t : State) => ∃ h, (t.port p.val).hello = some h ∧ h.node = s.reg .nodeId ∧ h.torus = s.reg .torusId ∧
    h.period = s.tick.period ∧ h.nonce.length = 48
  let ends := fun (c : Instr) => NextIs (exec c s) (fun t => (t.port p.val).state = .session ∧ (t.port p.val).key = none ∧
    others t ∧ t = { s with ports := t.ports, torus := t.torus, errs := t.errs, host := t.host })
  (x.state = .session → x.refused = false →
    (s.neighBad p.val n = none → n.entropy = true → s.torus.downLinks.contains (s.portLink p.val) = false →
      NextIs (exec (.linkSession p n) s) (fun t => (t.port p.val).state = .up ∧ (t.port p.val).key.isSome = true ∧
        (t.port p.val).txSeq = 0 ∧ (t.port p.val).rxSeq = 0 ∧ (t.port p.val).neighId = n.nodeId ∧ hello t ∧ others t ∧
        t = { s with ports := t.ports, free := t.free })) ∧
    (s.neighBad p.val n = none → n.entropy = true → s.torus.downLinks.contains (s.portLink p.val) = true →
      s.torus.member = 2 → NextIs (exec (.linkSession p n) s) (fun t => (t.port p.val).state = .up ∧ hello t ∧ others t ∧
        t.torus.proposals = s.torus.proposals ++ [⟨s.reg .nodeId, s.torus.nextProp, s.tick.now + s.reg .membLead,
          [⟨3, (s.portLink p.val).1, (s.portLink p.val).2⟩]⟩] ∧
        t = { s with ports := t.ports, torus := t.torus, free := t.free })) ∧
    (∀ e, s.neighBad p.val n = some e → n.entropy = true → NextIs (exec (.linkSession p n) s) (fun t =>
      hello t ∧ others t ∧ t.port p.val = { x with hello := (t.port p.val).hello, refused := true } ∧
      t = { s with ports := t.ports, errs := t.errs, host := t.host, free := t.free })) ∧
    (n.entropy = false → exec (.linkSession p n) s = .next (s.corrected .keyGen 0 none))) ∧
  (x.state ≠ .session ∨ x.refused = true → exec (.linkSession p n) s = .next s) ∧
  (n.chainOk = false ∨ n.sigOk = false ∨ n.debugLocked = false → s.neighBad p.val n = some .attestFail) ∧
  (n.nodeId ≠ s.neighbour p.val ∨ n.torusId ≠ s.reg .torusId ∨ n.period ≠ s.tick.period →
    (s.neighBad p.val n).isSome = true) ∧
  (x.state = .session → x.refused = true → NextIs (exec (.sessionRetry p) s) (fun t =>
    t.port p.val = { x with state := .training, refused := false } ∧ others t ∧ t = { s with ports := t.ports })) ∧
  (x.state ≠ .session ∨ x.refused = false → NextIs (exec (.sessionRetry p) s) (fun t => t.port p.val = x ∧ others t ∧
    t = { s with ports := t.ports })) ∧
  (x.state = .up → ends (.rekeyFail p) ∧
    (n.entropy = true → n.chainOk = false ∨ n.sigOk = false ∨ n.debugLocked = false → ends (.rekeyDue p n)) ∧
    (n.entropy = true → n.chainOk = true → n.sigOk = true → n.debugLocked = true →
      NextIs (exec (.rekeyDue p n) s) (fun t => (t.port p.val).state = .up ∧ (t.port p.val).key.isSome = true ∧
        (t.port p.val).txSeq = 0 ∧ (t.port p.val).rxSeq = 0 ∧ hello t ∧ others t ∧
        t = { s with ports := t.ports, free := t.free }))) ∧
  (x.state ≠ .up → exec (.rekeyFail p) s = .next s) ∧
  (x.state ≠ .up ∨ n.entropy = false → exec (.rekeyDue p n) s = .next s)

/-- A received frame. An uncorrectable codeword, a failed tag below the sixteenth of the tick, and a frame out of sequence
deliver nothing and only count, and so do corrected symbols within the lane's limit; the sixteenth failed tag ends the
session. A transfer's data frame for this node is staged for its exchange within its deckle's resources, and no byte of
memory changes; outside them it is not staged. A frame for another node leaves on its route, on the VC of R365, and leaves
memory alone. A neighbour's withdrawal makes its removal be proposed. Where the spec leaves the reading open, it is the
model's own (log entries 61, 111 and 128). -/
def Obligations.LinkFrames : Prop := ∀ (s : State) (p : Fin 6) (f : FrameIn),
  let x := s.port p.val
  let only := fun (t : State) => (∀ q, q ≠ p.val → t.port q = s.port q) ∧ t = { s with ports := t.ports }
  let counted := fun (t : State) => (t.port p.val).rxSeq = x.rxSeq + 1 ∧ (t.port p.val).rxFrames = (x.rxFrames + 1) % 2 ^ 64
  (x.state = .session ∨ x.state = .up → s.reloading (64 + p.val) = false →
    (fecBad f = true → NextIs (exec (.frameReceive p f) s) (fun t =>
      t.port p.val = { x with fecUncorr := satAdd 32 x.fecUncorr 1 } ∧ only t)) ∧
    (∀ e, f.errs = [e] → satAdd 32 (get 0 x.symNow e.2) 1 ≤ s.reg .laneErrLim p.val → f.tagBad = true → x.authTick < 15 →
      NextIs (exec (.frameReceive p f) s) (fun t => t.port p.val = { x with
        fecCorr := (x.fecCorr + 1) % 2 ^ 64, symNow := put 0 x.symNow e.2 (satAdd 32 (get 0 x.symNow e.2) 1)
        authFail := satAdd 32 x.authFail 1, authTick := x.authTick + 1 } ∧ only t)) ∧
    (f.errs = [] →
      (f.tagBad = true → x.authTick < 15 → NextIs (exec (.frameReceive p f) s) (fun t =>
        t.port p.val = { x with authFail := satAdd 32 x.authFail 1, authTick := x.authTick + 1 } ∧ only t)) ∧
      (f.tagBad = true → 15 ≤ x.authTick → x.state = .up → NextIs (exec (.frameReceive p f) s) (fun t =>
        (t.port p.val).state = .session ∧ (t.port p.val).key = none ∧ t.mem = s.mem ∧
        t = { s with ports := t.ports, torus := t.torus, errs := t.errs, host := t.host })) ∧
      (f.tagBad = false → f.seq % 2 ^ 32 ≠ x.rxSeq % 2 ^ 32 → exec (.frameReceive p f) s = .next s) ∧
      (f.tagBad = false → f.seq % 2 ^ 32 = x.rxSeq % 2 ^ 32 → x.state = .up → f.kind = 1 → 1 ≤ f.vc → f.vc ≤ 4 →
        (f.dest = s.reg .nodeId → f.first = true → field f.payload 0 1 = 1 → field f.payload 16 8 = s.tick.now →
          s.torus.member = 2 →
          let a := field f.payload 8 8
          let e := field f.payload 24 4
          let data := f.payload.drop 32
          let wanted := s.sched.ops.any (fun o => o.deckle == f.deckle && o.takes == some e)
          (wanted = false ∨ s.webCheck f.deckle a data.length true = .ok →
            NextIs (exec (.frameReceive p f) s) (fun t =>
              t.sched = { s.sched with staged := s.sched.staged ++ [⟨f.deckle, e, a, data⟩] } ∧ counted t ∧
              (∀ q, q ≠ p.val → t.port q = s.port q) ∧ t = { s with ports := t.ports, sched := t.sched })) ∧
          (wanted = true → s.webCheck f.deckle a data.length true ≠ .ok → NextIs (exec (.frameReceive p f) s) (fun t =>
            counted t ∧ t.mem = s.mem ∧ t.sched.staged = s.sched.staged))) ∧
        (∀ q, f.dest ≠ s.reg .nodeId → s.torus.member = 2 → s.routePort f.dest = some q → q ≠ p.val →
          NextIs (exec (.frameReceive p f) s) (fun t =>
            counted t ∧ (t.port p.val).fwdFrames = (x.fwdFrames + 1) % 2 ^ 64 ∧
            (t.port q).txFrames = ((s.port q).txFrames + 1) % 2 ^ 64 ∧
            (t.port q).sent = (s.port q).sent ++ [⟨f.kind, s.outVc (some p.val) f.vc q, f.first, f.last, f.deckle, f.dest,
              f.src, (s.port q).txSeq % 2 ^ 32, f.payload⟩] ∧ t = { s with ports := t.ports })) ∧
        (f.dest ≠ s.reg .nodeId → s.torus.member ≠ 2 ∨ s.routePort f.dest = none →
          NextIs (exec (.frameReceive p f) s) (fun t => counted t ∧ (t.port p.val).fwdFrames = x.fwdFrames ∧ only t))) ∧
      (f.tagBad = false → f.seq % 2 ^ 32 = x.rxSeq % 2 ^ 32 → x.state = .up → f.kind = 2 → f.vc = 0 →
        field f.payload 0 1 = 1 → s.torus.present.contains x.neighId = true → s.torus.member = 2 →
        NextIs (exec (.frameReceive p f) s) (fun t => counted t ∧ t.torus.proposals = s.torus.proposals ++
          [⟨s.reg .nodeId, s.torus.nextProp, s.tick.now + 2, [⟨1, 0, x.neighId⟩]⟩] ∧
          t = { s with ports := t.ports, torus := t.torus })))) ∧
  (x.state ≠ .session → x.state ≠ .up → exec (.frameReceive p f) s = .next s) ∧
  (∀ q, (s.dateline q = true → s.outVc none f.vc q = lowerVc f.vc + 1 ∧ s.outVc (some p.val) f.vc q = lowerVc f.vc + 1) ∧
    (s.dateline q = false → s.outVc none f.vc q = lowerVc f.vc ∧
      (p.val / 2 ≠ q / 2 → s.outVc (some p.val) f.vc q = lowerVc f.vc) ∧
      (p.val / 2 = q / 2 → s.outVc (some p.val) f.vc q = f.vc)))

/-- Alignment with the torus. A TIME frame gives the port's φ and δ, and the parent's one the module's error; a second one
in a row with later or other tables makes a member withdraw. A member that hears nothing from a member neighbour proposes
its LEAVE two ticks on. A member whose error exceeded 200 ns for 16 ticks withdraws; a withdrawn one that was aligned for 64
ticks joins again, through a request to its neighbour, when JOIN_AUTO allows it; a waiting module starts its tick at the
neighbour's tick number with the tables it was sent. Where the spec leaves the reading open, it is the model's own (log
entries 58, 60 and 128). -/
def Obligations.TorusAlignment : Prop := ∀ (s : State) (p : Fin 6) (f : TimeIn) (present : List Nat) (down : List (Nat × Nat)),
  let x := s.port p.val
  (x.state = .up → (x.time.tick ≠ 0 ∧ s.tick.now + 1 < x.time.tick + 2) ∨ s.torus.present.contains x.neighId = true →
    f.epoch < s.torus.epoch →
    NextIs (exec (.timeFrame p f) s) (fun t =>
      (t.port p.val).time.phi = f.tThere - f.tHere ∧ (t.port p.val).time.delta = f.tThere + f.tHere ∧
      (t.port p.val).time.nTick = f.tick ∧ (t.port p.val).time.differ = 0 ∧
      (s.torus.parent = some p.val → t.torus.alignErr = f.err + divRne (f.tThere - f.tHere) 4) ∧
      (s.torus.parent ≠ some p.val → t.torus = s.torus) ∧ (∀ q, q ≠ p.val → t.port q = s.port q) ∧
      t = { s with ports := t.ports, torus := { s.torus with alignErr := t.torus.alignErr } })) ∧
  (x.state = .up → s.torus.member = 2 → s.torus.epoch < f.epoch → 1 ≤ x.time.differ → x.time.tick ≠ 0 →
    NextIs (exec (.timeFrame p f) s) (fun t => t.torus.member = 3 ∧ t.torus.alignGood = 0 ∧ t.mem = s.mem)) ∧
  (x.state ≠ .up → exec (.timeFrame p f) s = .next s) ∧
  (x.state = .up → s.torus.present.contains x.neighId = true → s.torus.member = 2 → x.time.tick + 2 ≤ s.tick.now + 1 →
    NextIs (exec (.timeFrameMissing p) s) (fun t =>
      t.torus.proposals = s.torus.proposals ++ [⟨s.reg .nodeId, s.torus.nextProp, s.tick.now + 2, [⟨1, 0, x.neighId⟩]⟩] ∧
      t.torus.present = s.torus.present ∧ t = { s with torus := t.torus })) ∧
  (x.state ≠ .up ∨ s.torus.present.contains x.neighId = false ∨ s.tick.now + 1 < x.time.tick + 2 →
    exec (.timeFrameMissing p) s = .next s) ∧
  (s.torus.member = 2 → 16 ≤ s.torus.alignBad → NextIs (exec .alignLost s) (fun t => t.torus.member = 3 ∧
    t.torus.alignGood = 0 ∧ t.mem = s.mem)) ∧
  (s.torus.member ≠ 2 ∨ s.torus.alignBad < 16 → exec .alignLost s = .next s) ∧
  (s.torus.member = 3 → s.reg .joinAuto = 1 → 64 ≤ s.torus.alignGood → x.state = .up →
    NextIs (exec (.autoRejoin p) s) (fun t => t.torus = { s.torus with member := 1 } ∧
      (t.port p.val).sent = x.sent ++ [⟨2, 0, true, true, 0, x.neighId, s.reg .nodeId, x.txSeq % 2 ^ 32, leBytes 1 2⟩] ∧
      t = { s with torus := t.torus, ports := t.ports })) ∧
  (s.torus.member ≠ 3 ∨ s.reg .joinAuto ≠ 1 ∨ s.torus.alignGood < 64 ∨ x.state ≠ .up → exec (.autoRejoin p) s = .next s) ∧
  (s.torus.waiting = true → x.state = .up → NextIs (exec (.firstAlignedStrobe p present down) s) (fun t =>
    t.tick = { s.tick with running := true, started := true, starting := true, stopReq := false, now := x.time.nTick } ∧
    t.torus.waiting = false ∧ t.torus.member = 1 ∧ (∀ n, n ∈ t.torus.present ↔ n ∈ present) ∧
    t.torus.downLinks = down ∧ t.torus.epoch = x.time.epoch ∧ t = { s with torus := t.torus, tick := t.tick })) ∧
  (s.torus.waiting = false ∨ x.state ≠ .up → exec (.firstAlignedStrobe p present down) s = .next s)

/-- Membership. A proposal that arrives is recorded once for its tick, and one that was seen before changes nothing; LEAVE
proposes this module's removal MEMB_LEAD ticks on. The changes of one tick apply as a union in which LEAVE overrides JOIN
and LINK_DOWN overrides LINK_UP, and advance the epoch by 1; without one for the tick the tables stay. -/
def Obligations.Membership : Prop := ∀ (s : State) (p : Fin 6) (b n a : Nat) (es : List MembIn) (node : Nat) (link : Nat × Nat),
  let q : Proposal := ⟨b, n, a, es.map (fun e => ⟨e.kind, e.dim, e.node⟩)⟩
  let seen := s.torus.sent.any (fun x => x.by_ == b && x.number == n)
  let at_ := fun (k : Nat) => (s.torus.proposals.filter (fun x => x.at_ == a)).any (fun x => x.entries.any (fun e =>
    e.kind == k && e.node == node))
  let atLink := fun (k : Nat) => (s.torus.proposals.filter (fun x => x.at_ == a)).any (fun x => x.entries.any (fun e =>
    e.kind == k && e.dim == link.1 && e.node == link.2))
  ((s.port p.val).state = .up → s.torus.member ≠ 0 → seen = false → exec (.membershipProposal p b n a es) s = .next
    { s with torus := { s.torus with proposals := s.torus.proposals ++ [q], sent := q :: s.torus.sent } }) ∧
  ((s.port p.val).state ≠ .up ∨ s.torus.member = 0 ∨ seen = true → exec (.membershipProposal p b n a es) s = .next s) ∧
  (s.torus.member = 2 → NextIs (exec .leave s) (fun t => t.torus.proposals = s.torus.proposals ++
    [⟨s.reg .nodeId, s.torus.nextProp, s.tick.now + s.reg .membLead, [⟨1, 0, s.reg .nodeId⟩]⟩] ∧
    t.torus.present = s.torus.present ∧ t = { s with torus := t.torus })) ∧
  (s.torus.member ≠ 2 → exec .leave s = .next s) ∧
  ((∀ x ∈ s.torus.proposals, x.at_ ≠ a) → (s.applyMembership a).torus.present = s.torus.present ∧
    (s.applyMembership a).torus.downLinks = s.torus.downLinks ∧ (s.applyMembership a).torus.epoch = s.torus.epoch) ∧
  ((∃ x ∈ s.torus.proposals, x.at_ = a) →
    (node ∈ (s.applyMembership a).torus.present ↔ at_ 1 = false ∧ (node ∈ s.torus.present ∨ at_ 0 = true)) ∧
    (link ∈ (s.applyMembership a).torus.downLinks ↔ atLink 2 = true ∨ (link ∈ s.torus.downLinks ∧ atLink 3 = false)) ∧
    (s.applyMembership a).torus.epoch = s.torus.epoch + 1)

/-! ### Owner commands, debug unlock and attestation (R407, R422 to R435) -/

/-- Owner commands and nonces. A command in the right form that is signed by a set slot over the current nonce, or that
needs no signature, is carried out, uses the nonce up when it carries one, and shows as done; one in another form, unsigned,
or whose read failed changes only what SEC_STS and the error registers show. The block of a command acts only under its own
operation; LOCK during a write of an image also ends that write with UPD_REFUSED. CHAL draws a fresh nonce of 48 bytes in
place of the one before; KEY_GEN is recorded. Where the spec leaves the reading open, it is the model's own (log entries 7
and 30). -/
def Obligations.OwnerCommands : Prop := ∀ (s : State) (b : Bytes),
  let row := fun (c : HostRead → Instr) (op : Nat) (act : Sec → Sec) =>
    (ocOp b = op → ownerFormat b = true → s.ownerFree b = true →
      exec (c (.data b)) s = .next { s with sec := { act s.sec with lastCmd := 1 } }) ∧
    (ocOp b = op → ownerFormat b = true → s.ownerFree b = false → s.ownerSigned b = true →
      exec (c (.data b)) s = .next { s with sec := { act { s.sec with nonce := none } with lastCmd := 1 } }) ∧
    (ocOp b = op → ownerFormat b = false ∨ (s.ownerFree b = false ∧ s.ownerSigned b = false) →
      exec (c (.data b)) s = .next s.ownerDenied) ∧
    (1 ≤ ocOp b → ocOp b ≤ 6 → ocOp b ≠ op → exec (c (.data b)) s = .next s) ∧
    (ocOp b = 0 ∨ 6 < ocOp b → exec (c (.data b)) s = .next s.ownerDenied) ∧
    exec (c .fail) s = .next s.ownerDenied ∧ exec (c .late) s = .next s
  row .setKey 1 (fun x => { x with owners := put [] x.owners (ocSlot b) (ocKey b) }) ∧
  row .clearKey 2 (fun x => { x with owners := put [] x.owners (ocSlot b) [] }) ∧
  row .reqSigOn 3 (fun x => { x with reqSig := true }) ∧ row .reqSigOff 4 (fun x => { x with reqSig := false }) ∧
  (s.upd.writing = false → row .lock 5 (fun x => { x with locked := true })) ∧
  (s.upd.writing = true → ocOp b = 5 → ownerFormat b = true → NextIs (exec (.lock (.data b)) s) (fun t =>
    t.sec = { s.sec with locked := true, lastCmd := 1 } ∧ t.upd.state = .idle ∧ t.upd.result = errCode .updRefused ∧
    t.upd.cause = 4 ∧ t.flashSlot s.upd.kind (s.spareFlash s.upd.kind) = { state := .invalid } ∧
    t.upd.active = s.upd.active ∧ t = { s with sec := t.sec, upd := t.upd, errs := t.errs, host := t.host })) ∧
  row .unlock 6 (fun x => { x with locked := false }) ∧
  s.ownerDenied.sec = { s.sec with lastCmd := 2 } ∧
  s.ownerDenied = { s with sec := s.ownerDenied.sec, errs := s.ownerDenied.errs, host := s.ownerDenied.host } ∧
  (s.ownerFree b = true → (ocOp b = 1 ∧ s.sec.owners = []) ∨ ocOp b = 5) ∧
  (s.ownerSigned b = true → s.sec.nonce = some (ocNonce b) ∧
    ecdsaVerify (get [] s.sec.owners (ocSigner b)) (sha384 (b.take 0x98)) (ocSig b) = true) ∧
  NextIs (exec .chal s) (fun t => (∃ n, n.length = 48 ∧ t.sec = { s.sec with nonce := some n, nonceReg := n }) ∧
    t = { s with sec := t.sec, free := t.free }) ∧
  exec .keyGen s = .next (s.corrected .keyGen 0 none)

/-- Debug unlock. A token that fails a check uses up the nonce and is recorded as DEBUG_DENIED. One that passes waits for
the next boundary while the tick runs and acts at once while it does not: every session is closed, no SPDM session is left,
and the scopes are those of the token. Where the spec leaves the reading open, it is the model's own (log entry 31). -/
def Obligations.DebugUnlock : Prop := ∀ (s : State) (b : Bytes),
  (s.tokenOk b = true → s.sec.debugPerm = true ∧ s.sec.lifecycle ≠ 0 ∧ s.sec.locked = false ∧ s.sec.unlocked = false ∧
    s.sec.nonce = some (slice b 0x38 48) ∧ (s.vkeySlot (dtKey b)).isSome = true) ∧
  (s.tokenOk b = true → s.tick.running = true → exec (.dbgToken (.data b)) s = .next { s with sec := { s.sec with
    nonce := none, tokenDue := some (bit (dtScope b) 0, bit (dtScope b) 1) } }) ∧
  (s.tokenOk b = true → s.tick.running = false → NextIs (exec (.dbgToken (.data b)) s) (fun t =>
    t.sec.unlocked = true ∧ t.sec.scopeReg = bit (dtScope b) 0 ∧ t.sec.scopeScan = bit (dtScope b) 1 ∧
    t.sec.nonce = none ∧ t.sec.tokenDue = none ∧ t.sec.spdm = [] ∧ (∀ i, (t.session i).state = .closed) ∧
    t.sec.owners = s.sec.owners ∧ t.upd = s.upd ∧ t.power.phase = s.power.phase)) ∧
  (s.tokenOk b = false → NextIs (exec (.dbgToken (.data b)) s) (fun t => t.sec = { s.sec with nonce := none } ∧
    t = { s with sec := t.sec, errs := t.errs, host := t.host })) ∧
  exec (.dbgToken .fail) s = .next (s.corrected .debugDenied 0 none) ∧ exec (.dbgToken .late) s = .next s

/-- Attestation and IDE keys. A certificate request for slot 0 is answered with the stored certificates and the alias
certificate signed by DeviceID, and for another slot with nothing; measurements come with the nonce, signed by the alias
key, and a VF sees the layout of no deckle but its own. A key exchange sets up the requester's SPDM session alone. IDE keys
are programmed only inside an SPDM session of the PF; a keyed stream becomes Secure and a stopped one is torn down, which
stops the tick when it was the last Secure one and IDE_REQ is 1. Where
the spec leaves the reading open, it is the model's own (log entries 7 and 16). -/
def Obligations.Attestation : Prop := ∀ (s : State) (q : Requester) (nonce key script : Bytes) (l : List Nat) (slot : Nat)
    (link : Bool),
  let answers := fun (t : State) (b : Bytes) => t.sec = { s.sec with replies := s.sec.replies ++ [(requesterCode q, b)] }
  let stream := fun (t : State) => if link then t.host.ideLink else t.host.ideSel
  let other := fun (t : State) => if link then t.host.ideSel else t.host.ideLink
  NextIs (exec (.getCertificate q 0) s) (fun t => (∃ k,
    answers t (s.sec.cert ++ s.aliasBody ++ ecdsaSign s.sec.devId k (sha384 s.aliasBody))) ∧
    t = { s with sec := t.sec, free := t.free }) ∧
  (slot ≠ 0 → NextIs (exec (.getCertificate q slot) s) (fun t => answers t [] ∧ t = { s with sec := t.sec })) ∧
  (let body := (l.map (s.measurement q)).foldr (· ++ ·) []
   NextIs (exec (.getMeasurements q nonce l) s) (fun t => (∃ k,
     answers t (body ++ nonce ++ ecdsaSign s.sec.alias_ k (sha384 (body ++ nonce)))) ∧
     t = { s with sec := t.sec, free := t.free })) ∧
  (∀ n d : Fin 16, slice (s.measurement (.vf n) 11) (32 * d.val) 32 =
    if d = n then s.deckleEntry d.val else List.replicate 32 0#8) ∧
  (∀ d : Fin 16, slice (s.measurement .pf 11) (32 * d.val) 32 = s.deckleEntry d.val ∧
    s.measurement .mgmt 11 = s.measurement .pf 11) ∧
  NextIs (exec (.keyExchange q key script true) s) (fun t => (∃ e, get {} t.sec.spdm (requesterCode q) =
    { keys := hkdf384 (ecdhShared e key) (sha384 script) (ascii "SPDM") 88 }) ∧
    (∀ c, c ≠ requesterCode q → get {} t.sec.spdm c = get {} s.sec.spdm c) ∧
    t.sec.replies.length = s.sec.replies.length + 1 ∧ t = { s with sec := t.sec, free := t.free }) ∧
  exec (.keyExchange q key script false) s = .next (s.corrected .keyGen 0 none) ∧
  (∀ act, (get {} s.sec.spdm 0).keys = [] → exec (.ideKm act) s = .next s) ∧
  ((get {} s.sec.spdm 0).keys ≠ [] →
    NextIs (exec (.ideKm (.program link)) s) (fun t => stream t = (true, (stream s).2) ∧ other t = other s ∧
      t.host.stopIssue = s.host.stopIssue ∧ t = { s with host := t.host, free := t.free }) ∧
    ((stream s).1 = true → NextIs (exec (.ideKm (.go link)) s) (fun t => stream t = (true, true) ∧ other t = other s ∧
      t.host.stopIssue = false ∧ t = { s with host := t.host })) ∧
    ((stream s).1 = false → exec (.ideKm (.go link)) s = .next s) ∧
    ((stream s).2 = false ∨ (other s).2 = true ∨ s.reg .ideReq ≠ 1 → NextIs (exec (.ideKm (.stop link)) s) (fun t =>
      stream t = (false, false) ∧ other t = other s ∧ t.host.stopIssue = s.host.stopIssue ∧ t = { s with host := t.host })) ∧
    ((stream s).2 = true → (other s).2 = false → s.reg .ideReq = 1 → NextIs (exec (.ideKm (.stop link)) s) (fun t =>
      stream t = (false, false) ∧ other t = other s ∧ t.host.stopIssue = true ∧
      (s.tick.running = true → s.tick.inTick = true → t.tick = { s.tick with stopReq := true }) ∧
      (s.tick.running = true → s.tick.inTick = false → t.tick.running = false) ∧
      t = { s with host := t.host, tick := t.tick, errs := t.errs })))

/-! ### Field update (R465 to R490) -/

/-- UPD_CMD. WRITE without a session and without a cause of R478 erases the flash slot that holds no active image and begins
to receive; ACTIVATE of images that are there, need no stop and have an order begins the hand-overs; CANCEL of a write
leaves its flash slot INVALID. A command while a session runs ends with UPD_BUSY, one under a cause of R478 with UPD_REFUSED
and that cause, and neither touches an image. OP reads 0 afterwards. Where the spec leaves the reading open, it is the
model's own (log entry 32). -/
def Obligations.UpdateCommands : Prop := ∀ s : State,
  let k := s.reg .imgKind
  let ks := (maskBits 7 (s.reg .imgMask)).map (· + 1)
  let busy := s.upd.session = true ∨ s.upd.state ≠ .idle
  let refused := fun (c : Instr) (e : Err) (cause : Nat) => NextIs (exec c s) (fun t => t.reg .imgOp = 0 ∧
    t.upd = { s.upd with result := errCode e, cause := cause } ∧
    t = { s with regs := t.regs, upd := t.upd, errs := t.errs, host := t.host })
  (s.reg .imgOp = 1 → busy → refused .write .updBusy 0) ∧
  (s.reg .imgOp = 1 → ¬busy → s.updCause ≠ 0 → refused .write .updRefused s.updCause) ∧
  (s.reg .imgOp = 1 → ¬busy → s.updCause = 0 → k = 0 ∨ 7 < k → refused .write .imgFormat 0) ∧
  (s.reg .imgOp = 1 → ¬busy → s.updCause = 0 → 1 ≤ k → k ≤ 7 → NextIs (exec .write s) (fun t => t.reg .imgOp = 0 ∧
    t.upd.state = (if s.reg .updLen = 0 then .verifying else .receiving) ∧ t.upd.session = true ∧ t.upd.kind = k ∧
    t.upd.len = s.reg .updLen ∧ t.upd.bytes = 0 ∧
    t.flashSlot k (s.spareFlash k) = { state := .writing } ∧
    (∀ j, j ≠ k * 2 + s.spareFlash k → get {} t.upd.flash j = get {} s.upd.flash j) ∧
    t.upd.active = s.upd.active ∧ t.upd.inactive = s.upd.inactive ∧ t = { s with regs := t.regs, upd := t.upd })) ∧
  (s.reg .imgOp ≠ 1 → exec .write s = .next s) ∧
  (s.reg .imgOp = 2 → busy → refused .activate .updBusy 0) ∧
  (s.reg .imgOp = 2 → ¬busy → s.updCause ≠ 0 → refused .activate .updRefused s.updCause) ∧
  (s.reg .imgOp = 2 → ¬busy → s.updCause = 0 → s.named ks = none → refused .activate .notStaged 0) ∧
  (∀ l order, s.reg .imgOp = 2 → ¬busy → s.updCause = 0 → s.named ks = some l → l.any s.needsStop = false →
    fixOrder (fun n => (s.inactiveSlot n).map (fun c => c.image)) 8 ks s.upd.active [] = some order →
    NextIs (exec .activate s) (fun t => t.reg .imgOp = 0 ∧
      t.upd = { s.upd with state := .activating, session := true, order := order, cause := 0 } ∧
      t = { s with regs := t.regs, upd := t.upd })) ∧
  (s.reg .imgOp ≠ 2 → exec .activate s = .next s) ∧
  (s.reg .imgOp = 3 → s.upd.writing = true → NextIs (exec .updCancel s) (fun t => t.reg .imgOp = 0 ∧
    t.upd.state = .idle ∧ t.upd.session = false ∧ t.upd.result = 0 ∧
    t.flashSlot s.upd.kind (s.spareFlash s.upd.kind) = { state := .invalid } ∧ t.upd.active = s.upd.active ∧
    t = { s with regs := t.regs, upd := t.upd, host := t.host })) ∧
  (s.reg .imgOp = 3 → s.upd.state = .activating → NextIs (exec .updCancel s) (fun t => t.upd.state = .idle ∧
    t.upd.order = [] ∧ t.upd.session = false ∧ t.upd.result = errCode .actDeferred ∧ t.upd.active = s.upd.active ∧
    t.upd.flash = s.upd.flash ∧ t = { s with regs := t.regs, upd := t.upd, errs := t.errs, host := t.host })) ∧
  (s.reg .imgOp ≠ 3 → exec .updCancel s = .next s)

/-- The bytes of an image and its verification. UPD_WIN appends 8 bytes, and the last byte begins verification; a paused
write takes bytes and programs none; a full buffer or a failed flash write leaves the slot INVALID. An image that verifies
and meets UPD_EXPECT is VALID in flash and STAGED; one that does not leaves the slot INVALID with its code. The active
images stay throughout. A directory write that ends is the other copy of the directory, and the next one follows. Where the
spec leaves the reading open, it is the model's own (log entry 34). -/
def Obligations.UpdateBytes : Prop := ∀ (s : State) (data : BitVec 64) (n : Nat) (img : ImageIn),
  let u := s.upd
  let buf := u.buffer.drop n
  let k := u.kind
  let failed := fun (c : Instr) (e : Err) => NextIs (exec c s) (fun t => t.upd.state = .idle ∧ t.upd.session = u.pldm ∧
    t.upd.result = errCode e ∧ t.flashSlot k (s.spareFlash k) = { state := .invalid } ∧ t.upd.active = u.active ∧
    t.upd.inactive = u.inactive ∧ t = { s with upd := t.upd, errs := t.errs, host := t.host })
  (u.state = .receiving → u.pldm = false → buf.length + 8 ≤ updBuffer →
    (u.bytes + 8 < u.len → exec (.updWin data n true) s = .next { s with upd := { u with
      buffer := buf ++ leBytes 8 data.toNat, bytes := u.bytes + 8 } }) ∧
    (u.len ≤ u.bytes + 8 → exec (.updWin data n true) s = .next { s with upd := { u with
      buffer := [], bytes := u.len, state := .verifying } })) ∧
  (u.state = .paused → u.pldm = false → u.buffer.length + 8 ≤ updBuffer → ∀ ok, exec (.updWin data n ok) s = .next
    { s with upd := { u with buffer := u.buffer ++ leBytes 8 data.toNat, bytes := min u.len (u.bytes + 8) } }) ∧
  (u.state = .receiving → u.pldm = false → updBuffer < buf.length + 8 → failed (.updWin data n true) .updOverrun) ∧
  (u.state = .receiving → u.pldm = false → failed (.updWin data n false) .flashWrite) ∧
  (u.state = .idle ∨ u.state = .verifying ∨ u.state = .activating ∨ u.pldm = true → ∀ ok, exec (.updWin data n ok) s = .next s) ∧
  (u.state = .verifying → failed (.imageVerifyDone img false) .flashWrite) ∧
  (u.state = .verifying → slotSize k < u.len → failed (.imageVerifyDone img true) .imgFormat) ∧
  (∀ e, u.state = .verifying → u.len ≤ slotSize k → s.verifyImage k { img with bytes := img.bytes.take u.len } = .error e →
    failed (.imageVerifyDone img true) e) ∧
  (∀ r, u.state = .verifying → u.len ≤ slotSize k → s.verifyImage k { img with bytes := img.bytes.take u.len } = .ok r →
    (allZero u.expect = false → r.digest ≠ u.expect → failed (.imageVerifyDone img true) .imgDigest) ∧
    (allZero u.expect = true ∨ r.digest = u.expect → NextIs (exec (.imageVerifyDone img true) s) (fun t =>
      let m := { r with fslot := s.spareFlash k }
      t.upd.state = .idle ∧ t.upd.session = u.pldm ∧ t.upd.result = 0 ∧ t.upd.active = u.active ∧
      t.flashSlot k (s.spareFlash k) = { state := .valid, image := some m } ∧
      t.inactiveSlot k = some { staged := true, image := m } ∧ t = { s with upd := t.upd, host := t.host }))) ∧
  (u.state ≠ .verifying → ∀ ok, exec (.imageVerifyDone img ok) s = .next s) ∧
  (∀ d, u.dirBusy = some d → exec .directoryWritten s = .next { s with upd := { u with
    dirs := setAt u.dirs (1 - u.dirCopy) (some d), dirCopy := 1 - u.dirCopy, dirBusy := u.dirQueue.head?
    dirQueue := u.dirQueue.drop 1 } }) ∧
  (u.dirBusy = none → exec .directoryWritten s = .next s)

/-- PLDM firmware update over the sideband. A session starts when no other runs, takes the component table, and writes one
component at a time under the same rules as the PF's; its data advance the count and the last piece begins verification.
Activation takes the STAGED images, only with SelfContainedActivationRequest; cancelling a component leaves its slot INVALID
and the session open, cancelling the update ends it. Outside a session these answer and change nothing. The answers' codes
are of DSP0267, which the spec names (log entry 40). -/
def Obligations.PldmUpdate : Prop := ∀ (s : State) (ids : List Nat) (k len : Nat) (data : Bytes),
  let u := s.upd
  let answers := fun (t : State) (b : Bytes) => t.sec = { s.sec with replies := s.sec.replies ++ [(17, b)] }
  let busy := u.session = true ∨ u.state ≠ .idle
  let only := fun (c : Instr) (b : Bytes) => NextIs (exec c s) (fun t => answers t b ∧ t = { s with sec := t.sec })
  only .queryDeviceIdentifiers (pldmOk ++ leBytes 2 0x0FD7 ++ leBytes 8 s.sec.serial) ∧
  only .getStatus (pldmOk ++ leBytes 1 u.pldmState ++ leBytes 2 u.result) ∧
  NextIs (exec .getFirmwareParameters s) (fun t => t.sec.replies.length = s.sec.replies.length + 1 ∧
    t = { s with sec := { s.sec with replies := t.sec.replies } }) ∧
  (¬busy → NextIs (exec .requestUpdate s) (fun t => answers t pldmOk ∧
    t.upd = { u with session := true, pldm := true, pldmState := 1, comps := [] } ∧ t = { s with sec := t.sec, upd := t.upd })) ∧
  (busy → NextIs (exec .requestUpdate s) (fun t => answers t pldmBusy ∧
    t = { s with sec := t.sec, errs := t.errs, host := t.host })) ∧
  (u.pldm = true → u.pldmState = 1 → NextIs (exec (.passComponentTable ids) s) (fun t => answers t pldmOk ∧
    t.upd = { u with comps := ids, pldmState := 2 } ∧ t = { s with sec := t.sec, upd := t.upd })) ∧
  (u.pldm = true → u.pldmState ≠ 1 → only (.passComponentTable ids) pldmState) ∧
  (u.pldm = true → u.pldmState = 2 → 1 ≤ k → k ≤ 7 → s.updCause = 0 → NextIs (exec (.updateComponent k len) s) (fun t =>
    answers t pldmOk ∧ t.upd.state = (if len = 0 then .verifying else .receiving) ∧ t.upd.kind = k ∧ t.upd.len = len ∧
    t.upd.bytes = 0 ∧ t.upd.pldmState = 3 ∧
    t.flashSlot k (s.spareFlash k) = { state := .writing } ∧ t.upd.active = u.active ∧ t = { s with sec := t.sec, upd := t.upd })) ∧
  (u.pldm = true → u.pldmState = 2 → 1 ≤ k → k ≤ 7 → s.updCause ≠ 0 → NextIs (exec (.updateComponent k len) s) (fun t =>
    answers t pldmUnable ∧ t.upd = { u with result := errCode .updRefused, cause := s.updCause } ∧
    t = { s with sec := t.sec, upd := t.upd, errs := t.errs, host := t.host })) ∧
  (u.pldm = true → u.state = .receiving →
    (u.bytes + min 4096 data.length < u.len → exec (.firmwareData data true) s =
      .next { s with upd := { u with bytes := u.bytes + min 4096 data.length } }) ∧
    (u.len ≤ u.bytes + min 4096 data.length → exec (.firmwareData data true) s =
      .next { s with upd := { u with bytes := u.len, state := .verifying, buffer := [] } }) ∧
    NextIs (exec (.firmwareData data false) s) (fun t => t.upd.state = .idle ∧ t.upd.pldmState = 2 ∧ t.upd.session = true ∧
      t.upd.result = errCode .flashWrite ∧ t.flashSlot u.kind (s.spareFlash u.kind) = { state := .invalid } ∧
      t = { s with upd := t.upd, errs := t.errs, host := t.host })) ∧
  (u.pldm = false ∨ u.state ≠ .receiving → ∀ ok, exec (.firmwareData data ok) s = .next s) ∧
  (let ks := ((List.range 7).map (· + 1)).filter (fun n => (s.inactiveSlot n).any (fun c => c.staged))
   ∀ l order, u.pldm = true → u.pldmState = 2 → s.updCause = 0 → s.named ks = some l → l.any s.needsStop = false →
     fixOrder (fun n => (s.inactiveSlot n).map (fun c => c.image)) 8 ks u.active [] = some order →
     NextIs (exec (.activateFirmware true) s) (fun t => answers t pldmOk ∧
       t.upd = { u with state := .activating, session := true, order := order, cause := 0 } ∧
       t = { s with sec := t.sec, upd := t.upd })) ∧
  (u.pldm = true → only (.activateFirmware false) pldmNoActivate) ∧
  (u.pldm = true → u.writing = true → NextIs (exec .cancelUpdateComponent s) (fun t => answers t pldmOk ∧ t.upd.state = .idle ∧
    t.upd.session = true ∧ t.upd.pldmState = 2 ∧ t.flashSlot u.kind (s.spareFlash u.kind) = { state := .invalid } ∧
    t = { s with sec := t.sec, upd := t.upd, host := t.host })) ∧
  (u.pldm = true → u.writing = false → only .cancelUpdateComponent pldmState) ∧
  (u.pldm = true → NextIs (exec .cancelUpdate s) (fun t => answers t pldmOk ∧ t.upd.session = false ∧ t.upd.pldm = false ∧
    t.upd.pldmState = 0 ∧ t.upd.writing = false ∧ t.upd.active = u.active ∧
    t = { s with sec := t.sec, upd := t.upd, host := t.host })) ∧
  (u.pldm = false → ∀ c, c = .passComponentTable ids ∨ c = .updateComponent k len ∨ c = .activateFirmware true ∨
    c = .cancelUpdateComponent ∨ c = .cancelUpdate → only c pldmNotUpdating)
end

