-- ==== Sys2Proof/Laws/Map.lean ====
section
/-! SUPPORT. The laws of the sparse tables: a read after a write, writes elsewhere, and the canonical form that every
table operation keeps. -/
namespace Sys2Proof.Machine

variable {α : Type}

@[simp] theorem get_nil (d : α) (k : Nat) : get d [] k = d := rfl

theorem get_ins_same (d : α) (m : SMap α) (k : Nat) (v : α) : get d (ins m k v) k = v := by
  induction m with
  | nil => simp [ins, get]
  | cons x r ih =>
    obtain ⟨i, w⟩ := x
    by_cases h : i = k
    · simp [ins, get, h]
    · by_cases h' : k < i <;> simp [ins, get, h, h', ih]

theorem get_ins_ne (d : α) (m : SMap α) {k j : Nat} (v : α) (h : k ≠ j) : get d (ins m k v) j = get d m j := by
  induction m with
  | nil => simp [ins, get, h]
  | cons x r ih =>
    obtain ⟨i, w⟩ := x
    simp only [ins]
    split
    · next hi => subst hi; simp [get, h]
    · split
      · simp [get, h]
      · simp [get, ih]

theorem get_del_same (d : α) (m : SMap α) (k : Nat) : get d (del m k) k = d := by
  induction m with
  | nil => rfl
  | cons x r ih =>
    obtain ⟨i, w⟩ := x
    by_cases h : i = k <;> simp [del, get, h, ih]

theorem get_del_ne (d : α) (m : SMap α) {k j : Nat} (h : k ≠ j) : get d (del m k) j = get d m j := by
  induction m with
  | nil => rfl
  | cons x r ih =>
    obtain ⟨i, w⟩ := x
    simp only [del]
    split
    · next hi => subst hi; simp [get, h, ih]
    · simp [get, ih]

/-- A read after a write to the same key gives the value written, in any table. -/
@[simp] theorem get_put_same [DecidableEq α] (d : α) (m : SMap α) (k : Nat) (v : α) : get d (put d m k v) k = v := by
  unfold put
  split
  · next h => rw [get_del_same, h]
  · exact get_ins_same d m k v

/-- A write leaves every other key alone. -/
theorem get_put_ne [DecidableEq α] (d : α) (m : SMap α) {k j : Nat} (v : α) (h : k ≠ j) :
    get d (put d m k v) j = get d m j := by
  unfold put
  split
  · exact get_del_ne d m h
  · exact get_ins_ne d m v h

/-- A read after a write, whichever key is read. -/
theorem get_put [DecidableEq α] (d : α) (m : SMap α) (k j : Nat) (v : α) :
    get d (put d m k v) j = if k = j then v else get d m j := by
  by_cases h : k = j
  · subst h; simp
  · simp [h, get_put_ne d m v h]

/-! ### The canonical form -/

theorem keysAbove_mono {n p : Nat} (m : SMap α) (h : n ≤ p) (hm : keysAbove p m = true) : keysAbove n m = true := by
  cases m with
  | nil => rfl
  | cons x r =>
    simp only [keysAbove, Bool.and_eq_true, decide_eq_true_eq] at hm ⊢
    exact ⟨by omega, hm.2⟩

theorem keysAbove_ins {n k : Nat} (m : SMap α) (v : α) (hk : n < k) (hm : keysAbove n m = true) :
    keysAbove n (ins m k v) = true := by
  induction m generalizing n with
  | nil => simp [ins, keysAbove, hk]
  | cons x r ih =>
    obtain ⟨i, w⟩ := x
    simp only [keysAbove, Bool.and_eq_true, decide_eq_true_eq] at hm
    simp only [ins]
    split
    · next h => subst h; simp [keysAbove, hk, hm.2]
    · split
      · next h => simp [keysAbove, hk, h, hm.2]
      · next h h' => simp [keysAbove, hm.1, ih (by omega) hm.2]

theorem keysAbove_del {n k : Nat} (m : SMap α) (hm : keysAbove n m = true) : keysAbove n (del m k) = true := by
  induction m generalizing n with
  | nil => rfl
  | cons x r ih =>
    obtain ⟨i, w⟩ := x
    simp only [keysAbove, Bool.and_eq_true, decide_eq_true_eq] at hm
    simp only [del]
    split
    · exact ih (keysAbove_mono r (Nat.le_of_lt hm.1) hm.2)
    · simp [keysAbove, hm.1, ih hm.2]

theorem wfMap_ins [DecidableEq α] (d : α) (m : SMap α) (k : Nat) (v : α) (hv : v ≠ d) :
    wfMap d m = true → wfMap d (ins m k v) = true := by
  induction m with
  | nil => simp [ins, wfMap, keysAbove, hv]
  | cons x r ih =>
    obtain ⟨i, w⟩ := x
    simp only [wfMap, Bool.and_eq_true, decide_eq_true_eq]
    intro ⟨⟨a, b⟩, c⟩
    simp only [ins]
    split
    · next h => subst h; simp [wfMap, hv, b, c]
    · split
      · next h => simp [wfMap, keysAbove, hv, a, b, c, h]
      · next h h' =>
        have hk : i < k := by omega
        simp [wfMap, a, ih c, keysAbove_ins r v hk b]

theorem wfMap_del [DecidableEq α] (d : α) (m : SMap α) (k : Nat) :
    wfMap d m = true → wfMap d (del m k) = true := by
  induction m with
  | nil => simp [del, wfMap]
  | cons x r ih =>
    obtain ⟨i, w⟩ := x
    simp only [wfMap, Bool.and_eq_true, decide_eq_true_eq]
    intro ⟨⟨a, b⟩, c⟩
    simp only [del]
    split
    · exact ih c
    · simp [wfMap, a, ih c, keysAbove_del r b]

/-- A write keeps the canonical form. -/
theorem wfMap_put [DecidableEq α] (d : α) (m : SMap α) (k : Nat) (v : α) (h : wfMap d m = true) :
    wfMap d (put d m k v) = true := by
  unfold put
  split
  · exact wfMap_del d m k h
  · next hv => exact wfMap_ins d m k v hv h

theorem keysAbove_filter {n : Nat} (m : SMap α) (f : Nat × α → Bool) (hm : keysAbove n m = true) :
    keysAbove n (m.filter f) = true := by
  induction m generalizing n with
  | nil => rfl
  | cons x r ih =>
    obtain ⟨i, w⟩ := x
    simp only [keysAbove, Bool.and_eq_true, decide_eq_true_eq] at hm
    by_cases h : f (i, w)
    · simp [h, keysAbove, hm.1, ih hm.2]
    · simp [h, ih (keysAbove_mono r (Nat.le_of_lt hm.1) hm.2)]

/-- Dropping pairs keeps the canonical form. -/
theorem wfMap_filter [DecidableEq α] (d : α) (m : SMap α) (f : Nat × α → Bool) :
    wfMap d m = true → wfMap d (m.filter f) = true := by
  induction m with
  | nil => simp [wfMap]
  | cons x r ih =>
    obtain ⟨i, w⟩ := x
    simp only [wfMap, Bool.and_eq_true, decide_eq_true_eq]
    intro ⟨⟨a, b⟩, c⟩
    by_cases h : f (i, w) <;> simp [h, wfMap, a, ih c, keysAbove_filter r f b]

end Sys2Proof.Machine
end

