-- ==== Sys2Proof/Laws/State.lean ====
section
/-! SUPPORT. What each named update of the state leaves alone and what it writes: one lemma per field per update, so that
no proof unfolds a record update. -/
namespace Sys2Proof.Machine

variable (s : State)

/-! ### modVat -/

@[simp] theorem State.modVat_pending (v : Nat) (f : Vat → Vat) : (s.modVat v f).pending = s.pending := rfl
@[simp] theorem State.modVat_power (v : Nat) (f : Vat → Vat) : (s.modVat v f).power = s.power := rfl
@[simp] theorem State.modVat_tick (v : Nat) (f : Vat → Vat) : (s.modVat v f).tick = s.tick := rfl
@[simp] theorem State.modVat_regs (v : Nat) (f : Vat → Vat) : (s.modVat v f).regs = s.regs := rfl
@[simp] theorem State.modVat_shadows (v : Nat) (f : Vat → Vat) : (s.modVat v f).shadows = s.shadows := rfl
@[simp] theorem State.modVat_errs (v : Nat) (f : Vat → Vat) : (s.modVat v f).errs = s.errs := rfl
@[simp] theorem State.modVat_host (v : Nat) (f : Vat → Vat) : (s.modVat v f).host = s.host := rfl
@[simp] theorem State.modVat_groups (v : Nat) (f : Vat → Vat) : (s.modVat v f).groups = s.groups := rfl
@[simp] theorem State.modVat_therm (v : Nat) (f : Vat → Vat) : (s.modVat v f).therm = s.therm := rfl
@[simp] theorem State.modVat_sessions (v : Nat) (f : Vat → Vat) : (s.modVat v f).sessions = s.sessions := rfl
@[simp] theorem State.modVat_deckles (v : Nat) (f : Vat → Vat) : (s.modVat v f).deckles = s.deckles := rfl
@[simp] theorem State.modVat_sched (v : Nat) (f : Vat → Vat) : (s.modVat v f).sched = s.sched := rfl
@[simp] theorem State.modVat_mem (v : Nat) (f : Vat → Vat) : (s.modVat v f).mem = s.mem := rfl
@[simp] theorem State.modVat_owners (v : Nat) (f : Vat → Vat) : (s.modVat v f).owners = s.owners := rfl
@[simp] theorem State.modVat_pageOut (v : Nat) (f : Vat → Vat) : (s.modVat v f).pageOut = s.pageOut := rfl
@[simp] theorem State.modVat_memStat (v : Nat) (f : Vat → Vat) : (s.modVat v f).memStat = s.memStat := rfl
@[simp] theorem State.modVat_slots (v : Nat) (f : Vat → Vat) : (s.modVat v f).slots = s.slots := rfl
@[simp] theorem State.modVat_quires (v : Nat) (f : Vat → Vat) : (s.modVat v f).quires = s.quires := rfl
@[simp] theorem State.modVat_ports (v : Nat) (f : Vat → Vat) : (s.modVat v f).ports = s.ports := rfl
@[simp] theorem State.modVat_torus (v : Nat) (f : Vat → Vat) : (s.modVat v f).torus = s.torus := rfl
@[simp] theorem State.modVat_sec (v : Nat) (f : Vat → Vat) : (s.modVat v f).sec = s.sec := rfl
@[simp] theorem State.modVat_upd (v : Nat) (f : Vat → Vat) : (s.modVat v f).upd = s.upd := rfl
@[simp] theorem State.modVat_test (v : Nat) (f : Vat → Vat) : (s.modVat v f).test = s.test := rfl
@[simp] theorem State.modVat_kvSat (v : Nat) (f : Vat → Vat) : (s.modVat v f).kvSat = s.kvSat := rfl
@[simp] theorem State.modVat_swapOuts (v : Nat) (f : Vat → Vat) : (s.modVat v f).swapOuts = s.swapOuts := rfl
@[simp] theorem State.modVat_swapIns (v : Nat) (f : Vat → Vat) : (s.modVat v f).swapIns = s.swapIns := rfl
@[simp] theorem State.modVat_rejects (v : Nat) (f : Vat → Vat) : (s.modVat v f).rejects = s.rejects := rfl
@[simp] theorem State.modVat_histSnap (v : Nat) (f : Vat → Vat) : (s.modVat v f).histSnap = s.histSnap := rfl
@[simp] theorem State.modVat_reloads (v : Nat) (f : Vat → Vat) : (s.modVat v f).reloads = s.reloads := rfl
@[simp] theorem State.modVat_sessShown (v : Nat) (f : Vat → Vat) : (s.modVat v f).sessShown = s.sessShown := rfl
@[simp] theorem State.modVat_groupShown (v : Nat) (f : Vat → Vat) : (s.modVat v f).groupShown = s.groupShown := rfl
@[simp] theorem State.modVat_free (v : Nat) (f : Vat → Vat) : (s.modVat v f).free = s.free := rfl

/-! ### modGroup -/

@[simp] theorem State.modGroup_pending (v p : Nat) (f : Group → Group) : (s.modGroup v p f).pending = s.pending := rfl
@[simp] theorem State.modGroup_power (v p : Nat) (f : Group → Group) : (s.modGroup v p f).power = s.power := rfl
@[simp] theorem State.modGroup_tick (v p : Nat) (f : Group → Group) : (s.modGroup v p f).tick = s.tick := rfl
@[simp] theorem State.modGroup_regs (v p : Nat) (f : Group → Group) : (s.modGroup v p f).regs = s.regs := rfl
@[simp] theorem State.modGroup_shadows (v p : Nat) (f : Group → Group) : (s.modGroup v p f).shadows = s.shadows := rfl
@[simp] theorem State.modGroup_errs (v p : Nat) (f : Group → Group) : (s.modGroup v p f).errs = s.errs := rfl
@[simp] theorem State.modGroup_host (v p : Nat) (f : Group → Group) : (s.modGroup v p f).host = s.host := rfl
@[simp] theorem State.modGroup_vats (v p : Nat) (f : Group → Group) : (s.modGroup v p f).vats = s.vats := rfl
@[simp] theorem State.modGroup_therm (v p : Nat) (f : Group → Group) : (s.modGroup v p f).therm = s.therm := rfl
@[simp] theorem State.modGroup_sessions (v p : Nat) (f : Group → Group) : (s.modGroup v p f).sessions = s.sessions := rfl
@[simp] theorem State.modGroup_deckles (v p : Nat) (f : Group → Group) : (s.modGroup v p f).deckles = s.deckles := rfl
@[simp] theorem State.modGroup_sched (v p : Nat) (f : Group → Group) : (s.modGroup v p f).sched = s.sched := rfl
@[simp] theorem State.modGroup_mem (v p : Nat) (f : Group → Group) : (s.modGroup v p f).mem = s.mem := rfl
@[simp] theorem State.modGroup_owners (v p : Nat) (f : Group → Group) : (s.modGroup v p f).owners = s.owners := rfl
@[simp] theorem State.modGroup_pageOut (v p : Nat) (f : Group → Group) : (s.modGroup v p f).pageOut = s.pageOut := rfl
@[simp] theorem State.modGroup_memStat (v p : Nat) (f : Group → Group) : (s.modGroup v p f).memStat = s.memStat := rfl
@[simp] theorem State.modGroup_slots (v p : Nat) (f : Group → Group) : (s.modGroup v p f).slots = s.slots := rfl
@[simp] theorem State.modGroup_quires (v p : Nat) (f : Group → Group) : (s.modGroup v p f).quires = s.quires := rfl
@[simp] theorem State.modGroup_ports (v p : Nat) (f : Group → Group) : (s.modGroup v p f).ports = s.ports := rfl
@[simp] theorem State.modGroup_torus (v p : Nat) (f : Group → Group) : (s.modGroup v p f).torus = s.torus := rfl
@[simp] theorem State.modGroup_sec (v p : Nat) (f : Group → Group) : (s.modGroup v p f).sec = s.sec := rfl
@[simp] theorem State.modGroup_upd (v p : Nat) (f : Group → Group) : (s.modGroup v p f).upd = s.upd := rfl
@[simp] theorem State.modGroup_test (v p : Nat) (f : Group → Group) : (s.modGroup v p f).test = s.test := rfl
@[simp] theorem State.modGroup_kvSat (v p : Nat) (f : Group → Group) : (s.modGroup v p f).kvSat = s.kvSat := rfl
@[simp] theorem State.modGroup_swapOuts (v p : Nat) (f : Group → Group) : (s.modGroup v p f).swapOuts = s.swapOuts := rfl
@[simp] theorem State.modGroup_swapIns (v p : Nat) (f : Group → Group) : (s.modGroup v p f).swapIns = s.swapIns := rfl
@[simp] theorem State.modGroup_rejects (v p : Nat) (f : Group → Group) : (s.modGroup v p f).rejects = s.rejects := rfl
@[simp] theorem State.modGroup_histSnap (v p : Nat) (f : Group → Group) : (s.modGroup v p f).histSnap = s.histSnap := rfl
@[simp] theorem State.modGroup_reloads (v p : Nat) (f : Group → Group) : (s.modGroup v p f).reloads = s.reloads := rfl
@[simp] theorem State.modGroup_sessShown (v p : Nat) (f : Group → Group) : (s.modGroup v p f).sessShown = s.sessShown := rfl
@[simp] theorem State.modGroup_groupShown (v p : Nat) (f : Group → Group) : (s.modGroup v p f).groupShown = s.groupShown := rfl
@[simp] theorem State.modGroup_free (v p : Nat) (f : Group → Group) : (s.modGroup v p f).free = s.free := rfl

/-! ### modSession -/

@[simp] theorem State.modSession_pending (i : Nat) (f : Session → Session) : (s.modSession i f).pending = s.pending := rfl
@[simp] theorem State.modSession_power (i : Nat) (f : Session → Session) : (s.modSession i f).power = s.power := rfl
@[simp] theorem State.modSession_tick (i : Nat) (f : Session → Session) : (s.modSession i f).tick = s.tick := rfl
@[simp] theorem State.modSession_regs (i : Nat) (f : Session → Session) : (s.modSession i f).regs = s.regs := rfl
@[simp] theorem State.modSession_shadows (i : Nat) (f : Session → Session) : (s.modSession i f).shadows = s.shadows := rfl
@[simp] theorem State.modSession_errs (i : Nat) (f : Session → Session) : (s.modSession i f).errs = s.errs := rfl
@[simp] theorem State.modSession_host (i : Nat) (f : Session → Session) : (s.modSession i f).host = s.host := rfl
@[simp] theorem State.modSession_vats (i : Nat) (f : Session → Session) : (s.modSession i f).vats = s.vats := rfl
@[simp] theorem State.modSession_groups (i : Nat) (f : Session → Session) : (s.modSession i f).groups = s.groups := rfl
@[simp] theorem State.modSession_therm (i : Nat) (f : Session → Session) : (s.modSession i f).therm = s.therm := rfl
@[simp] theorem State.modSession_deckles (i : Nat) (f : Session → Session) : (s.modSession i f).deckles = s.deckles := rfl
@[simp] theorem State.modSession_sched (i : Nat) (f : Session → Session) : (s.modSession i f).sched = s.sched := rfl
@[simp] theorem State.modSession_mem (i : Nat) (f : Session → Session) : (s.modSession i f).mem = s.mem := rfl
@[simp] theorem State.modSession_owners (i : Nat) (f : Session → Session) : (s.modSession i f).owners = s.owners := rfl
@[simp] theorem State.modSession_pageOut (i : Nat) (f : Session → Session) : (s.modSession i f).pageOut = s.pageOut := rfl
@[simp] theorem State.modSession_memStat (i : Nat) (f : Session → Session) : (s.modSession i f).memStat = s.memStat := rfl
@[simp] theorem State.modSession_slots (i : Nat) (f : Session → Session) : (s.modSession i f).slots = s.slots := rfl
@[simp] theorem State.modSession_quires (i : Nat) (f : Session → Session) : (s.modSession i f).quires = s.quires := rfl
@[simp] theorem State.modSession_ports (i : Nat) (f : Session → Session) : (s.modSession i f).ports = s.ports := rfl
@[simp] theorem State.modSession_torus (i : Nat) (f : Session → Session) : (s.modSession i f).torus = s.torus := rfl
@[simp] theorem State.modSession_sec (i : Nat) (f : Session → Session) : (s.modSession i f).sec = s.sec := rfl
@[simp] theorem State.modSession_upd (i : Nat) (f : Session → Session) : (s.modSession i f).upd = s.upd := rfl
@[simp] theorem State.modSession_test (i : Nat) (f : Session → Session) : (s.modSession i f).test = s.test := rfl
@[simp] theorem State.modSession_kvSat (i : Nat) (f : Session → Session) : (s.modSession i f).kvSat = s.kvSat := rfl
@[simp] theorem State.modSession_swapOuts (i : Nat) (f : Session → Session) : (s.modSession i f).swapOuts = s.swapOuts := rfl
@[simp] theorem State.modSession_swapIns (i : Nat) (f : Session → Session) : (s.modSession i f).swapIns = s.swapIns := rfl
@[simp] theorem State.modSession_rejects (i : Nat) (f : Session → Session) : (s.modSession i f).rejects = s.rejects := rfl
@[simp] theorem State.modSession_histSnap (i : Nat) (f : Session → Session) : (s.modSession i f).histSnap = s.histSnap := rfl
@[simp] theorem State.modSession_reloads (i : Nat) (f : Session → Session) : (s.modSession i f).reloads = s.reloads := rfl
@[simp] theorem State.modSession_sessShown (i : Nat) (f : Session → Session) : (s.modSession i f).sessShown = s.sessShown := rfl
@[simp] theorem State.modSession_groupShown (i : Nat) (f : Session → Session) : (s.modSession i f).groupShown = s.groupShown := rfl
@[simp] theorem State.modSession_free (i : Nat) (f : Session → Session) : (s.modSession i f).free = s.free := rfl

/-! ### modDeckle -/

@[simp] theorem State.modDeckle_pending (d : Nat) (f : Deckle → Deckle) : (s.modDeckle d f).pending = s.pending := rfl
@[simp] theorem State.modDeckle_power (d : Nat) (f : Deckle → Deckle) : (s.modDeckle d f).power = s.power := rfl
@[simp] theorem State.modDeckle_tick (d : Nat) (f : Deckle → Deckle) : (s.modDeckle d f).tick = s.tick := rfl
@[simp] theorem State.modDeckle_regs (d : Nat) (f : Deckle → Deckle) : (s.modDeckle d f).regs = s.regs := rfl
@[simp] theorem State.modDeckle_shadows (d : Nat) (f : Deckle → Deckle) : (s.modDeckle d f).shadows = s.shadows := rfl
@[simp] theorem State.modDeckle_errs (d : Nat) (f : Deckle → Deckle) : (s.modDeckle d f).errs = s.errs := rfl
@[simp] theorem State.modDeckle_host (d : Nat) (f : Deckle → Deckle) : (s.modDeckle d f).host = s.host := rfl
@[simp] theorem State.modDeckle_vats (d : Nat) (f : Deckle → Deckle) : (s.modDeckle d f).vats = s.vats := rfl
@[simp] theorem State.modDeckle_groups (d : Nat) (f : Deckle → Deckle) : (s.modDeckle d f).groups = s.groups := rfl
@[simp] theorem State.modDeckle_therm (d : Nat) (f : Deckle → Deckle) : (s.modDeckle d f).therm = s.therm := rfl
@[simp] theorem State.modDeckle_sessions (d : Nat) (f : Deckle → Deckle) : (s.modDeckle d f).sessions = s.sessions := rfl
@[simp] theorem State.modDeckle_sched (d : Nat) (f : Deckle → Deckle) : (s.modDeckle d f).sched = s.sched := rfl
@[simp] theorem State.modDeckle_mem (d : Nat) (f : Deckle → Deckle) : (s.modDeckle d f).mem = s.mem := rfl
@[simp] theorem State.modDeckle_owners (d : Nat) (f : Deckle → Deckle) : (s.modDeckle d f).owners = s.owners := rfl
@[simp] theorem State.modDeckle_pageOut (d : Nat) (f : Deckle → Deckle) : (s.modDeckle d f).pageOut = s.pageOut := rfl
@[simp] theorem State.modDeckle_memStat (d : Nat) (f : Deckle → Deckle) : (s.modDeckle d f).memStat = s.memStat := rfl
@[simp] theorem State.modDeckle_slots (d : Nat) (f : Deckle → Deckle) : (s.modDeckle d f).slots = s.slots := rfl
@[simp] theorem State.modDeckle_quires (d : Nat) (f : Deckle → Deckle) : (s.modDeckle d f).quires = s.quires := rfl
@[simp] theorem State.modDeckle_ports (d : Nat) (f : Deckle → Deckle) : (s.modDeckle d f).ports = s.ports := rfl
@[simp] theorem State.modDeckle_torus (d : Nat) (f : Deckle → Deckle) : (s.modDeckle d f).torus = s.torus := rfl
@[simp] theorem State.modDeckle_sec (d : Nat) (f : Deckle → Deckle) : (s.modDeckle d f).sec = s.sec := rfl
@[simp] theorem State.modDeckle_upd (d : Nat) (f : Deckle → Deckle) : (s.modDeckle d f).upd = s.upd := rfl
@[simp] theorem State.modDeckle_test (d : Nat) (f : Deckle → Deckle) : (s.modDeckle d f).test = s.test := rfl
@[simp] theorem State.modDeckle_kvSat (d : Nat) (f : Deckle → Deckle) : (s.modDeckle d f).kvSat = s.kvSat := rfl
@[simp] theorem State.modDeckle_swapOuts (d : Nat) (f : Deckle → Deckle) : (s.modDeckle d f).swapOuts = s.swapOuts := rfl
@[simp] theorem State.modDeckle_swapIns (d : Nat) (f : Deckle → Deckle) : (s.modDeckle d f).swapIns = s.swapIns := rfl
@[simp] theorem State.modDeckle_rejects (d : Nat) (f : Deckle → Deckle) : (s.modDeckle d f).rejects = s.rejects := rfl
@[simp] theorem State.modDeckle_histSnap (d : Nat) (f : Deckle → Deckle) : (s.modDeckle d f).histSnap = s.histSnap := rfl
@[simp] theorem State.modDeckle_reloads (d : Nat) (f : Deckle → Deckle) : (s.modDeckle d f).reloads = s.reloads := rfl
@[simp] theorem State.modDeckle_sessShown (d : Nat) (f : Deckle → Deckle) : (s.modDeckle d f).sessShown = s.sessShown := rfl
@[simp] theorem State.modDeckle_groupShown (d : Nat) (f : Deckle → Deckle) : (s.modDeckle d f).groupShown = s.groupShown := rfl
@[simp] theorem State.modDeckle_free (d : Nat) (f : Deckle → Deckle) : (s.modDeckle d f).free = s.free := rfl

/-! ### modSlot -/

@[simp] theorem State.modSlot_pending (k : Nat) (f : Slot → Slot) : (s.modSlot k f).pending = s.pending := rfl
@[simp] theorem State.modSlot_power (k : Nat) (f : Slot → Slot) : (s.modSlot k f).power = s.power := rfl
@[simp] theorem State.modSlot_tick (k : Nat) (f : Slot → Slot) : (s.modSlot k f).tick = s.tick := rfl
@[simp] theorem State.modSlot_regs (k : Nat) (f : Slot → Slot) : (s.modSlot k f).regs = s.regs := rfl
@[simp] theorem State.modSlot_shadows (k : Nat) (f : Slot → Slot) : (s.modSlot k f).shadows = s.shadows := rfl
@[simp] theorem State.modSlot_errs (k : Nat) (f : Slot → Slot) : (s.modSlot k f).errs = s.errs := rfl
@[simp] theorem State.modSlot_host (k : Nat) (f : Slot → Slot) : (s.modSlot k f).host = s.host := rfl
@[simp] theorem State.modSlot_vats (k : Nat) (f : Slot → Slot) : (s.modSlot k f).vats = s.vats := rfl
@[simp] theorem State.modSlot_groups (k : Nat) (f : Slot → Slot) : (s.modSlot k f).groups = s.groups := rfl
@[simp] theorem State.modSlot_therm (k : Nat) (f : Slot → Slot) : (s.modSlot k f).therm = s.therm := rfl
@[simp] theorem State.modSlot_sessions (k : Nat) (f : Slot → Slot) : (s.modSlot k f).sessions = s.sessions := rfl
@[simp] theorem State.modSlot_deckles (k : Nat) (f : Slot → Slot) : (s.modSlot k f).deckles = s.deckles := rfl
@[simp] theorem State.modSlot_sched (k : Nat) (f : Slot → Slot) : (s.modSlot k f).sched = s.sched := rfl
@[simp] theorem State.modSlot_mem (k : Nat) (f : Slot → Slot) : (s.modSlot k f).mem = s.mem := rfl
@[simp] theorem State.modSlot_owners (k : Nat) (f : Slot → Slot) : (s.modSlot k f).owners = s.owners := rfl
@[simp] theorem State.modSlot_pageOut (k : Nat) (f : Slot → Slot) : (s.modSlot k f).pageOut = s.pageOut := rfl
@[simp] theorem State.modSlot_memStat (k : Nat) (f : Slot → Slot) : (s.modSlot k f).memStat = s.memStat := rfl
@[simp] theorem State.modSlot_quires (k : Nat) (f : Slot → Slot) : (s.modSlot k f).quires = s.quires := rfl
@[simp] theorem State.modSlot_ports (k : Nat) (f : Slot → Slot) : (s.modSlot k f).ports = s.ports := rfl
@[simp] theorem State.modSlot_torus (k : Nat) (f : Slot → Slot) : (s.modSlot k f).torus = s.torus := rfl
@[simp] theorem State.modSlot_sec (k : Nat) (f : Slot → Slot) : (s.modSlot k f).sec = s.sec := rfl
@[simp] theorem State.modSlot_upd (k : Nat) (f : Slot → Slot) : (s.modSlot k f).upd = s.upd := rfl
@[simp] theorem State.modSlot_test (k : Nat) (f : Slot → Slot) : (s.modSlot k f).test = s.test := rfl
@[simp] theorem State.modSlot_kvSat (k : Nat) (f : Slot → Slot) : (s.modSlot k f).kvSat = s.kvSat := rfl
@[simp] theorem State.modSlot_swapOuts (k : Nat) (f : Slot → Slot) : (s.modSlot k f).swapOuts = s.swapOuts := rfl
@[simp] theorem State.modSlot_swapIns (k : Nat) (f : Slot → Slot) : (s.modSlot k f).swapIns = s.swapIns := rfl
@[simp] theorem State.modSlot_rejects (k : Nat) (f : Slot → Slot) : (s.modSlot k f).rejects = s.rejects := rfl
@[simp] theorem State.modSlot_histSnap (k : Nat) (f : Slot → Slot) : (s.modSlot k f).histSnap = s.histSnap := rfl
@[simp] theorem State.modSlot_reloads (k : Nat) (f : Slot → Slot) : (s.modSlot k f).reloads = s.reloads := rfl
@[simp] theorem State.modSlot_sessShown (k : Nat) (f : Slot → Slot) : (s.modSlot k f).sessShown = s.sessShown := rfl
@[simp] theorem State.modSlot_groupShown (k : Nat) (f : Slot → Slot) : (s.modSlot k f).groupShown = s.groupShown := rfl
@[simp] theorem State.modSlot_free (k : Nat) (f : Slot → Slot) : (s.modSlot k f).free = s.free := rfl

/-! ### modPort -/

@[simp] theorem State.modPort_pending (p : Nat) (f : Port → Port) : (s.modPort p f).pending = s.pending := rfl
@[simp] theorem State.modPort_power (p : Nat) (f : Port → Port) : (s.modPort p f).power = s.power := rfl
@[simp] theorem State.modPort_tick (p : Nat) (f : Port → Port) : (s.modPort p f).tick = s.tick := rfl
@[simp] theorem State.modPort_regs (p : Nat) (f : Port → Port) : (s.modPort p f).regs = s.regs := rfl
@[simp] theorem State.modPort_shadows (p : Nat) (f : Port → Port) : (s.modPort p f).shadows = s.shadows := rfl
@[simp] theorem State.modPort_errs (p : Nat) (f : Port → Port) : (s.modPort p f).errs = s.errs := rfl
@[simp] theorem State.modPort_host (p : Nat) (f : Port → Port) : (s.modPort p f).host = s.host := rfl
@[simp] theorem State.modPort_vats (p : Nat) (f : Port → Port) : (s.modPort p f).vats = s.vats := rfl
@[simp] theorem State.modPort_groups (p : Nat) (f : Port → Port) : (s.modPort p f).groups = s.groups := rfl
@[simp] theorem State.modPort_therm (p : Nat) (f : Port → Port) : (s.modPort p f).therm = s.therm := rfl
@[simp] theorem State.modPort_sessions (p : Nat) (f : Port → Port) : (s.modPort p f).sessions = s.sessions := rfl
@[simp] theorem State.modPort_deckles (p : Nat) (f : Port → Port) : (s.modPort p f).deckles = s.deckles := rfl
@[simp] theorem State.modPort_sched (p : Nat) (f : Port → Port) : (s.modPort p f).sched = s.sched := rfl
@[simp] theorem State.modPort_mem (p : Nat) (f : Port → Port) : (s.modPort p f).mem = s.mem := rfl
@[simp] theorem State.modPort_owners (p : Nat) (f : Port → Port) : (s.modPort p f).owners = s.owners := rfl
@[simp] theorem State.modPort_pageOut (p : Nat) (f : Port → Port) : (s.modPort p f).pageOut = s.pageOut := rfl
@[simp] theorem State.modPort_memStat (p : Nat) (f : Port → Port) : (s.modPort p f).memStat = s.memStat := rfl
@[simp] theorem State.modPort_slots (p : Nat) (f : Port → Port) : (s.modPort p f).slots = s.slots := rfl
@[simp] theorem State.modPort_quires (p : Nat) (f : Port → Port) : (s.modPort p f).quires = s.quires := rfl
@[simp] theorem State.modPort_torus (p : Nat) (f : Port → Port) : (s.modPort p f).torus = s.torus := rfl
@[simp] theorem State.modPort_sec (p : Nat) (f : Port → Port) : (s.modPort p f).sec = s.sec := rfl
@[simp] theorem State.modPort_upd (p : Nat) (f : Port → Port) : (s.modPort p f).upd = s.upd := rfl
@[simp] theorem State.modPort_test (p : Nat) (f : Port → Port) : (s.modPort p f).test = s.test := rfl
@[simp] theorem State.modPort_kvSat (p : Nat) (f : Port → Port) : (s.modPort p f).kvSat = s.kvSat := rfl
@[simp] theorem State.modPort_swapOuts (p : Nat) (f : Port → Port) : (s.modPort p f).swapOuts = s.swapOuts := rfl
@[simp] theorem State.modPort_swapIns (p : Nat) (f : Port → Port) : (s.modPort p f).swapIns = s.swapIns := rfl
@[simp] theorem State.modPort_rejects (p : Nat) (f : Port → Port) : (s.modPort p f).rejects = s.rejects := rfl
@[simp] theorem State.modPort_histSnap (p : Nat) (f : Port → Port) : (s.modPort p f).histSnap = s.histSnap := rfl
@[simp] theorem State.modPort_reloads (p : Nat) (f : Port → Port) : (s.modPort p f).reloads = s.reloads := rfl
@[simp] theorem State.modPort_sessShown (p : Nat) (f : Port → Port) : (s.modPort p f).sessShown = s.sessShown := rfl
@[simp] theorem State.modPort_groupShown (p : Nat) (f : Port → Port) : (s.modPort p f).groupShown = s.groupShown := rfl
@[simp] theorem State.modPort_free (p : Nat) (f : Port → Port) : (s.modPort p f).free = s.free := rfl

/-! ### modFunc -/

@[simp] theorem State.modFunc_pending (n : Nat) (f : Func → Func) : (s.modFunc n f).pending = s.pending := rfl
@[simp] theorem State.modFunc_power (n : Nat) (f : Func → Func) : (s.modFunc n f).power = s.power := rfl
@[simp] theorem State.modFunc_tick (n : Nat) (f : Func → Func) : (s.modFunc n f).tick = s.tick := rfl
@[simp] theorem State.modFunc_regs (n : Nat) (f : Func → Func) : (s.modFunc n f).regs = s.regs := rfl
@[simp] theorem State.modFunc_shadows (n : Nat) (f : Func → Func) : (s.modFunc n f).shadows = s.shadows := rfl
@[simp] theorem State.modFunc_errs (n : Nat) (f : Func → Func) : (s.modFunc n f).errs = s.errs := rfl
@[simp] theorem State.modFunc_vats (n : Nat) (f : Func → Func) : (s.modFunc n f).vats = s.vats := rfl
@[simp] theorem State.modFunc_groups (n : Nat) (f : Func → Func) : (s.modFunc n f).groups = s.groups := rfl
@[simp] theorem State.modFunc_therm (n : Nat) (f : Func → Func) : (s.modFunc n f).therm = s.therm := rfl
@[simp] theorem State.modFunc_sessions (n : Nat) (f : Func → Func) : (s.modFunc n f).sessions = s.sessions := rfl
@[simp] theorem State.modFunc_deckles (n : Nat) (f : Func → Func) : (s.modFunc n f).deckles = s.deckles := rfl
@[simp] theorem State.modFunc_sched (n : Nat) (f : Func → Func) : (s.modFunc n f).sched = s.sched := rfl
@[simp] theorem State.modFunc_mem (n : Nat) (f : Func → Func) : (s.modFunc n f).mem = s.mem := rfl
@[simp] theorem State.modFunc_owners (n : Nat) (f : Func → Func) : (s.modFunc n f).owners = s.owners := rfl
@[simp] theorem State.modFunc_pageOut (n : Nat) (f : Func → Func) : (s.modFunc n f).pageOut = s.pageOut := rfl
@[simp] theorem State.modFunc_memStat (n : Nat) (f : Func → Func) : (s.modFunc n f).memStat = s.memStat := rfl
@[simp] theorem State.modFunc_slots (n : Nat) (f : Func → Func) : (s.modFunc n f).slots = s.slots := rfl
@[simp] theorem State.modFunc_quires (n : Nat) (f : Func → Func) : (s.modFunc n f).quires = s.quires := rfl
@[simp] theorem State.modFunc_ports (n : Nat) (f : Func → Func) : (s.modFunc n f).ports = s.ports := rfl
@[simp] theorem State.modFunc_torus (n : Nat) (f : Func → Func) : (s.modFunc n f).torus = s.torus := rfl
@[simp] theorem State.modFunc_sec (n : Nat) (f : Func → Func) : (s.modFunc n f).sec = s.sec := rfl
@[simp] theorem State.modFunc_upd (n : Nat) (f : Func → Func) : (s.modFunc n f).upd = s.upd := rfl
@[simp] theorem State.modFunc_test (n : Nat) (f : Func → Func) : (s.modFunc n f).test = s.test := rfl
@[simp] theorem State.modFunc_kvSat (n : Nat) (f : Func → Func) : (s.modFunc n f).kvSat = s.kvSat := rfl
@[simp] theorem State.modFunc_swapOuts (n : Nat) (f : Func → Func) : (s.modFunc n f).swapOuts = s.swapOuts := rfl
@[simp] theorem State.modFunc_swapIns (n : Nat) (f : Func → Func) : (s.modFunc n f).swapIns = s.swapIns := rfl
@[simp] theorem State.modFunc_rejects (n : Nat) (f : Func → Func) : (s.modFunc n f).rejects = s.rejects := rfl
@[simp] theorem State.modFunc_histSnap (n : Nat) (f : Func → Func) : (s.modFunc n f).histSnap = s.histSnap := rfl
@[simp] theorem State.modFunc_reloads (n : Nat) (f : Func → Func) : (s.modFunc n f).reloads = s.reloads := rfl
@[simp] theorem State.modFunc_sessShown (n : Nat) (f : Func → Func) : (s.modFunc n f).sessShown = s.sessShown := rfl
@[simp] theorem State.modFunc_groupShown (n : Nat) (f : Func → Func) : (s.modFunc n f).groupShown = s.groupShown := rfl
@[simp] theorem State.modFunc_free (n : Nat) (f : Func → Func) : (s.modFunc n f).free = s.free := rfl
@[simp] theorem State.modFunc_host_started (n : Nat) (f : Func → Func) : (s.modFunc n f).host.started = s.host.started := rfl
@[simp] theorem State.modFunc_host_perstN (n : Nat) (f : Func → Func) : (s.modFunc n f).host.perstN = s.host.perstN := rfl
@[simp] theorem State.modFunc_host_linkUp (n : Nat) (f : Func → Func) : (s.modFunc n f).host.linkUp = s.host.linkUp := rfl
@[simp] theorem State.modFunc_host_stopIssue (n : Nat) (f : Func → Func) : (s.modFunc n f).host.stopIssue = s.host.stopIssue := rfl
@[simp] theorem State.modFunc_host_vfs (n : Nat) (f : Func → Func) : (s.modFunc n f).host.vfs = s.host.vfs := rfl
@[simp] theorem State.modFunc_host_pfRecs (n : Nat) (f : Func → Func) : (s.modFunc n f).host.pfRecs = s.host.pfRecs := rfl
@[simp] theorem State.modFunc_host_posted (n : Nat) (f : Func → Func) : (s.modFunc n f).host.posted = s.host.posted := rfl
@[simp] theorem State.modFunc_host_ideLink (n : Nat) (f : Func → Func) : (s.modFunc n f).host.ideLink = s.host.ideLink := rfl
@[simp] theorem State.modFunc_host_ideSel (n : Nat) (f : Func → Func) : (s.modFunc n f).host.ideSel = s.host.ideSel := rfl

/-! ### modPage -/

@[simp] theorem State.modPage_pending (p : Nat) (f : PageRegs → PageRegs) : (s.modPage p f).pending = s.pending := rfl
@[simp] theorem State.modPage_power (p : Nat) (f : PageRegs → PageRegs) : (s.modPage p f).power = s.power := rfl
@[simp] theorem State.modPage_tick (p : Nat) (f : PageRegs → PageRegs) : (s.modPage p f).tick = s.tick := rfl
@[simp] theorem State.modPage_regs (p : Nat) (f : PageRegs → PageRegs) : (s.modPage p f).regs = s.regs := rfl
@[simp] theorem State.modPage_shadows (p : Nat) (f : PageRegs → PageRegs) : (s.modPage p f).shadows = s.shadows := rfl
@[simp] theorem State.modPage_host (p : Nat) (f : PageRegs → PageRegs) : (s.modPage p f).host = s.host := rfl
@[simp] theorem State.modPage_vats (p : Nat) (f : PageRegs → PageRegs) : (s.modPage p f).vats = s.vats := rfl
@[simp] theorem State.modPage_groups (p : Nat) (f : PageRegs → PageRegs) : (s.modPage p f).groups = s.groups := rfl
@[simp] theorem State.modPage_therm (p : Nat) (f : PageRegs → PageRegs) : (s.modPage p f).therm = s.therm := rfl
@[simp] theorem State.modPage_sessions (p : Nat) (f : PageRegs → PageRegs) : (s.modPage p f).sessions = s.sessions := rfl
@[simp] theorem State.modPage_deckles (p : Nat) (f : PageRegs → PageRegs) : (s.modPage p f).deckles = s.deckles := rfl
@[simp] theorem State.modPage_sched (p : Nat) (f : PageRegs → PageRegs) : (s.modPage p f).sched = s.sched := rfl
@[simp] theorem State.modPage_mem (p : Nat) (f : PageRegs → PageRegs) : (s.modPage p f).mem = s.mem := rfl
@[simp] theorem State.modPage_owners (p : Nat) (f : PageRegs → PageRegs) : (s.modPage p f).owners = s.owners := rfl
@[simp] theorem State.modPage_pageOut (p : Nat) (f : PageRegs → PageRegs) : (s.modPage p f).pageOut = s.pageOut := rfl
@[simp] theorem State.modPage_memStat (p : Nat) (f : PageRegs → PageRegs) : (s.modPage p f).memStat = s.memStat := rfl
@[simp] theorem State.modPage_slots (p : Nat) (f : PageRegs → PageRegs) : (s.modPage p f).slots = s.slots := rfl
@[simp] theorem State.modPage_quires (p : Nat) (f : PageRegs → PageRegs) : (s.modPage p f).quires = s.quires := rfl
@[simp] theorem State.modPage_ports (p : Nat) (f : PageRegs → PageRegs) : (s.modPage p f).ports = s.ports := rfl
@[simp] theorem State.modPage_torus (p : Nat) (f : PageRegs → PageRegs) : (s.modPage p f).torus = s.torus := rfl
@[simp] theorem State.modPage_sec (p : Nat) (f : PageRegs → PageRegs) : (s.modPage p f).sec = s.sec := rfl
@[simp] theorem State.modPage_upd (p : Nat) (f : PageRegs → PageRegs) : (s.modPage p f).upd = s.upd := rfl
@[simp] theorem State.modPage_test (p : Nat) (f : PageRegs → PageRegs) : (s.modPage p f).test = s.test := rfl
@[simp] theorem State.modPage_kvSat (p : Nat) (f : PageRegs → PageRegs) : (s.modPage p f).kvSat = s.kvSat := rfl
@[simp] theorem State.modPage_swapOuts (p : Nat) (f : PageRegs → PageRegs) : (s.modPage p f).swapOuts = s.swapOuts := rfl
@[simp] theorem State.modPage_swapIns (p : Nat) (f : PageRegs → PageRegs) : (s.modPage p f).swapIns = s.swapIns := rfl
@[simp] theorem State.modPage_rejects (p : Nat) (f : PageRegs → PageRegs) : (s.modPage p f).rejects = s.rejects := rfl
@[simp] theorem State.modPage_histSnap (p : Nat) (f : PageRegs → PageRegs) : (s.modPage p f).histSnap = s.histSnap := rfl
@[simp] theorem State.modPage_reloads (p : Nat) (f : PageRegs → PageRegs) : (s.modPage p f).reloads = s.reloads := rfl
@[simp] theorem State.modPage_sessShown (p : Nat) (f : PageRegs → PageRegs) : (s.modPage p f).sessShown = s.sessShown := rfl
@[simp] theorem State.modPage_groupShown (p : Nat) (f : PageRegs → PageRegs) : (s.modPage p f).groupShown = s.groupShown := rfl
@[simp] theorem State.modPage_free (p : Nat) (f : PageRegs → PageRegs) : (s.modPage p f).free = s.free := rfl
@[simp] theorem State.modPage_errs_history (p : Nat) (f : PageRegs → PageRegs) : (s.modPage p f).errs.history = s.errs.history := rfl
@[simp] theorem State.modPage_errs_events (p : Nat) (f : PageRegs → PageRegs) : (s.modPage p f).errs.events = s.errs.events := rfl
@[simp] theorem State.modPage_errs_eventLost (p : Nat) (f : PageRegs → PageRegs) : (s.modPage p f).errs.eventLost = s.errs.eventLost := rfl
@[simp] theorem State.modPage_errs_last16 (p : Nat) (f : PageRegs → PageRegs) : (s.modPage p f).errs.last16 = s.errs.last16 := rfl
@[simp] theorem State.modPage_errs_sent (p : Nat) (f : PageRegs → PageRegs) : (s.modPage p f).errs.sent = s.errs.sent := rfl

/-! ### setReg -/

@[simp] theorem State.setReg_pending (g : Fld) (c v : Nat) : (s.setReg g c v).pending = s.pending := rfl
@[simp] theorem State.setReg_power (g : Fld) (c v : Nat) : (s.setReg g c v).power = s.power := rfl
@[simp] theorem State.setReg_tick (g : Fld) (c v : Nat) : (s.setReg g c v).tick = s.tick := rfl
@[simp] theorem State.setReg_shadows (g : Fld) (c v : Nat) : (s.setReg g c v).shadows = s.shadows := rfl
@[simp] theorem State.setReg_errs (g : Fld) (c v : Nat) : (s.setReg g c v).errs = s.errs := rfl
@[simp] theorem State.setReg_host (g : Fld) (c v : Nat) : (s.setReg g c v).host = s.host := rfl
@[simp] theorem State.setReg_vats (g : Fld) (c v : Nat) : (s.setReg g c v).vats = s.vats := rfl
@[simp] theorem State.setReg_groups (g : Fld) (c v : Nat) : (s.setReg g c v).groups = s.groups := rfl
@[simp] theorem State.setReg_therm (g : Fld) (c v : Nat) : (s.setReg g c v).therm = s.therm := rfl
@[simp] theorem State.setReg_sessions (g : Fld) (c v : Nat) : (s.setReg g c v).sessions = s.sessions := rfl
@[simp] theorem State.setReg_deckles (g : Fld) (c v : Nat) : (s.setReg g c v).deckles = s.deckles := rfl
@[simp] theorem State.setReg_sched (g : Fld) (c v : Nat) : (s.setReg g c v).sched = s.sched := rfl
@[simp] theorem State.setReg_mem (g : Fld) (c v : Nat) : (s.setReg g c v).mem = s.mem := rfl
@[simp] theorem State.setReg_owners (g : Fld) (c v : Nat) : (s.setReg g c v).owners = s.owners := rfl
@[simp] theorem State.setReg_pageOut (g : Fld) (c v : Nat) : (s.setReg g c v).pageOut = s.pageOut := rfl
@[simp] theorem State.setReg_memStat (g : Fld) (c v : Nat) : (s.setReg g c v).memStat = s.memStat := rfl
@[simp] theorem State.setReg_slots (g : Fld) (c v : Nat) : (s.setReg g c v).slots = s.slots := rfl
@[simp] theorem State.setReg_quires (g : Fld) (c v : Nat) : (s.setReg g c v).quires = s.quires := rfl
@[simp] theorem State.setReg_ports (g : Fld) (c v : Nat) : (s.setReg g c v).ports = s.ports := rfl
@[simp] theorem State.setReg_torus (g : Fld) (c v : Nat) : (s.setReg g c v).torus = s.torus := rfl
@[simp] theorem State.setReg_sec (g : Fld) (c v : Nat) : (s.setReg g c v).sec = s.sec := rfl
@[simp] theorem State.setReg_upd (g : Fld) (c v : Nat) : (s.setReg g c v).upd = s.upd := rfl
@[simp] theorem State.setReg_test (g : Fld) (c v : Nat) : (s.setReg g c v).test = s.test := rfl
@[simp] theorem State.setReg_kvSat (g : Fld) (c v : Nat) : (s.setReg g c v).kvSat = s.kvSat := rfl
@[simp] theorem State.setReg_swapOuts (g : Fld) (c v : Nat) : (s.setReg g c v).swapOuts = s.swapOuts := rfl
@[simp] theorem State.setReg_swapIns (g : Fld) (c v : Nat) : (s.setReg g c v).swapIns = s.swapIns := rfl
@[simp] theorem State.setReg_rejects (g : Fld) (c v : Nat) : (s.setReg g c v).rejects = s.rejects := rfl
@[simp] theorem State.setReg_histSnap (g : Fld) (c v : Nat) : (s.setReg g c v).histSnap = s.histSnap := rfl
@[simp] theorem State.setReg_reloads (g : Fld) (c v : Nat) : (s.setReg g c v).reloads = s.reloads := rfl
@[simp] theorem State.setReg_sessShown (g : Fld) (c v : Nat) : (s.setReg g c v).sessShown = s.sessShown := rfl
@[simp] theorem State.setReg_groupShown (g : Fld) (c v : Nat) : (s.setReg g c v).groupShown = s.groupShown := rfl
@[simp] theorem State.setReg_free (g : Fld) (c v : Nat) : (s.setReg g c v).free = s.free := rfl

/-! ### setByte -/

@[simp] theorem State.setByte_pending (a : Nat) (b : Byte) : (s.setByte a b).pending = s.pending := rfl
@[simp] theorem State.setByte_power (a : Nat) (b : Byte) : (s.setByte a b).power = s.power := rfl
@[simp] theorem State.setByte_tick (a : Nat) (b : Byte) : (s.setByte a b).tick = s.tick := rfl
@[simp] theorem State.setByte_regs (a : Nat) (b : Byte) : (s.setByte a b).regs = s.regs := rfl
@[simp] theorem State.setByte_shadows (a : Nat) (b : Byte) : (s.setByte a b).shadows = s.shadows := rfl
@[simp] theorem State.setByte_errs (a : Nat) (b : Byte) : (s.setByte a b).errs = s.errs := rfl
@[simp] theorem State.setByte_host (a : Nat) (b : Byte) : (s.setByte a b).host = s.host := rfl
@[simp] theorem State.setByte_vats (a : Nat) (b : Byte) : (s.setByte a b).vats = s.vats := rfl
@[simp] theorem State.setByte_groups (a : Nat) (b : Byte) : (s.setByte a b).groups = s.groups := rfl
@[simp] theorem State.setByte_therm (a : Nat) (b : Byte) : (s.setByte a b).therm = s.therm := rfl
@[simp] theorem State.setByte_sessions (a : Nat) (b : Byte) : (s.setByte a b).sessions = s.sessions := rfl
@[simp] theorem State.setByte_deckles (a : Nat) (b : Byte) : (s.setByte a b).deckles = s.deckles := rfl
@[simp] theorem State.setByte_sched (a : Nat) (b : Byte) : (s.setByte a b).sched = s.sched := rfl
@[simp] theorem State.setByte_owners (a : Nat) (b : Byte) : (s.setByte a b).owners = s.owners := rfl
@[simp] theorem State.setByte_pageOut (a : Nat) (b : Byte) : (s.setByte a b).pageOut = s.pageOut := rfl
@[simp] theorem State.setByte_memStat (a : Nat) (b : Byte) : (s.setByte a b).memStat = s.memStat := rfl
@[simp] theorem State.setByte_slots (a : Nat) (b : Byte) : (s.setByte a b).slots = s.slots := rfl
@[simp] theorem State.setByte_quires (a : Nat) (b : Byte) : (s.setByte a b).quires = s.quires := rfl
@[simp] theorem State.setByte_ports (a : Nat) (b : Byte) : (s.setByte a b).ports = s.ports := rfl
@[simp] theorem State.setByte_torus (a : Nat) (b : Byte) : (s.setByte a b).torus = s.torus := rfl
@[simp] theorem State.setByte_sec (a : Nat) (b : Byte) : (s.setByte a b).sec = s.sec := rfl
@[simp] theorem State.setByte_upd (a : Nat) (b : Byte) : (s.setByte a b).upd = s.upd := rfl
@[simp] theorem State.setByte_test (a : Nat) (b : Byte) : (s.setByte a b).test = s.test := rfl
@[simp] theorem State.setByte_kvSat (a : Nat) (b : Byte) : (s.setByte a b).kvSat = s.kvSat := rfl
@[simp] theorem State.setByte_swapOuts (a : Nat) (b : Byte) : (s.setByte a b).swapOuts = s.swapOuts := rfl
@[simp] theorem State.setByte_swapIns (a : Nat) (b : Byte) : (s.setByte a b).swapIns = s.swapIns := rfl
@[simp] theorem State.setByte_rejects (a : Nat) (b : Byte) : (s.setByte a b).rejects = s.rejects := rfl
@[simp] theorem State.setByte_histSnap (a : Nat) (b : Byte) : (s.setByte a b).histSnap = s.histSnap := rfl
@[simp] theorem State.setByte_reloads (a : Nat) (b : Byte) : (s.setByte a b).reloads = s.reloads := rfl
@[simp] theorem State.setByte_sessShown (a : Nat) (b : Byte) : (s.setByte a b).sessShown = s.sessShown := rfl
@[simp] theorem State.setByte_groupShown (a : Nat) (b : Byte) : (s.setByte a b).groupShown = s.groupShown := rfl
@[simp] theorem State.setByte_free (a : Nat) (b : Byte) : (s.setByte a b).free = s.free := rfl

/-! ### writeMem -/

@[simp] theorem State.writeMem_pending (a : Nat) (bs : Bytes) : (s.writeMem a bs).pending = s.pending := rfl
@[simp] theorem State.writeMem_power (a : Nat) (bs : Bytes) : (s.writeMem a bs).power = s.power := rfl
@[simp] theorem State.writeMem_tick (a : Nat) (bs : Bytes) : (s.writeMem a bs).tick = s.tick := rfl
@[simp] theorem State.writeMem_regs (a : Nat) (bs : Bytes) : (s.writeMem a bs).regs = s.regs := rfl
@[simp] theorem State.writeMem_shadows (a : Nat) (bs : Bytes) : (s.writeMem a bs).shadows = s.shadows := rfl
@[simp] theorem State.writeMem_errs (a : Nat) (bs : Bytes) : (s.writeMem a bs).errs = s.errs := rfl
@[simp] theorem State.writeMem_host (a : Nat) (bs : Bytes) : (s.writeMem a bs).host = s.host := rfl
@[simp] theorem State.writeMem_vats (a : Nat) (bs : Bytes) : (s.writeMem a bs).vats = s.vats := rfl
@[simp] theorem State.writeMem_groups (a : Nat) (bs : Bytes) : (s.writeMem a bs).groups = s.groups := rfl
@[simp] theorem State.writeMem_therm (a : Nat) (bs : Bytes) : (s.writeMem a bs).therm = s.therm := rfl
@[simp] theorem State.writeMem_sessions (a : Nat) (bs : Bytes) : (s.writeMem a bs).sessions = s.sessions := rfl
@[simp] theorem State.writeMem_deckles (a : Nat) (bs : Bytes) : (s.writeMem a bs).deckles = s.deckles := rfl
@[simp] theorem State.writeMem_sched (a : Nat) (bs : Bytes) : (s.writeMem a bs).sched = s.sched := rfl
@[simp] theorem State.writeMem_owners (a : Nat) (bs : Bytes) : (s.writeMem a bs).owners = s.owners := rfl
@[simp] theorem State.writeMem_pageOut (a : Nat) (bs : Bytes) : (s.writeMem a bs).pageOut = s.pageOut := rfl
@[simp] theorem State.writeMem_memStat (a : Nat) (bs : Bytes) : (s.writeMem a bs).memStat = s.memStat := rfl
@[simp] theorem State.writeMem_slots (a : Nat) (bs : Bytes) : (s.writeMem a bs).slots = s.slots := rfl
@[simp] theorem State.writeMem_quires (a : Nat) (bs : Bytes) : (s.writeMem a bs).quires = s.quires := rfl
@[simp] theorem State.writeMem_ports (a : Nat) (bs : Bytes) : (s.writeMem a bs).ports = s.ports := rfl
@[simp] theorem State.writeMem_torus (a : Nat) (bs : Bytes) : (s.writeMem a bs).torus = s.torus := rfl
@[simp] theorem State.writeMem_sec (a : Nat) (bs : Bytes) : (s.writeMem a bs).sec = s.sec := rfl
@[simp] theorem State.writeMem_upd (a : Nat) (bs : Bytes) : (s.writeMem a bs).upd = s.upd := rfl
@[simp] theorem State.writeMem_test (a : Nat) (bs : Bytes) : (s.writeMem a bs).test = s.test := rfl
@[simp] theorem State.writeMem_kvSat (a : Nat) (bs : Bytes) : (s.writeMem a bs).kvSat = s.kvSat := rfl
@[simp] theorem State.writeMem_swapOuts (a : Nat) (bs : Bytes) : (s.writeMem a bs).swapOuts = s.swapOuts := rfl
@[simp] theorem State.writeMem_swapIns (a : Nat) (bs : Bytes) : (s.writeMem a bs).swapIns = s.swapIns := rfl
@[simp] theorem State.writeMem_rejects (a : Nat) (bs : Bytes) : (s.writeMem a bs).rejects = s.rejects := rfl
@[simp] theorem State.writeMem_histSnap (a : Nat) (bs : Bytes) : (s.writeMem a bs).histSnap = s.histSnap := rfl
@[simp] theorem State.writeMem_reloads (a : Nat) (bs : Bytes) : (s.writeMem a bs).reloads = s.reloads := rfl
@[simp] theorem State.writeMem_sessShown (a : Nat) (bs : Bytes) : (s.writeMem a bs).sessShown = s.sessShown := rfl
@[simp] theorem State.writeMem_groupShown (a : Nat) (bs : Bytes) : (s.writeMem a bs).groupShown = s.groupShown := rfl
@[simp] theorem State.writeMem_free (a : Nat) (bs : Bytes) : (s.writeMem a bs).free = s.free := rfl

/-! ### writeNum -/

@[simp] theorem State.writeNum_pending (a n v : Nat) : (s.writeNum a n v).pending = s.pending := rfl
@[simp] theorem State.writeNum_power (a n v : Nat) : (s.writeNum a n v).power = s.power := rfl
@[simp] theorem State.writeNum_tick (a n v : Nat) : (s.writeNum a n v).tick = s.tick := rfl
@[simp] theorem State.writeNum_regs (a n v : Nat) : (s.writeNum a n v).regs = s.regs := rfl
@[simp] theorem State.writeNum_shadows (a n v : Nat) : (s.writeNum a n v).shadows = s.shadows := rfl
@[simp] theorem State.writeNum_errs (a n v : Nat) : (s.writeNum a n v).errs = s.errs := rfl
@[simp] theorem State.writeNum_host (a n v : Nat) : (s.writeNum a n v).host = s.host := rfl
@[simp] theorem State.writeNum_vats (a n v : Nat) : (s.writeNum a n v).vats = s.vats := rfl
@[simp] theorem State.writeNum_groups (a n v : Nat) : (s.writeNum a n v).groups = s.groups := rfl
@[simp] theorem State.writeNum_therm (a n v : Nat) : (s.writeNum a n v).therm = s.therm := rfl
@[simp] theorem State.writeNum_sessions (a n v : Nat) : (s.writeNum a n v).sessions = s.sessions := rfl
@[simp] theorem State.writeNum_deckles (a n v : Nat) : (s.writeNum a n v).deckles = s.deckles := rfl
@[simp] theorem State.writeNum_sched (a n v : Nat) : (s.writeNum a n v).sched = s.sched := rfl
@[simp] theorem State.writeNum_owners (a n v : Nat) : (s.writeNum a n v).owners = s.owners := rfl
@[simp] theorem State.writeNum_pageOut (a n v : Nat) : (s.writeNum a n v).pageOut = s.pageOut := rfl
@[simp] theorem State.writeNum_memStat (a n v : Nat) : (s.writeNum a n v).memStat = s.memStat := rfl
@[simp] theorem State.writeNum_slots (a n v : Nat) : (s.writeNum a n v).slots = s.slots := rfl
@[simp] theorem State.writeNum_quires (a n v : Nat) : (s.writeNum a n v).quires = s.quires := rfl
@[simp] theorem State.writeNum_ports (a n v : Nat) : (s.writeNum a n v).ports = s.ports := rfl
@[simp] theorem State.writeNum_torus (a n v : Nat) : (s.writeNum a n v).torus = s.torus := rfl
@[simp] theorem State.writeNum_sec (a n v : Nat) : (s.writeNum a n v).sec = s.sec := rfl
@[simp] theorem State.writeNum_upd (a n v : Nat) : (s.writeNum a n v).upd = s.upd := rfl
@[simp] theorem State.writeNum_test (a n v : Nat) : (s.writeNum a n v).test = s.test := rfl
@[simp] theorem State.writeNum_kvSat (a n v : Nat) : (s.writeNum a n v).kvSat = s.kvSat := rfl
@[simp] theorem State.writeNum_swapOuts (a n v : Nat) : (s.writeNum a n v).swapOuts = s.swapOuts := rfl
@[simp] theorem State.writeNum_swapIns (a n v : Nat) : (s.writeNum a n v).swapIns = s.swapIns := rfl
@[simp] theorem State.writeNum_rejects (a n v : Nat) : (s.writeNum a n v).rejects = s.rejects := rfl
@[simp] theorem State.writeNum_histSnap (a n v : Nat) : (s.writeNum a n v).histSnap = s.histSnap := rfl
@[simp] theorem State.writeNum_reloads (a n v : Nat) : (s.writeNum a n v).reloads = s.reloads := rfl
@[simp] theorem State.writeNum_sessShown (a n v : Nat) : (s.writeNum a n v).sessShown = s.sessShown := rfl
@[simp] theorem State.writeNum_groupShown (a n v : Nat) : (s.writeNum a n v).groupShown = s.groupShown := rfl
@[simp] theorem State.writeNum_free (a n v : Nat) : (s.writeNum a n v).free = s.free := rfl

/-! ### clearMem -/

@[simp] theorem State.clearMem_pending (a n : Nat) : (s.clearMem a n).pending = s.pending := rfl
@[simp] theorem State.clearMem_power (a n : Nat) : (s.clearMem a n).power = s.power := rfl
@[simp] theorem State.clearMem_tick (a n : Nat) : (s.clearMem a n).tick = s.tick := rfl
@[simp] theorem State.clearMem_regs (a n : Nat) : (s.clearMem a n).regs = s.regs := rfl
@[simp] theorem State.clearMem_shadows (a n : Nat) : (s.clearMem a n).shadows = s.shadows := rfl
@[simp] theorem State.clearMem_errs (a n : Nat) : (s.clearMem a n).errs = s.errs := rfl
@[simp] theorem State.clearMem_host (a n : Nat) : (s.clearMem a n).host = s.host := rfl
@[simp] theorem State.clearMem_vats (a n : Nat) : (s.clearMem a n).vats = s.vats := rfl
@[simp] theorem State.clearMem_groups (a n : Nat) : (s.clearMem a n).groups = s.groups := rfl
@[simp] theorem State.clearMem_therm (a n : Nat) : (s.clearMem a n).therm = s.therm := rfl
@[simp] theorem State.clearMem_sessions (a n : Nat) : (s.clearMem a n).sessions = s.sessions := rfl
@[simp] theorem State.clearMem_deckles (a n : Nat) : (s.clearMem a n).deckles = s.deckles := rfl
@[simp] theorem State.clearMem_sched (a n : Nat) : (s.clearMem a n).sched = s.sched := rfl
@[simp] theorem State.clearMem_owners (a n : Nat) : (s.clearMem a n).owners = s.owners := rfl
@[simp] theorem State.clearMem_pageOut (a n : Nat) : (s.clearMem a n).pageOut = s.pageOut := rfl
@[simp] theorem State.clearMem_memStat (a n : Nat) : (s.clearMem a n).memStat = s.memStat := rfl
@[simp] theorem State.clearMem_slots (a n : Nat) : (s.clearMem a n).slots = s.slots := rfl
@[simp] theorem State.clearMem_quires (a n : Nat) : (s.clearMem a n).quires = s.quires := rfl
@[simp] theorem State.clearMem_ports (a n : Nat) : (s.clearMem a n).ports = s.ports := rfl
@[simp] theorem State.clearMem_torus (a n : Nat) : (s.clearMem a n).torus = s.torus := rfl
@[simp] theorem State.clearMem_sec (a n : Nat) : (s.clearMem a n).sec = s.sec := rfl
@[simp] theorem State.clearMem_upd (a n : Nat) : (s.clearMem a n).upd = s.upd := rfl
@[simp] theorem State.clearMem_test (a n : Nat) : (s.clearMem a n).test = s.test := rfl
@[simp] theorem State.clearMem_kvSat (a n : Nat) : (s.clearMem a n).kvSat = s.kvSat := rfl
@[simp] theorem State.clearMem_swapOuts (a n : Nat) : (s.clearMem a n).swapOuts = s.swapOuts := rfl
@[simp] theorem State.clearMem_swapIns (a n : Nat) : (s.clearMem a n).swapIns = s.swapIns := rfl
@[simp] theorem State.clearMem_rejects (a n : Nat) : (s.clearMem a n).rejects = s.rejects := rfl
@[simp] theorem State.clearMem_histSnap (a n : Nat) : (s.clearMem a n).histSnap = s.histSnap := rfl
@[simp] theorem State.clearMem_reloads (a n : Nat) : (s.clearMem a n).reloads = s.reloads := rfl
@[simp] theorem State.clearMem_sessShown (a n : Nat) : (s.clearMem a n).sessShown = s.sessShown := rfl
@[simp] theorem State.clearMem_groupShown (a n : Nat) : (s.clearMem a n).groupShown = s.groupShown := rfl
@[simp] theorem State.clearMem_free (a n : Nat) : (s.clearMem a n).free = s.free := rfl

/-! ### post -/

@[simp] theorem State.post_pending (n a : Nat) (bs : Bytes) (r : Bool) : (s.post n a bs r).pending = s.pending := rfl
@[simp] theorem State.post_power (n a : Nat) (bs : Bytes) (r : Bool) : (s.post n a bs r).power = s.power := rfl
@[simp] theorem State.post_tick (n a : Nat) (bs : Bytes) (r : Bool) : (s.post n a bs r).tick = s.tick := rfl
@[simp] theorem State.post_regs (n a : Nat) (bs : Bytes) (r : Bool) : (s.post n a bs r).regs = s.regs := rfl
@[simp] theorem State.post_shadows (n a : Nat) (bs : Bytes) (r : Bool) : (s.post n a bs r).shadows = s.shadows := rfl
@[simp] theorem State.post_errs (n a : Nat) (bs : Bytes) (r : Bool) : (s.post n a bs r).errs = s.errs := rfl
@[simp] theorem State.post_vats (n a : Nat) (bs : Bytes) (r : Bool) : (s.post n a bs r).vats = s.vats := rfl
@[simp] theorem State.post_groups (n a : Nat) (bs : Bytes) (r : Bool) : (s.post n a bs r).groups = s.groups := rfl
@[simp] theorem State.post_therm (n a : Nat) (bs : Bytes) (r : Bool) : (s.post n a bs r).therm = s.therm := rfl
@[simp] theorem State.post_sessions (n a : Nat) (bs : Bytes) (r : Bool) : (s.post n a bs r).sessions = s.sessions := rfl
@[simp] theorem State.post_deckles (n a : Nat) (bs : Bytes) (r : Bool) : (s.post n a bs r).deckles = s.deckles := rfl
@[simp] theorem State.post_sched (n a : Nat) (bs : Bytes) (r : Bool) : (s.post n a bs r).sched = s.sched := rfl
@[simp] theorem State.post_mem (n a : Nat) (bs : Bytes) (r : Bool) : (s.post n a bs r).mem = s.mem := rfl
@[simp] theorem State.post_owners (n a : Nat) (bs : Bytes) (r : Bool) : (s.post n a bs r).owners = s.owners := rfl
@[simp] theorem State.post_pageOut (n a : Nat) (bs : Bytes) (r : Bool) : (s.post n a bs r).pageOut = s.pageOut := rfl
@[simp] theorem State.post_memStat (n a : Nat) (bs : Bytes) (r : Bool) : (s.post n a bs r).memStat = s.memStat := rfl
@[simp] theorem State.post_slots (n a : Nat) (bs : Bytes) (r : Bool) : (s.post n a bs r).slots = s.slots := rfl
@[simp] theorem State.post_quires (n a : Nat) (bs : Bytes) (r : Bool) : (s.post n a bs r).quires = s.quires := rfl
@[simp] theorem State.post_ports (n a : Nat) (bs : Bytes) (r : Bool) : (s.post n a bs r).ports = s.ports := rfl
@[simp] theorem State.post_torus (n a : Nat) (bs : Bytes) (r : Bool) : (s.post n a bs r).torus = s.torus := rfl
@[simp] theorem State.post_sec (n a : Nat) (bs : Bytes) (r : Bool) : (s.post n a bs r).sec = s.sec := rfl
@[simp] theorem State.post_upd (n a : Nat) (bs : Bytes) (r : Bool) : (s.post n a bs r).upd = s.upd := rfl
@[simp] theorem State.post_test (n a : Nat) (bs : Bytes) (r : Bool) : (s.post n a bs r).test = s.test := rfl
@[simp] theorem State.post_kvSat (n a : Nat) (bs : Bytes) (r : Bool) : (s.post n a bs r).kvSat = s.kvSat := rfl
@[simp] theorem State.post_swapOuts (n a : Nat) (bs : Bytes) (r : Bool) : (s.post n a bs r).swapOuts = s.swapOuts := rfl
@[simp] theorem State.post_swapIns (n a : Nat) (bs : Bytes) (r : Bool) : (s.post n a bs r).swapIns = s.swapIns := rfl
@[simp] theorem State.post_rejects (n a : Nat) (bs : Bytes) (r : Bool) : (s.post n a bs r).rejects = s.rejects := rfl
@[simp] theorem State.post_histSnap (n a : Nat) (bs : Bytes) (r : Bool) : (s.post n a bs r).histSnap = s.histSnap := rfl
@[simp] theorem State.post_reloads (n a : Nat) (bs : Bytes) (r : Bool) : (s.post n a bs r).reloads = s.reloads := rfl
@[simp] theorem State.post_sessShown (n a : Nat) (bs : Bytes) (r : Bool) : (s.post n a bs r).sessShown = s.sessShown := rfl
@[simp] theorem State.post_groupShown (n a : Nat) (bs : Bytes) (r : Bool) : (s.post n a bs r).groupShown = s.groupShown := rfl
@[simp] theorem State.post_free (n a : Nat) (bs : Bytes) (r : Bool) : (s.post n a bs r).free = s.free := rfl
@[simp] theorem State.post_host_started (n a : Nat) (bs : Bytes) (r : Bool) : (s.post n a bs r).host.started = s.host.started := rfl
@[simp] theorem State.post_host_perstN (n a : Nat) (bs : Bytes) (r : Bool) : (s.post n a bs r).host.perstN = s.host.perstN := rfl
@[simp] theorem State.post_host_linkUp (n a : Nat) (bs : Bytes) (r : Bool) : (s.post n a bs r).host.linkUp = s.host.linkUp := rfl
@[simp] theorem State.post_host_stopIssue (n a : Nat) (bs : Bytes) (r : Bool) : (s.post n a bs r).host.stopIssue = s.host.stopIssue := rfl
@[simp] theorem State.post_host_vfs (n a : Nat) (bs : Bytes) (r : Bool) : (s.post n a bs r).host.vfs = s.host.vfs := rfl
@[simp] theorem State.post_host_funcs (n a : Nat) (bs : Bytes) (r : Bool) : (s.post n a bs r).host.funcs = s.host.funcs := rfl
@[simp] theorem State.post_host_pfRecs (n a : Nat) (bs : Bytes) (r : Bool) : (s.post n a bs r).host.pfRecs = s.host.pfRecs := rfl
@[simp] theorem State.post_host_ideLink (n a : Nat) (bs : Bytes) (r : Bool) : (s.post n a bs r).host.ideLink = s.host.ideLink := rfl
@[simp] theorem State.post_host_ideSel (n a : Nat) (bs : Bytes) (r : Bool) : (s.post n a bs r).host.ideSel = s.host.ideSel := rfl

/-! ### Reading what an update wrote -/

theorem State.vat_modVat (v w : Nat) (f : Vat → Vat) : (s.modVat v f).vat w = if v = w then f (s.vat v) else s.vat w :=
  get_put _ _ _ _ _
@[simp] theorem State.vat_modVat_same (v : Nat) (f : Vat → Vat) : (s.modVat v f).vat v = f (s.vat v) :=
  get_put_same _ _ _ _

theorem State.session_modSession (v w : Nat) (f : Session → Session) : (s.modSession v f).session w = if v = w then f (s.session v) else s.session w :=
  get_put _ _ _ _ _
@[simp] theorem State.session_modSession_same (v : Nat) (f : Session → Session) : (s.modSession v f).session v = f (s.session v) :=
  get_put_same _ _ _ _

theorem State.deckle_modDeckle (v w : Nat) (f : Deckle → Deckle) : (s.modDeckle v f).deckle w = if v = w then f (s.deckle v) else s.deckle w :=
  get_put _ _ _ _ _
@[simp] theorem State.deckle_modDeckle_same (v : Nat) (f : Deckle → Deckle) : (s.modDeckle v f).deckle v = f (s.deckle v) :=
  get_put_same _ _ _ _

theorem State.slot_modSlot (v w : Nat) (f : Slot → Slot) : (s.modSlot v f).slot w = if v = w then f (s.slot v) else s.slot w :=
  get_put _ _ _ _ _
@[simp] theorem State.slot_modSlot_same (v : Nat) (f : Slot → Slot) : (s.modSlot v f).slot v = f (s.slot v) :=
  get_put_same _ _ _ _

theorem State.port_modPort (v w : Nat) (f : Port → Port) : (s.modPort v f).port w = if v = w then f (s.port v) else s.port w :=
  get_put _ _ _ _ _
@[simp] theorem State.port_modPort_same (v : Nat) (f : Port → Port) : (s.modPort v f).port v = f (s.port v) :=
  get_put_same _ _ _ _

theorem State.func_modFunc (v w : Nat) (f : Func → Func) : (s.modFunc v f).func w = if v = w then f (s.func v) else s.func w :=
  get_put _ _ _ _ _
@[simp] theorem State.func_modFunc_same (v : Nat) (f : Func → Func) : (s.modFunc v f).func v = f (s.func v) :=
  get_put_same _ _ _ _

theorem State.pageRegs_modPage (v w : Nat) (f : PageRegs → PageRegs) : (s.modPage v f).pageRegs w = if v = w then f (s.pageRegs v) else s.pageRegs w :=
  get_put _ _ _ _ _
@[simp] theorem State.pageRegs_modPage_same (v : Nat) (f : PageRegs → PageRegs) : (s.modPage v f).pageRegs v = f (s.pageRegs v) :=
  get_put_same _ _ _ _

theorem State.group_modGroup (v p w q : Nat) (f : Group → Group) : (s.modGroup v p f).group w q =
    if groupKey v p = groupKey w q then f (s.group v p) else s.group w q := get_put _ _ _ _ _
@[simp] theorem State.group_modGroup_same (v p : Nat) (f : Group → Group) : (s.modGroup v p f).group v p = f (s.group v p) :=
  get_put_same _ _ _ _

theorem State.reg_setReg (g h : Fld) (c e v : Nat) : (s.setReg g c v).reg h e =
    if fldKey g c = fldKey h e then get (fldInfo h).reset (put (fldInfo g).reset s.regs (fldKey g c) v) (fldKey h e)
    else s.reg h e := by
  unfold State.reg State.setReg
  split
  · rfl
  · next k =>
    simp only [put]
    split
    · exact get_del_ne _ _ k
    · exact get_ins_ne _ _ _ k
@[simp] theorem State.reg_setReg_same (g : Fld) (c v : Nat) : (s.setReg g c v).reg g c = v := get_put_same _ _ _ _

theorem State.byte_setByte (a i : Nat) (b : Byte) : (s.setByte a b).byte i = if a = i then b else s.byte i :=
  get_put _ _ _ _ _

/-- The bytes after a write: those written, and the others as before. -/
theorem get_writeCells (bs : Bytes) (a i : Nat) (m : List Host.Cell) : get memDefault (writeCells a bs m) i =
    if a ≤ i ∧ i < a + bs.length then bs.getD (i - a) memDefault else get memDefault m i := by
  induction bs generalizing a m with
  | nil => simp [writeCells]
  | cons b r ih =>
    simp only [writeCells, ih, get_put, List.length_cons]
    by_cases h : a = i
    · subst h; simp
    · by_cases h' : a ≤ i ∧ i < a + (r.length + 1)
      · have e : i - a = (i - (a + 1)) + 1 := by omega
        rw [if_pos (by omega), if_pos h', e]; simp
      · rw [if_neg (by omega), if_neg h', if_neg h]

theorem State.byte_writeMem (a i : Nat) (bs : Bytes) : (s.writeMem a bs).byte i =
    if a ≤ i ∧ i < a + bs.length then bs.getD (i - a) memDefault else s.byte i := get_writeCells _ _ _ _

theorem get_filter_out (f : Nat × Byte → Bool) (m : List Host.Cell) (i : Nat) (h : ∀ b, f (i, b) = false) :
    get memDefault (m.filter f) i = memDefault := by
  induction m with
  | nil => rfl
  | cons x r ih =>
    obtain ⟨j, w⟩ := x
    by_cases hf : f (j, w)
    · have : j ≠ i := by rintro rfl; simp [h] at hf
      simp [hf, get, this, ih]
    · simp [hf, ih]

theorem get_filter_in (f : Nat × Byte → Bool) (m : List Host.Cell) (i : Nat) (h : ∀ b, f (i, b) = true) :
    get memDefault (m.filter f) i = get memDefault m i := by
  induction m with
  | nil => rfl
  | cons x r ih =>
    obtain ⟨j, w⟩ := x
    by_cases hf : f (j, w)
    · simp [hf, get, ih]
    · have : j ≠ i := by rintro rfl; simp [h] at hf
      simp [hf, get, this, ih]

theorem State.byte_clearMem (a n i : Nat) : (s.clearMem a n).byte i = if a ≤ i ∧ i < a + n then memDefault else s.byte i := by
  unfold State.byte State.clearMem
  split
  · next h => exact get_filter_out _ _ _ (fun _ => by simp; omega)
  · next h => exact get_filter_in _ _ _ (fun _ => by simp; omega)

/-! ### The memory keeps its canonical form -/

theorem wf_writeCells (bs : Bytes) (a : Nat) (m : List Host.Cell) (h : Memory.wf m = true) :
    Memory.wf (writeCells a bs m) = true := by
  induction bs generalizing a m with
  | nil => exact h
  | cons b r ih => exact ih _ _ (wfMap_put _ _ _ _ h)

theorem State.setByte_wf (a : Nat) (b : Byte) (h : Memory.wf s.mem = true) : Memory.wf (s.setByte a b).mem = true :=
  wfMap_put _ _ _ _ h

theorem State.writeMem_wf (a : Nat) (bs : Bytes) (h : Memory.wf s.mem = true) : Memory.wf (s.writeMem a bs).mem = true :=
  wf_writeCells _ _ _ h

theorem State.writeNum_wf (a n v : Nat) (h : Memory.wf s.mem = true) : Memory.wf (s.writeNum a n v).mem = true :=
  wf_writeCells _ _ _ h

theorem State.clearMem_wf (a n : Nat) (h : Memory.wf s.mem = true) : Memory.wf (s.clearMem a n).mem = true :=
  wfMap_filter _ _ _ h

end Sys2Proof.Machine
end

