-- ==== Sys2Proof/Laws/Ops.lean ====
section
/-! SUPPORT. What each shared operation can change, said once: the state after it is the state before it with some of
its parts replaced. A proof cites these in place of unfolding the operation. -/
namespace Sys2Proof.Machine

/-! ### Reports without an effect on work -/

/-- Only the error registers and the host port differ. -/
def ErrHost (s t : State) : Prop := ∃ e h, t = { s with errs := e, host := h }

theorem ErrHost.refl (s : State) : ErrHost s s := ⟨_, _, rfl⟩
theorem ErrHost.trans {s t u : State} : ErrHost s t → ErrHost t u → ErrHost s u := by
  rintro ⟨e, h, rfl⟩ ⟨e', h', rfl⟩; exact ⟨e', h', rfl⟩

theorem State.modPage_errHost (s : State) (p : Nat) (f : PageRegs → PageRegs) : ErrHost s (s.modPage p f) := ⟨_, _, rfl⟩
theorem State.raiseVector_errHost (s : State) (n v : Nat) : ErrHost s (s.raiseVector n v) := by
  unfold State.raiseVector; split
  · exact .refl s
  · exact ⟨_, _, rfl⟩
theorem State.sendVector_errHost (s : State) (n v : Nat) : ErrHost s (s.sendVector n v) := by
  unfold State.sendVector; dsimp only; repeat' split
  · exact ⟨_, _, rfl⟩
  · exact ⟨_, _, rfl⟩
  · exact .refl s
theorem State.pfVector_errHost (s : State) (v : Nat) : ErrHost s (s.pfVector v) := by
  unfold State.pfVector; dsimp only; repeat' split
  · exact s.raiseVector_errHost 0 v
  · exact (s.raiseVector_errHost 0 v).trans (State.sendVector_errHost _ 0 v)
  · exact s.raiseVector_errHost 0 v
theorem State.toDeckle_errHost (s : State) (d : Nat) (c : Capture) (code : Nat) : ErrHost s (s.toDeckle d c code) := by
  unfold State.toDeckle; exact s.modPage_errHost _ _

theorem State.queueEvent_errHost (s : State) (c : Capture) : ErrHost s (s.queueEvent c) := by
  have first : ErrHost s { s with errs := s.errs.event c } := ⟨_, _, rfl⟩
  unfold State.queueEvent; dsimp only; split
  · exact first
  · split
    · exact first.trans (State.modPage_errHost _ _ _)
    · exact first.trans ((State.modPage_errHost _ _ _).trans (State.pfVector_errHost _ _))

/-- The parts of a route, one after the other. -/
theorem State.route_errHost (s : State) (e : Err) (inst cls : Nat) (d : Option Nat) (c : Capture) :
    ErrHost s (s.route e inst cls d c) := by
  have tail : ∀ t : State, ErrHost s t → ErrHost s (if t.power.i3cUp then t.queueEvent c else t) := by
    intro t ht; split
    · exact ht.trans (t.queueEvent_errHost c)
    · exact ht
  have vec : ∀ (t : State) (p : Prop) [Decidable p] (q : Prop) [Decidable q] (r : Prop) [Decidable r], ErrHost s t →
      ErrHost s (if p then (if q then t.pfVector 1 else t) else if r then t else t.pfVector 2) := by
    intro t p _ q _ r _ ht
    split <;> split
    · exact ht.trans (t.pfVector_errHost 1)
    · exact ht
    · exact ht
    · exact ht.trans (t.pfVector_errHost 2)
  unfold State.route
  dsimp only
  refine tail _ (vec _ _ _ _ ?_)
  have first : ErrHost s (if (errInfo e).kind = 0x18 then s.toDeckle inst c c.code
      else s.modPage (pageIndex (errInfo e).kind inst) (fun p => p.take c)) := by
    split
    · exact s.toDeckle_errHost _ _ _
    · exact s.modPage_errHost _ _
  revert first
  generalize (if (errInfo e).kind = 0x18 then s.toDeckle inst c c.code
      else s.modPage (pageIndex (errInfo e).kind inst) (fun p => p.take c)) = u
  intro hu
  cases d with
  | none => exact hu
  | some d =>
    dsimp only
    have second : ErrHost s (if (errInfo e).kind ≠ 0x18 ∧ (cls = 2 ∨ cls = 3 ∨ (cls = 1 ∧ (errInfo e).tenant))
        then u.toDeckle d c (deckleCode e cls) else u) := by
      split
      · exact hu.trans (u.toDeckle_errHost _ _ _)
      · exact hu
    revert second
    generalize (if (errInfo e).kind ≠ 0x18 ∧ (cls = 2 ∨ cls = 3 ∨ (cls = 1 ∧ (errInfo e).tenant))
        then u.toDeckle d c (deckleCode e cls) else u) = w
    intro hw
    split
    · exact hw.trans (w.raiseVector_errHost _ _)
    · exact hw

theorem State.corrected_errHost (s : State) (e : Err) (inst : Nat) (d : Option Nat) (i : Nat) :
    ErrHost s (s.corrected e inst d i) := s.route_errHost ..

/-! ### Ends of requests -/

/-- Only the error registers, the host port, the deckles, the scoreboard, the sessions and the reject count differ. -/
def WorkEnds (s t : State) : Prop :=
  ∃ e h ds sc ss r, t = { s with errs := e, host := h, deckles := ds, sched := sc, sessions := ss, rejects := r }

theorem WorkEnds.refl (s : State) : WorkEnds s s := ⟨_, _, _, _, _, _, rfl⟩
theorem WorkEnds.trans {s t u : State} : WorkEnds s t → WorkEnds t u → WorkEnds s u := by
  rintro ⟨e, h, ds, sc, ss, r, rfl⟩ ⟨e', h', ds', sc', ss', r', rfl⟩; exact ⟨e', h', ds', sc', ss', r', rfl⟩
theorem ErrHost.workEnds {s t : State} : ErrHost s t → WorkEnds s t := by
  rintro ⟨e, h, rfl⟩; exact ⟨_, _, _, _, _, _, rfl⟩

theorem WorkEnds.foldl {α : Type} (f : State → α → State) (h : ∀ s a, WorkEnds s (f s a)) (l : List α) (s : State) :
    WorkEnds s (l.foldl f s) := by
  induction l generalizing s with
  | nil => exact .refl s
  | cons a r ih => exact (h s a).trans (ih (f s a))

theorem State.modDeckle_workEnds (s : State) (d : Nat) (f : Deckle → Deckle) : WorkEnds s (s.modDeckle d f) :=
  ⟨_, _, _, _, _, _, rfl⟩
theorem State.modSession_workEnds (s : State) (i : Nat) (f : Session → Session) : WorkEnds s (s.modSession i f) :=
  ⟨_, _, _, _, _, _, rfl⟩
theorem State.finish_workEnds (s : State) (d : Nat) (c : Cmd) (st e en : Nat) (l w : Bool) (t o : Nat) :
    WorkEnds s (s.finish d c st e en l w t o) := ⟨_, _, _, _, _, _, rfl⟩
theorem State.publish_workEnds (s : State) (d i r o : Nat) (q : Bool) (ws : List PubWrite) :
    WorkEnds s (s.publish d i r o q ws) := ⟨_, _, _, _, _, _, rfl⟩
theorem State.finishNow_workEnds (s : State) (d : Nat) (c : Cmd) (st e : Nat) : WorkEnds s (s.finishNow d c st e) :=
  ⟨_, _, _, _, _, _, rfl⟩
theorem State.reject_workEnds (s : State) (d : Nat) (c : Cmd) (e : Err) : WorkEnds s (s.reject d c e) := by
  have h : WorkEnds s { s.finishNow d c 6 (errCode e) with rejects := satAdd 32 (s.finishNow d c 6 (errCode e)).rejects 1 } :=
    ⟨_, _, _, _, _, _, rfl⟩
  unfold State.reject; dsimp only; split
  · exact h.trans (State.corrected_errHost _ _ _ _ _).workEnds
  · exact h
theorem State.dropStep_workEnds (s : State) (d i : Nat) : WorkEnds s (s.dropStep d i) := by
  unfold State.dropStep; split
  · exact .refl s
  · exact ⟨_, _, _, _, _, _, rfl⟩
theorem State.withdraw_workEnds (s : State) (d i : Nat) : WorkEnds s (s.withdraw d i) := by
  unfold State.withdraw
  refine WorkEnds.foldl _ (fun s t => ?_) _ s
  dsimp only; split
  · exact s.dropStep_workEnds _ _
  · exact ⟨_, _, _, _, _, _, rfl⟩
theorem State.endActive_workEnds (s : State) (i st e en : Nat) (l : Bool) (o : Nat) :
    WorkEnds s (s.endActive i st e en l o) := by
  unfold State.endActive; split
  · exact .refl s
  · exact (State.finish_workEnds ..).trans ((State.withdraw_workEnds ..).trans (State.modSession_workEnds ..))
theorem State.endWaiting_workEnds (s : State) (i st e o : Nat) : WorkEnds s (s.endWaiting i st e o) := by
  unfold State.endWaiting; split
  · exact .refl s
  · exact (State.finish_workEnds ..).trans (State.modSession_workEnds ..)
theorem State.startRequest_workEnds (s : State) (i : Nat) (r : Request) (o : Nat) : WorkEnds s (s.startRequest i r o) := by
  unfold State.startRequest; dsimp only; split
  · exact s.reject_workEnds _ _ _
  · split
    · generalize (if (s.session i).hasPending = true then [(s.session i).pendingTok] else []) ++ r.tokens = l
      split
      · exact (State.modSession_workEnds ..).trans ((State.publish_workEnds ..).trans (State.finish_workEnds ..))
      · exact State.modSession_workEnds ..
    · exact State.modSession_workEnds ..
theorem State.startWaiting_workEnds (s : State) (i o : Nat) : WorkEnds s (s.startWaiting i o) := by
  unfold State.startWaiting; split
  · split
    · exact .refl s
    · exact (State.modSession_workEnds ..).trans (State.startRequest_workEnds ..)
  · exact .refl s
theorem State.failSession_workEnds (s : State) (i c o : Nat) : WorkEnds s (s.failSession i c o) := by
  unfold State.failSession; dsimp only; split
  · exact .refl s
  · refine (State.withdraw_workEnds s (s.deckOf i) i).trans ((State.endActive_workEnds _ i 3 c 0 false o).trans ?_)
    split
    · exact (State.modSession_workEnds ..).trans (State.startWaiting_workEnds ..)
    · exact (State.finish_workEnds ..).trans ((State.modSession_workEnds ..).trans (State.startWaiting_workEnds ..))

/-! ### Reports with their effects -/

/-- The parts of `WorkEnds`, and the vats. -/
def Reported (s t : State) : Prop :=
  ∃ e h ds sc ss r vs, t = { s with errs := e, host := h, deckles := ds, sched := sc, sessions := ss, rejects := r, vats := vs }

theorem Reported.refl (s : State) : Reported s s := ⟨_, _, _, _, _, _, _, rfl⟩
theorem Reported.trans {s t u : State} : Reported s t → Reported t u → Reported s u := by
  rintro ⟨e, h, ds, sc, ss, r, vs, rfl⟩ ⟨e', h', ds', sc', ss', r', vs', rfl⟩; exact ⟨e', h', ds', sc', ss', r', vs', rfl⟩
theorem WorkEnds.reported {s t : State} : WorkEnds s t → Reported s t := by
  rintro ⟨e, h, ds, sc, ss, r, rfl⟩; exact ⟨_, _, _, _, _, _, _, rfl⟩

theorem State.loseOps_workEnds (s : State) (hold : OpRec → Bool) (o : Nat) : WorkEnds s (s.loseOps hold o) := by
  unfold State.loseOps; dsimp only
  refine WorkEnds.trans ?_ (WorkEnds.foldl _ (fun s d =>
    ((State.toDeckle_errHost ..).trans (State.raiseVector_errHost ..)).workEnds) _ _)
  refine WorkEnds.trans ?_ (WorkEnds.foldl _ (fun s (x : Nat × Nat) =>
    State.failSession_workEnds s x.2 (errCode .unitLost) o) _ _)
  exact ⟨_, _, _, _, _, _, rfl⟩

theorem State.retireVat_reported (s : State) (v c o : Nat) : Reported s (s.retireVat v c o) := by
  unfold State.retireVat; split
  · exact .refl s
  · exact Reported.trans ⟨_, _, _, _, _, _, _, rfl⟩ (State.loseOps_workEnds _ _ _).reported

theorem State.escalate_errHost (s : State) (r : Report) : ErrHost s (s.escalate r).2.2 := by
  have count : ∀ (t : State) (u : Nat), ErrHost t (t.count u) := fun _ _ => ⟨_, _, rfl⟩
  unfold State.escalate; dsimp only
  repeat' split
  all_goals first
    | exact ErrHost.refl s
    | exact (count _ _).trans (count _ _)
    | exact count _ _

/-- What a report does: unless its class removes core power, only error registers, host port, work and vats change. -/
theorem State.report_cases (s : State) (r : Report) :
    (∃ t c i, ErrHost s t ∧ s.report r = t.shutdown c i) ∨ Reported s (s.report r) := by
  unfold State.report
  dsimp only
  have h1 := s.escalate_errHost r
  generalize s.escalate r = x at h1
  obtain ⟨cls, esc, u⟩ := x
  dsimp only at h1 ⊢
  generalize hc : Capture.mk .. = c
  have h2 : ErrHost s (u.route r.err r.inst cls r.deckle c) := h1.trans (u.route_errHost ..)
  generalize u.route r.err r.inst cls r.deckle c = w at h2
  split
  · exact .inl ⟨w, _, _, h2, rfl⟩
  · refine .inr (h2.workEnds.reported.trans ?_)
    have h3 : Reported w (if r.withdrawn = true then w
        else r.named.foldl (fun s i => s.failSession i (deckleCode r.err cls) r.order) w) := by
      split
      · exact .refl w
      · exact (WorkEnds.foldl _ (fun s i => s.failSession_workEnds i _ _) _ w).reported
    refine h3.trans ?_
    generalize (if r.withdrawn = true then w
        else r.named.foldl (fun s i => s.failSession i (deckleCode r.err cls) r.order) w) = y
    cases r.vat with
    | none => exact .refl y
    | some v =>
      dsimp only
      split
      · exact y.retireVat_reported _ _ _
      · exact .refl y

/-- A report of class CORRECTED that names no request changes error registers and host port alone. -/
theorem State.report_errHost (s : State) (r : Report) (hc : r.cls = none) (h1 : (errInfo r.err).cls = 1)
    (hn : r.named = []) : ErrHost s (s.report r) := by
  have he : s.escalate r = (1, false, s) := by
    unfold State.escalate; simp [hc, h1]
  unfold State.report
  simp only [he, hn, List.foldl_nil, ite_self]
  rw [if_neg (by decide)]
  generalize hk : Capture.mk .. = k
  have h := s.route_errHost r.err r.inst 1 r.deckle k
  cases r.vat with
  | none => exact h
  | some v => simpa using h

/-- A report of class MODULE_FATAL removes core power. -/
theorem State.report_fatal (s : State) (r : Report) (hc : r.cls = none) (h4 : (errInfo r.err).cls = 4) :
    ∃ t, ErrHost s t ∧ s.report r =
      t.shutdown (if r.err = .thermTrip then r.cause else if r.err = .pstageFault then 4 else 3)
        (if r.err = .thermTrip then r.detail else 0) := by
  have he : s.escalate r = (4, false, s) := by
    unfold State.escalate; simp [hc, h4]
  unfold State.report
  simp only [he, if_pos]
  exact ⟨_, s.route_errHost .., rfl⟩

end Sys2Proof.Machine
end

