-- ==== Sys2Proof/Machine/RegReads.lean ====
section
/-! DEFINITION. What a read of a register returns: the status words, counters, selected words and windows of every page,
from the state alone (R21, R143, R177, R221, R281, R395 to R397, R494 to R497, R503, R518, R553 to R600). A read that
acts (SCR_DATA, HIST_DATA, CORR_DATA) has a command of its own. -/
namespace Sys2Proof.Machine

/-- A value placed at bit `lo` in `n` bits. -/
def at_ (lo n v : Nat) : Nat := v % 2 ^ n * 2 ^ lo

/-- A flag at a bit. -/
def flag (i : Nat) (b : Bool) : Nat := at_ i 1 (b2n b)

/-- Word `w` of a byte string, 8 bytes each. -/
def wordOf (b : Bytes) (w : Nat) : Nat := field b (8 * w) 8

/-- A mask of the numbers of a list. -/
def maskOf (n : Nat) (l : List Nat) : Nat := sumTo n (fun i => if l.contains i then 2 ^ i else 0)

/-- A mask of the numbers below `n` that satisfy `f`. -/
def maskWhere (n : Nat) (f : Nat → Bool) : Nat := sumTo n (fun i => if f i then 2 ^ i else 0)

/-! ### Common registers (R494, R496, R497, R553, R559, R560, R583, R592) -/

/-- The page has an RWT field. -/
def hasShadow (kind : Nat) : Bool := allFlds.any (fun f => (fldInfo f).kind == kind && (fldInfo f).acc == .rwt)

/-- PAGE_CAP. -/
def pageCap (kind : Nat) : Nat :=
  flag 5 ([0x01, 0x02, 0x07, 0x0E, 0x18].contains kind) + flag 4 (hasShadow kind) + flag 3 (kind == 0x13) +
  flag 2 (kind == 0x13) + flag 0 ([0x02, 0x13, 0x18].contains kind)

/-- Code of PORT_STATE (R592). -/
def PortState.code : PortState → Nat
  | .down => 0 | .training => 1 | .session => 2 | .up => 3 | .failed => 4

/-- PAGE_STS.STATE of a page. -/
def State.pageState (s : State) (kind i : Nat) : Nat :=
  if kind = 0x01 then s.moduleState
  else if kind = 0x02 then (if s.tick.running then 1 else if s.torus.waiting then 2 else 0)
  else if kind = 0x11 then (s.port i).state.code
  else if kind = 0x13 then (s.vat i).state.code
  else if kind = 0x18 then b2n (s.deckle i).opened
  else 0

/-- PAGE_CTL: the requests that stand (log entry 70). -/
def State.pageCtl (s : State) (kind i : Nat) : Nat :=
  if kind = 0x02 then b2n ((s.tick.running && !s.tick.stopReq) || s.torus.waiting)
  else if kind = 0x18 then
    match (s.deckle i).openReq with
    | some (run, _) => b2n run
    | none => b2n (s.deckle i).opened
  else if kind = 0x13 then
    let x := s.vat i
    flag 2 (x.serviceReq || x.state == .service) + flag 1 (x.idleReq || x.state == .draining) +
      flag 0 (x.runReq || x.state == .run)
  else 0

/-- PAGE_ERR of R494. -/
def PageRegs.errWord (r : PageRegs) : Nat :=
  flag 18 r.wwr +
  match r.capture with
  | none => 0
  | some c => at_ 32 32 c.tick + (if c.isModule then 0 else at_ 28 4 c.deckle) + flag 27 c.isModule + flag 26 c.escalated +
      flag 25 c.injected + flag 17 c.multi + flag 16 true + at_ 0 16 c.code

/-- Image kind whose settings pages name a page (R465, R553). -/
def imgKindOf (kind : Nat) : Nat :=
  if [0x01, 0x04, 0x05, 0x0A, 0x0C, 0x0D, 0x0E, 0x0F, 0x12, 0x18].contains kind then 1
  else if [0x02, 0x0B].contains kind then 2
  else if [0x13, 0x14, 0x15, 0x17].contains kind then 3
  else if [0x08, 0x09, 0x16].contains kind then 4
  else if [0x06, 0x07].contains kind then 5
  else if kind = 0x11 then 6
  else if kind = 0x10 then 7
  else 0

/-- PAGE_IMG. -/
def State.pageImg (s : State) (kind : Nat) : Nat :=
  let k := imgKindOf kind
  if k = 0 then 0 else (s.activeImage k).version / 2 ^ 32 * 2 ^ 32 + k

/-- A common register. -/
def State.readCommon (s : State) (kind i reg : Nat) : Nat :=
  let p := pageIndex kind i
  let r := s.pageRegs p
  let waits := s.shadows.any (fun w => w.page == p)
  if reg = 0x000 then at_ 16 8 1 + at_ 8 8 i + at_ 0 8 kind
  else if reg = 0x008 then pageCap kind
  else if reg = 0x010 then s.pageCtl kind i
  else if reg = 0x018 then flag 9 (waits && r.latchEn && decide (s.tick.now < r.latchTick)) + flag 8 waits +
    at_ 0 4 (s.pageState kind i)
  else if reg = 0x020 then r.errWord
  else if reg = 0x028 then at_ 32 32 r.corrected + at_ 0 32 r.others
  else if reg = 0x030 then r.mask
  else if reg = 0x038 then (if s.debugReg then r.inj else 0)
  else if reg = 0x040 then flag 63 r.latchEn + at_ 0 62 r.latchTick
  else if reg = 0x048 then s.pageImg kind
  else 0

/-- The capture record of R495 of a page; a page without a capture reads 0. -/
def State.captureRecord (s : State) (page : Nat) : Bytes :=
  match (s.pageRegs page).capture, pageOf page with
  | some c, some (kind, i) =>
    leBytes 2 c.code ++
    leBytes 2 (flag 0 c.multi + flag 1 c.escalated + flag 2 c.injected + flag 3 c.isModule) ++
    leBytes 2 (i * 256 + kind) ++ leBytes 2 0 ++ leBytes 8 c.tick ++ leBytes 8 c.seq ++ leBytes 4 c.session ++
    leBytes 1 c.deckle ++ leBytes 1 c.unit ++ leBytes 2 c.group ++ leBytes 8 c.addr ++ leBytes 8 c.detail ++
    leBytes 4 c.count ++ List.replicate 12 0#8
  | _, _ => []

/-- The stored fields of a register, in force (R556). -/
def State.fieldsWord (s : State) (kind i reg : Nat) : Nat :=
  ((allFlds.filter (fun f => (fldInfo f).kind == kind && (fldInfo f).off == reg)).map (fun f =>
    s.reg f (s.copyOf f i) * 2 ^ (fldInfo f).lo)).foldl (· + ·) 0

/-! ### Module pages (R559 to R578) -/

/-- Code of a scoreboard state (R221). -/
def OpState.code : OpState → Nat
  | .waiting => 0 | .running => 1 | .complete => 2 | .abandoned => 3 | .failed => 4

/-- Four 16-bit accumulator names; 0xFFFF for none. -/
def accNames (l : List Nat) : Bytes :=
  ((List.range 4).map (fun i => leBytes 2 (match l[i]? with
    | some x => x % 8192
    | none => 0xFFFF))).foldr (· ++ ·) []

/-- Code of an operation type (R220). -/
def typeCode : OpType → Nat
  | .tileMvm => 1 | .residual => 2 | .sizing => 3 | .attnBlock => 4 | .vector => 5 | .kvAppend => 6 | .exchange => 7
  | .sample => 8 | .ctxSave => 9 | .ctxRestore => 10

/-- STATE of an entry (R221). DESIGN CHOICE: an operation is RUNNING from the execution phase on as soon as nothing it waits
for is left; the spec names the state and not its start (entry 113). -/
def State.opState (s : State) (o : OpRec) : OpState :=
  if o.state = .complete then .complete
  else if o.failed then .failed
  else if o.reissue then .abandoned
  else if s.tick.stage = .execution ∧ s.clearToRun o then .running
  else .waiting

/-- A tile's entries of the correction store: its static outliers as R79 has them, then its stuck cells. DESIGN CHOICE: the
spec gives a stuck cell's entry 4 bytes and no layout, and gives the store no order; a stuck entry is its row, then the
halfword of R345, and the groups follow in ascending order (R206, entry 116). -/
def Tile.corrEntries (t : Tile) : Bytes :=
  t.outliers.foldr (fun e b => leBytes 1 e.1 ++ leBytes 1 e.2.1 ++ leBytes 1 (e.2.2 % 256).toNat ++ leBytes 1 0 ++ b)
    (t.stuck.foldr (fun c b => leBytes 1 c.row ++ leBytes 2 (c.col + 2 ^ 15 * b2n c.held) ++ leBytes 1 0 ++ b) [])

/-- The correction store of vat `v` (R206): the entries of its in-service groups' tiles. -/
def State.corrStore (s : State) (v : Nat) : Bytes :=
  ((sortBy (fun a b => decide (a ≤ b)) (s.groupsOf v)).filter (fun p => (s.group v p).state == .inService)).foldr
    (fun p a => [0, 1, 2, 3].foldr (fun k a => (get {} (s.group v p).tiles k).corrEntries ++ a) a) []

/-- The scratchpad word at SCR_ADDR: the CORR region shows the correction store (R205, R208). -/
def State.scrWord (s : State) (v : Nat) : Nat :=
  let x := s.vat v
  if x.corrBase * 4096 ≤ x.scrAddr ∧ x.scrAddr < (x.corrBase + x.corrSize) * 4096 then
    leNat (slice (s.corrStore v) (x.scrAddr - x.corrBase * 4096) 8)
  else s.readNum (scrAddrOf v x.scrAddr) 8

/-- The 64-byte operation descriptor of R221. -/
def State.opRecord (s : State) (o : OpRec) : Bytes :=
  leBytes 8 o.seq ++ leBytes 1 (typeCode o.typ) ++ leBytes 1 o.deckle ++ leBytes 1 o.unit ++
  leBytes 1 (flag 0 o.preempt + flag 1 o.cross + flag 2 o.canonical + flag 3 o.borrowed) ++ leBytes 4 o.owner ++
  leBytes 4 o.plan ++ leBytes 2 o.layer ++ leBytes 2 o.segment ++ accNames o.accRd ++ accNames o.accWr ++
  leBytes 4 o.kvFirst ++ leBytes 3 o.kvCnt ++ leBytes 1 (o.kvMode % 4 + at_ 4 3 o.retry) ++ leBytes 4 o.budget ++
  leBytes 2 o.start ++ leBytes 2 o.deadline ++ leBytes 5 o.convs ++ leBytes 1 (s.opState o).code ++ leBytes 2 0

/-- The word of the scoreboard that SB_SEL names. -/
def State.sbData (s : State) : Nat :=
  if !s.debugReg then 0
  else match s.entries.find? (fun o => o.slotNo == s.reg .sbEntry) with
    | some o => wordOf (s.opRecord o) (s.reg .sbWord)
    | none => 0

/-- Code of a session state (R281). -/
def SessState.code : SessState → Nat
  | .closed => 0 | .opened => 1 | .prefill => 2 | .decode => 3 | .paused => 4 | .swapped => 5

/-- Code of the active request (R281). -/
def activeCode : Option Request → Nat
  | none => 0
  | some r => match r.kind with
    | .prefill => 1
    | .generate => 2
    | _ => 3

/-- The request slot that SLOT_SEL names, its state in bytes 2 and 3 (R569). -/
def State.requestWord (s : State) : Nat :=
  let x := s.session (s.reg .slotDbgSess)
  let r := if s.reg .slotDbgSlot = 0 then x.active.map (fun r => (r, if r.ending then 3 else 2))
           else x.waiting.map (fun r => (r, 1))
  if !s.debugReg then 0
  else match r with
    | none => 0
    | some (r, st) =>
      wordOf (slice r.cmd.entry 0 2 ++ leBytes 2 st ++ slice r.cmd.entry 4 60) (s.reg .slotDbgWord)

/-- The session descriptor of R281 for session `i`, as shown since the end of the last phase 5 (R579). -/
def State.descriptor (s : State) (i : Nat) : Bytes :=
  let x := get {} s.sessShown i
  let remain := if x.state = .paused then x.ttl - 1 else (x.active.map (fun r => r.remain)).getD 0
  leBytes 1 (x.state.code + at_ 4 4 (s.deckOf i)) ++
  leBytes 1 (flag 0 x.int4 + flag 1 x.ring + flag 2 x.kvInvalid + flag 3 x.hasPending + flag 4 x.swapping.isSome +
    flag 5 x.swappedOnce + flag 6 x.restarted) ++ leBytes 1 x.priority ++
  leBytes 1 (activeCode x.active + flag 2 x.waiting.isSome + flag 3 x.cancelPending) ++ leBytes 2 x.quire ++
  leBytes 2 x.model ++ leBytes 8 x.seed ++ leBytes 4 x.maxLen ++ leBytes 4 x.commitLen ++ leBytes 4 x.pendingTok ++
  leBytes 4 remain ++ leBytes 8 (if x.resident then x.kvAddr else 0) ++
  leBytes 8 ((x.active.map (fun r => field r.cmd.entry 0x08 8)).getD 0) ++ leBytes 8 x.histAddr ++
  leBytes 4 ((x.active.map (fun r => r.emitted)).getD 0) ++ leBytes 4 0

/-- IMG_DATA (R562). -/
def State.imgData (s : State) : Nat :=
  let k := s.reg .imgSelKind
  let n := s.reg .imgSelSlot
  let w := s.reg .imgSelWord
  let (st, img) : Nat × Option ImgRec :=
    if n < 2 then
      let f := s.flashSlot k n
      match f.state with
      | .empty => (0, none)
      | .writing => (1, f.image)
      | .valid => (2, f.image)
      | .invalid => (3, f.image)
    else if n = 2 then (4, some (s.activeImage k))
    else match get none s.upd.inactive k with
      | none => (0, none)
      | some c => (if c.staged then 5 else 6, some c.image)
  let m := img.getD {}
  if k = 0 then 0
  else if w = 0 then m.version
  else if w = 1 then at_ 32 4 st + at_ 16 16 m.settings + at_ 0 16 m.level
  else wordOf m.digest (w - 2)

/-- Code of an update engine state (R562). -/
def UpdState.code : UpdState → Nat
  | .idle => 0 | .receiving => 1 | .verifying => 2 | .activating => 3 | .paused => 4

/-- A temperature of the model as a code of R139. -/
def tempCode (t : Int) : Nat := (clampInt 0 4095 (t / 65536)).toNat

/-- TELEM_DATA (R143). -/
def State.telemData (s : State) : Nat :=
  let t := get {} s.therm.telem (s.reg .telemSel)
  at_ 48 8 t.strobe + at_ 32 16 t.tick + flag 31 t.valid + at_ 0 16 t.value

/-- SEC_STS (R570). -/
def State.secSts (s : State) : Nat :=
  let c := s.sec
  at_ 16 2 c.lastCmd + at_ 12 2 c.verifier + at_ 8 4 (maskOf 4 (c.owners.map (fun x => x.1))) +
  flag 4 (c.unlocked && c.scopeScan) + flag 3 (c.unlocked && c.scopeReg) + flag 2 c.unlocked + flag 1 c.locked +
  flag 0 c.reqSig

/-- KEY_DATA (R570). -/
def State.keyData (s : State) : Nat :=
  match get [] s.sec.owners (s.reg .keySlot) with
  | [] => 0
  | k => if s.reg .keyWord < 6 then wordOf (sha384 k) (s.reg .keyWord) else 0

/-- State of an image as SLOT_DATA codes it (R577). -/
def ImageState.code : ImageState → Nat
  | .loading => 1 | .ready => 2 | .current => 3 | .retiring => 4

/-- SLOT_DATA (R577). -/
def State.slotData (s : State) : Nat :=
  let k := s.slot (s.reg .slotSelSlot)
  let w := s.reg .slotSelWord
  let m := if s.reg .slotSelImg = 0 then (match k.current with
      | some m => some m
      | none => k.retiring) else k.incoming
  let img := m.getD {}
  if w = 0 then at_ 16 16 (if m.isSome then img.mask else k.mask) + at_ 8 8 ((k.op.map (fun o => o.op)).getD 0) +
    at_ 0 3 (m.elim 0 (fun m => m.state.code))
  else if w = 1 then img.gen
  else wordOf img.digest (w - 2)

/-- Code of a stress window phase (R578). -/
def TestPhase.code : TestPhase → Nat
  | .idle => 0 | .settle => 1 | .heat => 2 | .run => 3 | .cool => 4 | .recal => 5 | .done => 6

/-- The result record of R518 that TEST_RES_SEL names. -/
def State.testRecord (s : State) : Bytes :=
  match s.test.results[s.reg .resRec]? with
  | none => []
  | some r =>
    leBytes 1 r.cls ++ leBytes 1 r.element ++ leBytes 2 r.pattern ++ leBytes 2 r.group ++ leBytes 2 r.index ++
    leBytes 4 r.row ++ leBytes 4 r.fails ++ leBytes 4 (nth s.test.ticks (s.reg .resRec)) ++ leBytes 2 r.temp ++
    List.replicate 10 0#8

/-- Counters of a deckle's stream (R576). -/
def State.strmWord (s : State) (d reg : Nat) : Nat :=
  let k := s.deckle d
  if reg = 0x108 then k.tokCnt
  else if reg = 0x110 then k.cqPi
  else if reg = 0x118 then k.deferUnits
  else if reg = 0x120 then k.deferTicks
  else if reg = 0x128 then k.pubLast
  else if reg = 0x130 then k.creditWait
  else 0

/-- The read-only registers of the global pages. -/
def State.globalWord (s : State) (kind reg : Nat) : Nat :=
  match kind, reg with
  | 0x01, 0x100 => s.activeIfLevel
  | 0x01, 0x130 => at_ 56 2 s.torus.member + at_ 32 15 s.torus.root + at_ 16 16 s.torus.present.length +
      at_ 0 16 s.torus.unreach
  | 0x01, 0x138 => s.torus.epoch
  | 0x02, 0x100 => s.tick.period
  | 0x02, 0x108 => s.tick.now
  | 0x02, 0x110 => ofSigned 32 s.torus.alignErr
  | 0x02, 0x118 => ofSigned 5 s.torus.slip
  | 0x02, 0x120 => s.tick.ringLate
  | 0x02, 0x128 => s.tick.overruns
  | 0x03, 0x140 => 0x100000 - s.upd.buffer.length
  | 0x03, 0x148 => at_ 38 26 s.upd.bytes + at_ 32 3 s.upd.cause + at_ 16 16 s.upd.result + at_ 8 3 s.upd.kind +
      at_ 0 3 s.upd.state.code
  | 0x03, 0x158 => s.imgData
  | 0x04, 0x150 => s.secSts
  | 0x04, 0x160 => s.keyData
  | 0x05, 0x100 => at_ 16 16 s.power.bootMs + at_ 0 3 s.power.stage
  | 0x05, 0x108 => b2n s.power.autoReset
  | 0x05, 0x110 => flag 2 s.power.battRaw + flag 1 s.power.refFell + flag 0 s.power.refExt
  | 0x05, 0x118 => s.power.i3cAddr
  | 0x06, 0x108 => s.telemData
  | 0x06, 0x110 => flag 1 s.therm.fast
  | 0x06, 0x120 => at_ 16 9 s.therm.hiPoint + at_ 0 12 (tempCode s.therm.hi)
  | 0x06, 0x130 => tempCode (get 0 s.therm.points (s.reg .pointSel))
  | 0x06, 0x138 => flag 2 (decide (8 < s.therm.excl.length)) + flag 1 s.therm.throttle + flag 0 s.therm.warn
  | 0x06, 0x140 => maskOf 48 s.therm.excl
  | 0x06, 0x148 => at_ 32 32 s.therm.lastShut.2.2 + at_ 16 9 s.therm.lastShut.2.1 + at_ 0 3 s.therm.lastShut.1
  | 0x07, 0x108 => s.therm.step
  | 0x07, 0x110 => s.limitE
  | 0x07, 0x118 => s.capRate
  | 0x07, 0x120 => s.therm.pEst
  | 0x07, 0x128 => s.therm.guardCnt
  | 0x08, 0x118 => maskWhere 64 (fun v => (s.vat v).state == .calibrating)
  | 0x08, 0x120 => maskWhere 64 (fun v => (s.vat v).initFail)
  | 0x08, 0x128 => at_ 48 16 (get 0 s.histSnap 32)
  | 0x08, 0x130 => if 1535 < s.reg .histGroup then 0
      else at_ 32 32 (get 0 s.histSnap (2 * s.reg .histPair + 1)) + at_ 0 32 (get 0 s.histSnap (2 * s.reg .histPair))
  | 0x09, 0x108 => at_ 32 32 (s.vat (s.reg .ageSel)).ageNow + at_ 0 32 (s.vat (s.reg .ageSel)).ageBase
  | 0x09, 0x110 => (s.vat (s.reg .ageSel)).slowPpm
  | 0x09, 0x118 => s.upd.recSeq
  | 0x09, 0x128 => flag 1 s.upd.recDone + flag 0 (s.upd.recBusy.isSome || s.upd.recWait.isSome)
  | 0x0A, 0x108 => wordOf (s.captureRecord (s.reg .errSelPage)) (s.reg .errSelWord)
  | 0x0A, 0x110 => s.errs.eventLost
  | 0x0A, 0x118 => s.errs.events.length
  | 0x0B, 0x108 => s.sbData
  | 0x0B, 0x110 => s.entries.length
  | 0x0B, 0x118 => s.sched.capNow
  | 0x0C, 0x100 => (s.sessions.filter (fun x => x.2.state != .closed)).length
  | 0x0C, 0x108 => (s.sessions.filter (fun x => x.2.state == .paused || x.2.state == .swapped)).length
  | 0x0C, 0x118 => s.requestWord
  | 0x0C, 0x120 => s.rejects
  | 0x0D, 0x100 => s.kvPool
  | 0x0D, 0x108 => s.kvFree
  | 0x0D, 0x110 => s.kvSat
  | 0x0D, 0x118 => s.swapOuts
  | 0x0D, 0x120 => s.swapIns
  | 0x0E, r => s.strmWord (s.reg .strmSel) r
  | 0x0F, 0x110 => get 0 (s.slot (s.reg .mmapSlot)).members (s.reg .mmapIdx)
  | 0x0F, 0x120 => s.slotData
  | 0x0F, 0x128 => maskWhere 16 (fun k => (s.slot k).op.isSome)
  | 0x10, 0x108 => at_ 32 13 s.test.results.length + at_ 16 6 s.test.vat + at_ 8 3 s.test.cause +
      at_ 0 4 s.test.phase.code
  | 0x10, 0x118 => wordOf s.testRecord (s.reg .resWord)
  | _, _ => 0

/-- The NONCE words of the SEC page (R570). -/
def State.nonceWord (s : State) (reg : Nat) : Nat := wordOf s.sec.nonceReg ((reg - 0x118) / 8)

/-! ### Pages of vats, ports, stacks and deckles (R584 to R596) -/

/-- Code of a converter state (R123). -/
def ConvState.code : ConvState → Nat
  | .serving => 0 | .spareIdle => 1 | .cal => 2 | .suspect => 3

/-- The word CORR_DATA returns (R123, R124, R126). -/
def State.corrWord (s : State) (v : Nat) : Nat :=
  let g := s.group v (s.reg .corrGroup v)
  let i := s.reg .corrIndex v
  if s.corrBad v then 0
  else if s.reg .corrKind v = 0 then
    let c := s.convNow v (s.reg .corrGroup v) i
    at_ 62 2 c.state.code + at_ 58 4 (c.covers.getD 0xF) + at_ 44 12 (ofSigned 12 c.gainTgt) +
      at_ 32 12 (ofSigned 12 c.gain) + at_ 16 10 (ofSigned 10 c.ofsTgt) + at_ 0 10 (ofSigned 10 c.ofs)
  else
    let c := g.trim i
    at_ 16 7 (ofSigned 7 c.target) + at_ 0 7 (ofSigned 7 c.applied)

/-- Converters now SUSPECT in a vat (R587). -/
def State.suspects (s : State) (v : Nat) : Nat :=
  ((s.groupsOf v).map (fun p => ((s.group v p).convs.filter (fun c => c.2.state == .suspect)).length)).foldl (· + ·) 0

/-- The read-only registers of the pages of a vat. -/
def State.vatWord (s : State) (kind v reg : Nat) : Nat :=
  let x := s.vat v
  match kind, reg with
  | 0x13, 0x108 => at_ 48 11 x.cntRecal + at_ 32 11 x.cntRetired + at_ 16 11 x.cntSpare + at_ 0 11 x.cntIn
  | 0x13, 0x110 => x.zplane
  | 0x13, 0x118 => x.surge
  | 0x13, 0x120 => x.overruns
  | 0x13, 0x128 => x.miscounts
  | 0x13, 0x130 => x.retCause
  | 0x14, 0x108 => x.repairs
  | 0x14, 0x110 => x.overRes
  | 0x14, 0x118 => x.wmSamples
  | 0x14, 0x120 => x.wmMismatch
  | 0x14, 0x128 => x.sideMacs
  | 0x15, 0x100 => x.blocks
  | 0x15, 0x108 => x.merges
  | 0x15, 0x110 => x.kvBytes
  | 0x15, 0x118 => x.ringParts
  | 0x16, 0x100 => flag 1 x.refReady + flag 0 x.refEn
  | 0x16, 0x110 => s.corrWord v
  | 0x16, 0x118 => x.ovf
  | 0x16, 0x120 => s.suspects v
  | 0x16, 0x128 => x.refFaults
  | 0x17, 0x100 => at_ 32 13 x.accSize + at_ 0 13 x.accBase
  | 0x17, 0x108 => at_ 32 13 x.corrSize + at_ 0 13 x.corrBase
  | 0x17, 0x110 => at_ 32 13 x.stageSize + at_ 0 13 x.stageBase
  | 0x17, 0x118 => x.eccCorr
  | 0x17, 0x120 => x.eccUncorr
  | 0x17, 0x128 => x.scrAddr
  | 0x17, 0x130 => if s.debugReg then s.scrWord v else 0
  | _, _ => 0

/-- Nanoseconds to the nearest of a time in quarter nanoseconds. -/
def nearestNs (t : Int) : Int := (t + 2) / 4

/-- The lane's receiver is locked: trained, and not out by failure (log entry 71). -/
def portLocked (x : Port) (l : Nat) : Bool := (x.state == .session || x.state == .up) && !x.mapped.contains l

/-- The read-only registers of a FELT page. -/
def State.feltWord (s : State) (p reg : Nat) : Nat :=
  let x := s.port p
  let l := s.reg .laneSel p
  match reg with
  | 0x100 => at_ 16 3 x.state.code + flag 0 x.enable
  | 0x108 => maskWhere 32 (fun l => portLocked x l && !x.drained.contains l)
  | 0x110 => x.drainReg
  | 0x120 => if x.state = .up then x.neighId else 0
  | 0x128 => at_ 32 32 (ofSigned 32 (nearestNs x.time.phi)) + at_ 0 32 (ofSigned 32 (nearestNs x.time.delta))
  | 0x130 => x.fecCorr
  | 0x138 => x.fecUncorr
  | 0x140 => x.retry
  | 0x148 => x.authFail
  | 0x150 => x.txFrames
  | 0x158 => x.rxFrames
  | 0x160 => x.fwdFrames
  | 0x170 => flag 34 (x.drained.contains l) + flag 33 (x.mapped.contains l) + flag 32 (portLocked x l) +
      at_ 0 32 (get 0 x.symLast l)
  | _ => 0

/-- The read-only registers of a MEM page. -/
def State.memWord (s : State) (st reg : Nat) : Nat :=
  let k := pageKey st (s.reg .ownerSel st)
  let stat := fun c => get 0 s.memStat (st * 8 + c)
  match reg with
  | 0x100 => stat 0
  | 0x108 => stat 1
  | 0x110 => (s.pageOut.filter (fun x => x.1 / stackPages == st && x.2 == 1)).length
  | 0x128 => flag 9 (get 0 s.pageOut k == 2) + flag 8 (s.isOut k) + at_ 0 8 (s.owner k)
  | 0x130 => at_ 32 21 (s.owners.filter (fun x => x.1 / stackPages == st && decide (0x80 ≤ x.2) && decide (x.2 < 0xC0))).length +
      at_ 0 21 (s.freePages st)
  | 0x138 => stat 2
  | 0x140 => stat 3
  | _ => 0

/-- The read-only registers of a DECK page. -/
def State.deckWord (s : State) (d reg : Nat) : Nat :=
  match reg with
  | 0x128 => (s.deckle d).sqCi
  | 0x160 => at_ 32 16 (s.sbUsed d)
  | 0x178 => at_ 32 32 (s.kvUsed d)
  | 0x1D0 => wordOf (s.captureRecord (pageIndex 0x18 d)) (s.reg .derrSel d)
  | _ => 0

/-- A register of a page: its common register, or its stored fields with its read-only ones. -/
def State.readPage (s : State) (kind i reg : Nat) : Nat :=
  if reg < 0x100 then s.readCommon kind i reg
  else s.fieldsWord kind i reg +
    (if kind = 0x18 then s.deckWord i reg
     else if kind = 0x11 then s.feltWord i reg
     else if kind = 0x12 then s.memWord i reg
     else if 0x13 ≤ kind then s.vatWord kind i reg
     else if kind = 0x04 ∧ 0x118 ≤ reg ∧ reg ≤ 0x140 then s.nonceWord reg
     else s.globalWord kind reg)

/-! ### The group-map window (R177, R591) -/

/-- A group as the window shows it: as at the last boundary while the tick runs. -/
def State.shownGroups (s : State) : SMap Group := if s.tick.running then s.groupShown else s.groups

/-- Code of a group state in the window (R591). -/
def GroupState.code : GroupState → Nat
  | .inService => 0 | .spare => 1 | .recal => 2 | .retired => 3

/-- Word 0 of a group. -/
def Group.mapWord (g : Group) : Nat :=
  let suspect := ((g.convs.filter (fun c => c.2.state == .suspect)).map (fun c => c.1)).head?
  at_ 42 22 g.miscount + flag 41 g.homeVat.isSome +
  at_ 32 9 ((g.tiles.map (fun t => t.2.stuck.length)).foldl (· + ·) 0) + at_ 30 2 g.state.code + at_ 27 3 g.retCause +
  at_ 16 11 g.logical + at_ 12 4 (min 15 g.modelSlot) + at_ 8 4 (suspect.getD 0xF) + at_ 4 4 (maskOf 4 (g.tiles.map (fun t => t.1)))

/-- Word 1 of a group, its margin word (R177). -/
def Group.marginWord (g : Group) : Nat :=
  let cand := match g.replan with
    | some r => (r.left.head?).getD 0
    | none => 0
  at_ 56 8 g.marginMin + at_ 48 8 g.marginLast + at_ 40 8 g.sigma + at_ 33 3 cand + at_ 24 8 g.replanCnt +
  flag 19 g.replan.isSome + flag 18 g.due.isSome + flag 17 g.breach + flag 16 g.valid + at_ 4 6 (g.homeVat.getD 0) +
  at_ 0 3 g.plan

/-- Entry `l` of the logical map of vat `v`. -/
def State.logicalEntry (s : State) (v l : Nat) : Nat :=
  let x := s.vat v
  if 1487 < l then 0
  else if x.state = .off ∨ x.state = .calibrating then 0xFFFF
  else
    let gs := s.shownGroups.filter (fun g => g.2.logical == l && (g.2.state == .inService || g.2.state == .recal))
    let own := gs.filter (fun g => g.1 / 1536 == v && g.2.homeVat.isNone)
    match own.find? (fun g => g.2.modelSlot != 16), gs.find? (fun g => g.2.homeVat == some v), own.head? with
    | some g, _, _ => g.1 % 1536
    | none, some g, _ => 0x8000 + g.1 / 1536
    | none, none, some g => g.1 % 1536
    | none, none, none => 0xFFFF

/-- An aligned word of the region of a vat at +0x8000 and above. -/
def State.mapWindow (s : State) (v off : Nat) : Nat :=
  if off < 0xE000 then
    let g := get {} s.shownGroups (groupKey v ((off - 0x8000) / 16))
    if off % 16 = 0 then g.mapWord else g.marginWord
  else sumTo 4 (fun i => at_ (16 * i) 16 (s.logicalEntry v ((off - 0xE000) / 2 + i)))

/-! ### The BARs (R395 to R397, R579 to R581) -/

/-- An aligned word of a function's MSI-X table or pending bit array, by its offset within them. -/
def State.msixWord (s : State) (fn off : Nat) : Nat :=
  let f := s.func fn
  if off < 0x800 then
    let e := get {} f.table (off / 16)
    if (if fn = 0 then 32 else 4) ≤ off / 16 then 0
    else if off % 16 = 0 then e.addr else e.data + b2n e.masked * 2 ^ 32
  else if off = 0x800 then maskOf 64 f.pendBits else 0

/-- An aligned word through BAR0 of the PF. -/
def State.wordPf (s : State) (off : Nat) : Nat :=
  if off < 0x1000 then s.msixWord 0 off
  else if 0x80000 ≤ off ∧ off < 0x88000 then
    let i := s.reg .sessWin * 512 + (off - 0x80000) / 64
    wordOf (s.descriptor i) (off / 8 % 8)
  else if 0x100000 ≤ off ∧ off < 0x500000 ∧ 0x8000 ≤ off % 0x10000 then
    s.mapWindow ((off - 0x100000) / 0x10000) (off % 0x10000)
  else match pageOf (off / 4096) with
    | some (kind, i) => s.readPage kind i (off % 4096)
    | none => 0

/-- An aligned word through BAR0 of VF `n`. -/
def State.wordVf (s : State) (n off : Nat) : Nat :=
  let d := n - 1
  if off < 0x1000 then s.readPage 0x18 d off
  else if off < 0x2000 then (if off % 4096 = 0x100 then 0 else s.strmWord d (off % 4096))
  else if off < 0x3000 then
    match off % 4096 with
    | 0x000 => at_ 16 8 1 + at_ 8 8 d + at_ 0 8 2
    | 0x100 => s.tick.now
    | 0x108 => s.therm.step
    | 0x110 => s.activeIfLevel
    | _ => 0
  else if off < 0x4000 then s.msixWord n (off % 4096)
  else if 0x8000 ≤ off ∧ off < 0x10000 then
    let k := s.reg .deckWin d * 512 + (off - 0x8000) / 64
    if k < s.reg .sessCount d then wordOf (s.descriptor (s.reg .sessBase d + k)) (off / 8 % 8) else 0
  else 0

/-- What a read of `size` bytes at an offset of a function's BAR0 returns; none where the read is an Unsupported Request
or the host does not reach the function. -/
def State.readReg (s : State) (fn offset size : Nat) : Option Nat :=
  let w := if fn = 0 then s.wordPf (offset / 8 * 8) else s.wordVf fn (offset / 8 * 8)
  if !s.reaches fn then none
  else if size = 8 ∧ offset % 8 = 0 then some w
  else if size = 4 ∧ offset % 4 = 0 then some (w / 2 ^ (32 * (offset % 8 / 4)) % 2 ^ 32)
  else none

end Sys2Proof.Machine
end

