-- ==== Sys2Proof/WellFormed.lean ====
section
/-! DEFINITION. Which commands are well formed: every operand within the width of the field, the table or the message it
comes from. The meanings are total and do not rest on these checks. -/
namespace Sys2Proof

/-- A vector of numbers each below a bound. -/
def allBelow (n : Nat) (l : List Nat) : Bool := l.all (fun x => decide (x < n))

/-- Bytes a host read returned, when it did, number `n` (R36, R411). -/
def HostRead.wf (n : Nat) : HostRead → Bool
  | .data bs => bs.length == n
  | _ => true

/-- Bytes a host read returned, at most `n` of them. -/
def HostRead.wfMax (n : Nat) : HostRead → Bool
  | .data bs => decide (bs.length ≤ n)
  | _ => true

/-- A telemetry strobe holds at most 258 raw values of 16 bits and four reference results (R136, R137). -/
def StrobeIn.wf (s : StrobeIn) : Bool :=
  decide (s.raw.length ≤ 258) && allBelow 65536 s.raw && decide (s.refs.length ≤ 4)

/-- Ring reads: 8-byte producer and consumer words, 64-byte entries (R223, R224, R300). -/
def RingIn.wf (r : RingIn) : Bool :=
  r.pi.wf 8 && r.ci.wf 8 && r.entries.all (HostRead.wf 64) && r.trs.all (fun t => decide (t.1 < 262144) && t.2.wf 8)

/-- A physical group (R91). -/
def groupOk (p : Nat) : Bool := decide (p < 1536)

/-- A stuck bit lies in one of four tiles of 256 rows and 288 columns (R111). -/
def StuckIn.wf (x : StuckIn) : Bool := decide (x.tile < 4) && decide (x.row < 256) && decide (x.col < 288)

/-- A fine value has 15 bits (R121). -/
def fineOk (f : Nat) : Bool := decide (f < 32768)

/-- A misread column is one of 272, under one of four planes and two halves (R88). -/
def CodeFault.wf (f : CodeFault) : Bool :=
  decide (f.col < 272) && decide (f.plane < 4) && decide (f.half < 2) && fineOk f.fine

/-- A calibration block names a group, a plan of R175, a tile slot, a set of patterns and columns 0 to 287, each with 16
fine values under each of at most four patterns (R146, R150). -/
def BlockIn.wf (b : BlockIn) : Bool :=
  groupOk b.group && [0, 1, 2, 3, 4, 6].contains b.plan && decide (b.tile < 4) && decide (b.pats < 256) &&
  b.cols.all (fun c => decide (c.1 < 288) && c.2.all (fun l =>
    decide (l.pat < 4) && decide (l.half < 3) && l.fines.length == 16 && l.fines.all fineOk))

/-- A group of an initial calibration: its converters, blocks and stuck bits (R176). -/
def InitIn.wf (x : InitIn) : Bool :=
  groupOk x.group && x.convs.all (fun c => decide (c.1 < 9)) && x.blocks.all BlockIn.wf && x.stuck.all StuckIn.wf

/-- A page index of R495. -/
def pageOk (p : Nat) : Bool := decide (p < 0x500)

/-- A frame is addressed within 2^15 nodes on one of 8 virtual channels, carries at most 4,000 payload bytes, and its errors
lie in its 4,096 bytes, which 32 lanes carry (R351, R352, R361). -/
def FrameIn.wf (f : FrameIn) : Bool :=
  decide (f.vc < 8) && decide (f.deckle < 16) && decide (f.dest < 32768) && decide (f.src < 32768) &&
  decide (f.payload.length ≤ 4000) && f.errs.all (fun e => decide (e.1 < 4096) && decide (e.2 < 32))

/-- The session named is in the table (R279). -/
def sessOk (i : Nat) : Bool := decide (i < 262144)

/-- Found bits of a set write name a group and a stuck bit (R336). -/
def OpFault.wf : OpFault → Bool
  | .stuck cells => cells.all (fun c => decide (c.1 < 98304) && c.2.wf)
  | .none | .scrCorrected _ | .scrUncorr _ _ | .corrStore | .quireRead | .kvEcc _ _ | .memCorr _ | .memUncorr _ | .sbDup
  | .webForeign _ _ | .tagParity _ _ | .unmapped _ => true

/-- A completion event names a sequence number of 64 bits (R229). -/
def OpRef.wf (r : OpRef) : Bool := decide (r.seq < 2 ^ 64) && r.fault.wf

/-- A command's operands are within their ranges. -/
def Instr.wf : Instr → Bool
  | .vin64Loss => true
  | .vin64Qualified => true
  | .alwaysOnResetExit _ _ => true
  | .modResetN _ _ _ => true
  | .hostLinkDown _ => true
  | .hostLinkUp => true
  | .flrVf _ _ => true
  | .flrPf _ => true
  | .d3hot _ _ => true
  | .pwrOnBatt _ => true
  | .refLost => true
  | .thermTrip _ _ => true
  | .thermtripRelease => true
  | .pstageFault => true
  | .clkLock _ => true
  | .ideFail => true
  | .bootDirectory _ _ => true
  | .bootImages slots => decide (slots.length ≤ 14)
  | .bootIdentity _ _ _ => true
  | .hostPortStart => true
  | .linkTrained ms => decide (ms < 2 ^ 32)
  | .tickBoundary strobe rings => strobe.wf && rings.all RingIn.wf && decide (rings.length ≤ 16)
  | .calibrationWindow _ blocks => blocks.all BlockIn.wf
  | .evaluationPhase => true
  | .intermediateStrobe k strobe => decide (k.val ≠ 0) && strobe.wf
  | .allocationPhase => true
  | .publicationPhase => true
  | .selfStrobe strobe => strobe.wf
  | .tickRunSet => true
  | .tickRunClear => true
  | .tickPeriod value => decide (value < 65536)
  | .tileMvm op faults _ => op.wf && faults.all CodeFault.wf
  | .residual op found => op.wf && found.faults.all CodeFault.wf
  | .sizing op => op.wf
  | .attnBlock op => op.wf
  | .vector op => op.wf
  | .kvAppend op => op.wf
  | .exchange op _ => op.wf
  | .sample op => op.wf
  | .ctxSave op => op.wf
  | .ctxRestore op => op.wf
  | .overrun _ _ => true
  | .openSession _ header history => header.wf 256 && history.wfMax (16777216)
  | .prefill _ tokens => tokens.wfMax (16777216)
  | .generate _ => true
  | .pause _ => true
  | .resume _ => true
  | .cancel _ => true
  | .checkpoint _ => true
  | .checkpointWrite _ session log => sessOk session && log.wfMax (16777216)
  | .close _ => true
  | .setQuire _ => true
  | .ttlExpired session => sessOk session
  | .swapOutComplete session _ => sessOk session
  | .swapInComplete session _ => sessOk session
  | .hostReadFail _ => true
  | .load desc _ => desc.wf 128
  | .reamImageData _ _ => true
  | .switch desc => desc.wf 128
  | .discard desc => desc.wf 128
  | .unload desc => desc.wf 128
  | .stuckExport desc => desc.wf 128
  | .couchRecv desc => desc.wf 128
  | .qload _ desc => desc.wf 128
  | .qunload _ desc => desc.wf 128
  | .rewriteComplete _ stuck => stuck.all (fun x => decide (x.1 < 64) && groupOk x.2.1 && x.2.2.all StuckIn.wf)
  | .drainLimitExpiry _ _ => true
  | .vatReplace _ => true
  | .spareRewriteDone _ group stuck => groupOk group && stuck.all StuckIn.wf
  | .converterCalDone _ group _ _ => groupOk group
  | .fallbackStart _ => true
  | .fallbackEnd _ _ blocks => blocks.all BlockIn.wf
  | .marginWindowEnd => true
  | .periodicReplan => true
  | .replanCandidateEnd _ group => groupOk group
  | .replanReq _ _ => true
  | .initCal mask => decide (mask < 2 ^ 64)
  | .initCalDone _ groups => groups.all InitIn.wf
  | .marginRecordDue => true
  | .recordWriteDone _ => true
  | .recShut => true
  | .refbufEn _ _ => true
  | .refbufReady _ unsettled => unsettled.all groupOk
  | .corrData _ value => value.all (fun w => decide (w < 2 ^ 64))
  | .histSel value => decide (value < 2 ^ 64)
  | .histData => true
  | .scrData _ value => value.all (fun w => decide (w < 2 ^ 64))
  | .seqFault _ => true
  | .seqReloadDone _ _ => true
  | .hubHang _ _ => true
  | .managementEvent => true
  | .pageErrClear page _ w => pageOk page && decide (w < 2 ^ 64)
  | .pageErrInj page value => pageOk page && decide (value < 2 ^ 64)
  | .pageLatch page value => pageOk page && decide (value < 2 ^ 64)
  | .vatRun _ => true
  | .vatDrain _ => true
  | .vatService _ => true
  | .deckOpen _ _ _ => true
  | .sqEn _ _ _ => true
  | .cqEn _ _ _ => true
  | .retirePage _ _ => true
  | .unretire _ _ => true
  | .registerWrite _ offset size value => decide (offset < 0x800000) && decide (size ≤ 8) && decide (value < 2 ^ 64)
  | .pldmSettingWrite _ value => decide (value < 4096)
  | .portEn _ _ => true
  | .laneDrain _ mask => decide (mask < 2 ^ 32)
  | .laneFail _ _ => true
  | .laneTestPass _ _ => true
  | .portTrained _ lanes => decide (lanes < 2 ^ 32)
  | .linkSession _ _ => true
  | .sessionRetry _ => true
  | .rekeyDue _ _ => true
  | .rekeyFail _ => true
  | .frameReceive _ frame => frame.wf
  | .exchangeCompletion _ seq _ => decide (seq < 2 ^ 64)
  | .timeFrame _ _ => true
  | .timeFrameMissing _ => true
  | .alignLost => true
  | .autoRejoin _ => true
  | .firstAlignedStrobe _ present _ => allBelow 32768 present
  | .membershipProposal _ proposer _ _ entries =>
    decide (proposer < 32768) && entries.all (fun e => decide (e.kind < 8) && decide (e.dim < 4) && decide (e.node < 32768))
  | .leave => true
  | .capWaitSignal _ _ => true
  | .setKey _ => true
  | .clearKey _ => true
  | .reqSigOn _ => true
  | .reqSigOff _ => true
  | .lock _ => true
  | .unlock _ => true
  | .chal => true
  | .dbgToken _ => true
  | .keyGen => true
  | .getCertificate _ slot => decide (slot < 8)
  | .getMeasurements _ nonce indices => nonce.length == 32 && allBelow 256 indices
  | .keyExchange _ pubKey transcript _ => pubKey.length == 96 && transcript.length == 48
  | .ideKm _ => true
  | .entdaa _ => true
  | .setdasa _ _ => true
  | .write => true
  | .updWin _ _ _ => true
  | .imageVerifyDone _ _ => true
  | .activate => true
  | .updCancel => true
  | .queryDeviceIdentifiers => true
  | .getFirmwareParameters => true
  | .requestUpdate => true
  | .passComponentTable ids => allBelow 256 ids
  | .updateComponent kind len => decide (kind < 256) && decide (len < 2 ^ 32)
  | .firmwareData _ _ => true
  | .activateFirmware _ => true
  | .getStatus => true
  | .cancelUpdateComponent => true
  | .cancelUpdate => true
  | .start => true
  | .abort => true
  | .stressPhaseEnd _ groups => groups.all InitIn.wf
  | .vin64AlwaysOnLoss => true
  | .perstNRelease => true
  | .configurationWrite _ _ => true
  | .alwaysOnDomainFail => true
  | .tapInstruction _ => true
  | .i3cHdrEntry => true
  | .portLightReceived _ => true
  | .directoryWritten => true
  | .checkpointWritten session => sessOk session

end Sys2Proof
end

