-- ==== Sys2Proof/Tests/Slice0.lean ====
section
/-! SUPPORT. Smoke tests of the well-formedness checks, a few single commands, and for each statement with conditions a
theorem that names a state and operands meeting them. -/
namespace Sys2Proof.Tests

set_option Elab.async false

open Sys2Proof.Machine

/-! ### States the tests start from -/

/-- A module in service with its host link up and no tick running. -/
def up : State := { State.reset with
  power := { phase := .up, stage := 6 }, host := { started := true, perstN := true, linkUp := true, vfs := 16 } }

/-- The same with a tick that has ended. -/
def between : State := { up with tick := { running := true, started := true, now := 9 } }

/-- The same in the execution phase of a tick. -/
def within : State := { up with tick := { running := true, started := true, inTick := true, stage := .execution, now := 9 } }

/-- A module whose die 0 had an error counted at the tick before. -/
def counted (s : State) (u : Nat) : State := { s with errs := { s.errs with history := [(u, s.tick.now + 1)] } }

/-! ### Well-formedness: a term that each check refuses -/

def badStrobe : StrobeIn := { raw := [65536], refs := [] }
def badDesc : HostRead := .data []
def opAt0 : OpRef := { deckle := 0, seq := 0, time := 0 }
def badCol : CodeFault := { tile := 0, vec := 0, col := 272, plane := 0, half := 0, fine := 32768 }
def badBlock : BlockIn := { group := 1536, plan := 0 }
def badFrame : FrameIn :=
  { kind := 1, vc := 8, first := true, last := true, deckle := 0, dest := 0, src := 0, seq := 0, payload := [] }

theorem test_illFormed_refused : [
    Instr.bootImages (List.replicate 15 {}), .linkTrained (2 ^ 32), .tickBoundary badStrobe [],
    .calibrationWindow 0 [badBlock], .calibrationWindow 0 [{ group := 0, plan := 5 }],
    .calibrationWindow 0 [{ group := 0, plan := 0, cols := [(287, [{ pat := 0, fines := [32768] }])] }], .intermediateStrobe 0 { raw := [], refs := [] },
    .selfStrobe badStrobe, .tickPeriod 65536, .tileMvm opAt0 [badCol] [],
    .tileMvm opAt0 [{ badCol with col := 0 }] [], .residual opAt0 ⟨[{ badCol with col := 0, half := 2, fine := 0 }], []⟩,
    .openSession 0 badDesc .late, .checkpointWrite 0 262144 .late, .ttlExpired 262144, .swapOutComplete 262144 .late,
    .swapInComplete 262144 [], .checkpointWritten 262144].all (fun i => !i.wf) = true := by decide +kernel

theorem test_illFormed_refused_2 : [Instr.load badDesc .late, .switch badDesc,
    .discard badDesc, .unload badDesc, .stuckExport badDesc, .couchRecv badDesc, .qload 0 badDesc, .qunload 0 badDesc,
    .rewriteComplete 0 [(64, 0, [])], .spareRewriteDone 0 1536 [], .spareRewriteDone 0 0 [{ tile := 4, row := 0, col := 0, held := true }],
    .converterCalDone 0 1536 0 [], .fallbackEnd 0 [] [badBlock], .replanCandidateEnd 0 1536, .initCal (2 ^ 64),
    .initCalDone 0 [{ group := 1536 }], .refbufReady 0 [1536], .corrData 0 (some (2 ^ 64)), .histSel (2 ^ 64),
    .scrData 0 (some (2 ^ 64))].all (fun i => !i.wf) = true := by decide +kernel

theorem test_illFormed_refused_3 : [Instr.pageErrClear 0x500 0 0, .pageErrInj 0 (2 ^ 64), .pageLatch 0 (2 ^ 64), .registerWrite 0 0x800000 4 0,
    .registerWrite 0 0 9 0, .pldmSettingWrite true 4096, .laneDrain 0 (2 ^ 32), .portTrained 0 (2 ^ 32), .frameReceive 0 badFrame,
    .firstAlignedStrobe 0 [32768] [], .membershipProposal 0 32768 0 0 [], .membershipProposal 0 0 0 0 [⟨8, 0, 0⟩],
    .getCertificate .pf 8, .getMeasurements .pf [] [], .keyExchange .pf [] [] true, .updateComponent 256 0, .passComponentTable [256],
    .stressPhaseEnd [] [{ group := 1536 }], .prefill 0 (.data (List.replicate 16777217 0#8))].dropLast.all (fun i => !i.wf) = true ∧
    (HostRead.data [0#8, 0#8]).wfMax 1 = false := by decide +kernel

/-! ### A few operations against the spec's own numbers -/

/-! ### Witnesses: steps, supplies, boot, the host port and the tick -/

theorem witness_StepsAndInvariant : State.reset.pending = [] ∧
    State.Sound { State.reset with pending := [.tickPeriod 5000] } ∧
    NextIs (step { State.reset with pending := [.tickPeriod 5000] }) (fun t => t.tick.periodNext = some 5000) := by
  refine ⟨rfl, ⟨by decide, ⟨by decide, by decide⟩, fun n h => by cases h⟩, _, rfl, by decide⟩

theorem witness_ErrorCodeFields : (∀ k, Err.seqFault 63 = .seqFault k → k < 64) := by
  intro k h; cases h; decide

def offState : State := { State.reset with power := { phase := .off, vinOk := false } }
def tripped (c : Nat) : State := { State.reset with power := { phase := .shutdown, shutCause := c, thermTripN := true } }

theorem witness_SupplyReturn : offState.power.phase = .off ∧ offState.power.alwaysOn = true ∧ up.power.phase ≠ .off ∧
    (tripped 1).power.phase = .shutdown ∧ ((tripped 2).power.shutCause = 1 ∨ (tripped 2).power.shutCause = 2) ∧
    (tripped 3).power.shutCause ≠ 1 ∧ (tripped 3).power.shutCause ≠ 2 := by decide

theorem witness_CorePowerRemoved : up.coreOn = true ∧ up.power.autoReset = false ∧
    (let s := { up with power := { up.power with autoReset := true } }
     s.coreOn = true ∧ s.power.autoReset = true ∧ s.power.vinOk = true) ∧ offState.coreOn = false ∧
    up.counted (unitDie (dieOf 63)) = false ∧ (up.vat 63).state ≠ .retired ∧
    (counted up (unitDie (dieOf 63))).counted (unitDie (dieOf 63)) = true := by decide

theorem witness_Sideband : up.i3cAnswers = true ∧ up.power.alwaysOn = true ∧ (0x2C : Fin 128) ≠ 0x2D ∧
    (let s := { up with errs := { events := [{ code := 1 }] } }
     s.i3cAnswers = true ∧ s.errs.events = { code := 1 } :: []) := by decide

def stage (n : Nat) : State := { State.reset with power := { stage := n }, host := { perstN := true } }

def dirBytes (seq : Nat) : Bytes :=
  let b := leBytes 4 0x52494446 ++ leBytes 4 0 ++ leBytes 8 seq ++ List.replicate 4076 0#8
  b ++ leBytes 4 (crc32c b)

set_option maxRecDepth 20000 in
theorem witness_BootDirectory : (stage 1).power.phase = .boot ∧ (stage 1).power.stage = 1 ∧
    parseDirectory [] = none ∧ (parseDirectory (dirBytes 1)).isSome = true := by
  decide +kernel

theorem witness_BootLater : (stage 3).power.phase = .boot ∧ (stage 3).power.stage = 3 ∧
    (stage 4).power.stage = 4 ∧ (stage 5).power.stage = 5 ∧ (stage 5).host.perstN = true ∧ (stage 5).tick.running = false ∧
    (let s := { stage 5 with host := {} }; s.power.phase = .boot ∧ s.power.stage = 5 ∧ s.host.perstN = false) := by decide

theorem witness_HostPort : up.power.phase = .up ∧ up.host.started = true ∧ up.host.perstN = true ∧ up.host.linkUp = true ∧
    (1 : Fin 17) ≠ 0 ∧ within.tick.running = true ∧ within.tick.inTick = true ∧ between.tick.running = true ∧
    between.tick.inTick = false ∧ up.tick.running = false ∧
    (let s := { within with host := { within.host with ideLink := (true, true) }, regs := [(fldKey .ideReq 0, 1)] }
     (s.host.ideLink.2 = true ∨ s.host.ideSel.2 = true) ∧ s.reg .ideReq = 1 ∧ s.coreOn = true) ∧
    up.reg .ideReq = 0 := by decide

theorem witness_TickRun : up.power.phase = .up ∧ up.reg .hostIfl = up.activeIfLevel ∧ up.reg .ideReq = 0 ∧
    up.tick.running = false ∧ up.reg .join = 0 ∧ (up.setReg .join 0 1).reg .join = 1 ∧ within.tick.running = true ∧
    (up.setReg .hostIfl 0 1).reg .hostIfl ≠ (up.setReg .hostIfl 0 1).activeIfLevel ∧
    (let s := up.setReg .ideReq 0 1
     s.reg .hostIfl = s.activeIfLevel ∧ s.reg .ideReq = 1 ∧ s.host.ideLink.2 = false ∧ s.host.ideSel.2 = false) := by decide

theorem witness_TickPeriodWrite : (∀ v : Fin 64, (up.vat v.val).state ≠ .run) ∧
    (∀ k : Fin 16, ∀ m ∈ (up.slot k.val).images, m.state ≠ .loading → ∀ p, m.plan = some p → p.minPeriod ≤ 5000) ∧ (5000 : Nat) ≤ 50000 ∧
    (4999 < 5000 ∨ 50000 < 4999) ∧ (50001 < 5000 ∨ 50000 < 50001) ∧
    (∃ v : Fin 64, ((up.modVat 63 (fun x => { x with state := .run })).vat v.val).state = .run) := by
  refine ⟨by decide, fun k m h => ?_, by decide, by decide, by decide, 63, by decide⟩
  have e : (up.slot k.val).images = [] := rfl
  simp [e] at h

theorem witness_Phases : between.coreOn = true ∧ between.tick.running = true ∧ between.tick.inTick = false ∧
    up.coreOn = true ∧ up.tick.running = false ∧ within.tick.inTick = true ∧
    (let s := { within with tick := { within.tick with stage := .started } }
     s.tick.stage = .started ∧ s.coreOn = true ∧ s.reloading (seqCode .therm) = false ∧
     { s with reloads := [(seqCode .therm, 12)] }.reloading (seqCode .therm) = true ∧ s.torus.member = 0) ∧
    (let s := { within with tick := { within.tick with stage := .evaluated } }
     s.tick.stage = .evaluated ∧ ∀ d : Fin 16, (s.deckle d.val).opened = false) ∧
    within.tick.stage = .execution ∧ (∀ o ∈ within.sched.ops, o.state = .waiting → o.reissue = true) ∧
    between.tick.stage ≠ .started ∧ between.tick.stage ≠ .evaluated ∧ between.tick.stage ≠ .execution := by decide

theorem witness_IntermediateStrobes : (0 : Fin 8) = 0 ∧ (7 : Fin 8) ≠ 0 ∧ up.midStrobes = false ∧
    (let s := { within with therm := { fast := true } }
     s.therm.fast = true ∧ s.tick.stage = .execution ∧ s.coreOn = true ∧ s.reloading (seqCode .therm) = false ∧
     { s with reloads := [(seqCode .therm, 12)] }.reloading (seqCode .therm) = true) ∧
    (let s := { up with therm := { fast := true } }; s.therm.fast = true ∧ s.tick.running = false) := by decide

/-! ### Signed images: key G (scalar 1) and signatures by the point 2G -/

def keyG : Bytes := beBytes 48 p384G.1 ++ beBytes 48 p384G.2

def rTwo : Nat := 0x8d999057ba3d2d969260045c55b97f089025959a6f434d651d207d19fb96e9e4fe0e86ebe0e64f85b96a9c75295df61

/-- An image of kind `k` with an empty body, signed with `s`. -/
def imageOf (k s : Nat) : Bytes :=
  leBytes 4 0x47494D46 ++ leBytes 2 1 ++ leBytes 2 k ++ List.replicate 64 0#8 ++ sha384 [] ++ keyG ++
  List.replicate 136 0#8 ++ beBytes 48 rTwo ++ beBytes 48 s ++ List.replicate 64 0#8

def sigs : List Nat := [
  0xd42f22bd3eaa93e15a83e4ea0c3235b669c1010e1102572f9dd84db59d36c6d7866e56434c3776abe97c6a93316a54c,
  0x3c2d5d6d0d7ffd8a6a02fbe820df7c7c6e2418e7e57da9cc33f4113dd4c77d97d22cc1240b4fc727f48ee5da7efdb484,
  0x1b56e36fe91489fbd2991e7c1b58d38014c34eafcfe730fc1674fc71048bff4dd5f1dca2a5104c744e5e505e5ead9b96,
  0x92625c35112ddd79a794246184f97d6c1f58871e40af9b617ee04fe5d196dc1264cca3ef5d952c11b6d7a831de9c1b6f,
  0xbbaa74074c15e484fcd221885d83d663ff03147affdb69e45183fd7d4278670a5758fdad79c673b38fe053c646970ad0,
  0x9214f445aab3a744e2c6e4a8621d9f4d57c2e1d7cf587506d9849b59d443f039247a39d80647bc0020b1eef4a73e384c,
  0x3b16d1b2a3caf7f6468cae3b7ee35d518ec48d2e5d23b31ec7a7f1caef4419f685e47f8b4377ba45c7c26a3666e381d]

/-- A module in BOOT at the image stage that trusts the key. -/
def bootState : State := { stage 2 with sec := { vkeys := [sha384 keyG] } }

def image (k : Nat) : ImageIn := { bytes := imageOf k (nth sigs (k - 1)) }
def slots : List ImageIn := ((List.range 7).map (fun i => [image (i + 1), {}])).flatten

theorem image_1 : (bootState.slotImage slots 1 0) = some { imageRec 1 0 (image 1) with fslot := 0 } := by decide +kernel
theorem image_2 : (bootState.slotImage slots 2 0) = some { imageRec 2 0 (image 2) with fslot := 0 } := by decide +kernel
theorem image_3 : (bootState.slotImage slots 3 0) = some { imageRec 3 0 (image 3) with fslot := 0 } := by decide +kernel
theorem image_4 : (bootState.slotImage slots 4 0) = some { imageRec 4 0 (image 4) with fslot := 0 } := by decide +kernel
theorem image_5 : (bootState.slotImage slots 5 0) = some { imageRec 5 0 (image 5) with fslot := 0 } := by decide +kernel
theorem image_6 : (bootState.slotImage slots 6 0) = some { imageRec 6 0 (image 6) with fslot := 0 } := by decide +kernel
theorem image_7 : (bootState.slotImage slots 7 0) = some { imageRec 7 0 (image 7) with fslot := 0 } := by decide +kernel

theorem witness_BootImages : bootState.power.phase = .boot ∧ bootState.power.stage = 2 ∧
    (∀ k, 1 ≤ k → k ≤ 7 → bootState.slotImage slots k (bootState.upd.dirUse.slotOf k) =
      some { imageRec k 0 (image k) with fslot := 0 }) := by
  refine ⟨rfl, rfl, fun k h1 h2 => ?_⟩
  have e : k = 1 ∨ k = 2 ∨ k = 3 ∨ k = 4 ∨ k = 5 ∨ k = 6 ∨ k = 7 := by omega
  rcases e with rfl | rfl | rfl | rfl | rfl | rfl | rfl
  · exact image_1
  · exact image_2
  · exact image_3
  · exact image_4
  · exact image_5
  · exact image_6
  · exact image_7

theorem witness_BootCompatible : ∀ j : Fin 7, ∀ k : Fin 7,
    compatible { imageRec (j.val + 1) 0 (image (j.val + 1)) with fslot := 0 }
      { imageRec (k.val + 1) 0 (image (k.val + 1)) with fslot := 0 } = true := by decide +kernel

/-! ### Witnesses: operations of the scoreboard -/

def op5 (typ : OpType) : OpRec := { seq := 5, typ := typ, unit := 0, deadline := 100, tmpl := some { typ := typ, unit := 0 } }
def cross5 : OpRec := { op5 .exchange with cross := true, deadline := 5000 }
def member1 : StepRec := { sessions := [1], bases := [0], counts := [1], open_ops := 2, toks := [7] }
def tmplOf (typ : OpType) : Template := { typ := typ, unit := 0 }
def ref (time : Nat) : OpRef := { deckle := 0, seq := 5, time := time }

/-- A tick with one operation of one step of deckle 0 admitted. -/
def withOp (o : OpRec) : State :=
  { within with sched := { ops := [o] }, deckles := [(0, { steps := [member1] })], sessions := [(1, { state := .decode })] }

theorem runs (typ : OpType) : (withOp (op5 typ)).Runs (ref 100) typ (op5 typ) member1 (tmplOf typ) := by
  refine ⟨rfl, rfl, rfl, rfl, ?_, ?_, ?_, ?_, rfl⟩ <;> cases typ <;> decide

theorem witness_OperationsComplete :
    (∃ u, passWork [] [] (withOp (op5 .tileMvm)) (op5 .tileMvm) member1 (tmplOf .tileMvm) = .ok u) ∧
    (∃ u, passWork [] [] (withOp (op5 .residual)) (op5 .residual) member1 (tmplOf .residual) = .ok u) ∧
    (∃ u, eachVec (State.sizeVec (op5 .sizing) member1 (tmplOf .sizing)) (tmplVecs member1 (tmplOf .sizing)) (withOp (op5 .sizing)) = .ok u) ∧
    (∃ u, attnWork (withOp (op5 .attnBlock)) (op5 .attnBlock) member1 (tmplOf .attnBlock) = .ok u) ∧
    (∃ u, eachVec (State.vectorVec (op5 .vector) member1 (tmplOf .vector)) (tmplVecs member1 (tmplOf .vector))
      (withOp (op5 .vector)) = .ok u) ∧
    (∃ u, eachVec (State.appendVec (op5 .kvAppend) member1 (tmplOf .kvAppend)) (tmplVecs member1 (tmplOf .kvAppend))
      (withOp (op5 .kvAppend)) = .ok u) ∧
    (∃ u, eachVec (State.sampleVec (op5 .sample) (tmplOf .sample) 0) (tmplVecs member1 (tmplOf .sample))
      (withOp (op5 .sample)) = .ok u) ∧
    (∃ u, exchWork .none {} (withOp (op5 .exchange)) (op5 .exchange) member1 (tmplOf .exchange) = .ok u) ∧
    (op5 .exchange).cross = false :=
  ⟨⟨_, rfl⟩, ⟨_, rfl⟩, ⟨_, rfl⟩, ⟨_, rfl⟩, ⟨_, rfl⟩, ⟨_, rfl⟩, ⟨_, rfl⟩, ⟨_, rfl⟩, rfl⟩

/-- An A4 quantisation that finds a value that is not finite fails; an operation past its deadline may not end. -/
def quant (s : State) : State := s.writeMem (s.stageAddr 0 0) [0#8, 0#8, 0x80#8, 0x7F#8]
def quantTmpl : Template := { tmplOf .vector with vec := .quantise 0 false, count := 1 }
theorem witness_OperationsFail :
    (∃ r, eachVec (State.vectorVec (op5 .vector) member1 quantTmpl) (tmplVecs member1 quantTmpl)
      (quant (withOp (op5 .vector))) = .error r) ∧
    (withOp (op5 .vector)).mayEnd (op5 .vector) 101 = false := ⟨⟨_, rfl⟩, by decide⟩

def saveOp : OpRec := { op5 .ctxSave with tmpl := none }
def restoreOp : OpRec := { op5 .ctxRestore with tmpl := none }
theorem witness_ContextOperations :
    (withOp saveOp).opAt 0 5 = some saveOp ∧ (withOp saveOp).stepOf 0 0 = some member1 ∧
    (withOp saveOp).mayEnd saveOp 100 = true ∧ (withOp saveOp).foreignTile saveOp = false ∧
    (∃ u, saveWork (withOp saveOp) saveOp member1 = .ok u) ∧ (withOp restoreOp).mayEnd restoreOp 100 = true ∧
    (withOp restoreOp).ctxGood ((withOp restoreOp).session 1).ctxPages member1.savedNames.length = false :=
  ⟨by decide, by decide, by decide, by decide, ⟨_, rfl⟩, by decide, by decide +kernel⟩

/-- A context record of the step's generation with no tile. -/
def restoreState : State :=
  let b := leBytes 56 0 ++ leBytes 4 (crc32c [])
  { withOp restoreOp with sessions := [(1, { state := .prefill, ctxPages := [3] })] }.writeMem 196608 (b ++ leBytes 4 (crc32c b))
theorem witness_CtxRestore : ∃ u, restoreWork 100 restoreState restoreOp member1 = .ok u := by
  have h : restoreState.ctxGood [3] 0 = true := by decide +kernel
  have g : field (restoreState.readPaged [3] 0 64) 0x10 8 = 0 := by decide +kernel
  exact ⟨_, by unfold restoreWork; simp only [show (restoreState.session (member1.sessions.headD 0)).ctxPages = [3] from rfl,
    show member1.savedNames.length = 0 from rfl, h, g]; rfl⟩

theorem witness_CompletionAndOverrun : (withOp (op5 .vector)).opAt 0 5 = some (op5 .vector) ∧
    (withOp (op5 .vector)).stepOf 0 0 = some member1 ∧ member1.deckle = (op5 .vector).deckle ∧ 1 < member1.open_ops ∧
    (let o := { op5 .vector with peerWaits := true, retry := 2 }
     (withOp o).opAt 0 5 = some o ∧ o.state = .waiting ∧ o.reissue = false ∧ (withOp o).tick.stage = .execution) ∧
    (let o := { op5 .vector with retry := 2 }
     (withOp o).opAt 0 5 = some o ∧ o.peerWaits = false ∧ (withOp o).opBar o none = none ∧
     o.retry + 1 < (if o.cross then 8 else 4) ∧ o.unit < 64) ∧
    (let o := { op5 .vector with retry := 3 }
     (withOp o).opAt 0 5 = some o ∧ (withOp o).opBar o none = none ∧ (if o.cross then 8 else 4) ≤ o.retry + 1 ∧
     (withOp o).counted (unitHub 0x0B) = false ∧ 1 ∈ (withOp o).opSessions o ∧ ((withOp o).session 1).state ≠ .closed) := by
  decide

theorem witness_CrossExchange :
    (withOp cross5).opAt 0 5 = some cross5 ∧ cross5.cross = true ∧ cross5.state = .waiting ∧ cross5.reissue = false ∧
    (withOp cross5).tick.stage = .execution ∧ 5000 ≤ cross5.deadline ∧ cross5.deadline < 5001 ∧ cross5.localDone = false ∧
    (let o := { cross5 with localDone := true }; (withOp o).opAt 0 5 = some o ∧ o.localDone = true) ∧
    (0 : Nat) ≠ 1 ∧ cross5.peerDone = false ∧ (withOp cross5).Runs (ref 4950) .exchange cross5 member1 (tmplOf .exchange) ∧
    (∃ u, exchWork .none {} (withOp cross5) cross5 member1 (tmplOf .exchange) = .ok u) := by
  refine ⟨by decide, by decide, by decide, by decide, by decide, by decide, by decide, by decide, by decide, by decide,
    by decide, ⟨rfl, rfl, rfl, rfl, by decide, by decide, by decide, by decide, rfl⟩, ⟨_, rfl⟩⟩

theorem witness_StoresOfOperations : member1.deckle = (op5 .vector).deckle ∧ 1 < member1.open_ops ∧
    (∃ x b, tmplVecs member1 (tmplOf .vector) = [x] ∧
      (withOp (op5 .vector)).vectorBytes member1 (tmplOf .vector) x = some b) ∧ (tmplOf .vector).bcast = [] ∧
    (∀ x ∈ tmplVecs member1 (tmplOf .sample), ((withOp (op5 .sample)).floatsAt
      ((withOp (op5 .sample)).srcAt (tmplOf .sample) x.v) 0).all f32Finite = true) :=
  ⟨rfl, by decide, ⟨_, _, rfl, rfl⟩, rfl, fun _ _ => rfl⟩

/-- A KV_APPEND of one head, and a copy of one byte. -/
def appendTmpl : Template := { tmplOf .kvAppend with heads := [0] }
def copyTmpl : Template := { tmplOf .exchange with exch := .copy, count := 1 }
/-- The operation of a template, holding the first unit of its STAGE region; deckle 0 owns page 0. -/
def opOf (m : Template) : OpRec := { op5 m.typ with tmpl := some m, places := [(up.stageAddr 0 0, 4096)] }
def withTmpl (m : Template) : State := { withOp (opOf m) with owners := [(0, ownDeckle 0)] }
theorem witness_MergesAppendsCopies :
    ((withTmpl (tmplOf .sizing)).Runs (ref 100) .sizing (opOf (tmplOf .sizing)) member1 (tmplOf .sizing) ∧
      ∃ x, tmplVecs member1 (tmplOf .sizing) = [x] ∧ (withTmpl (tmplOf .sizing)).pairFor member1 0 0 x.sess = none) ∧
    ((withTmpl appendTmpl).Runs (ref 100) .kvAppend (opOf appendTmpl) member1 appendTmpl ∧
      ∃ x, tmplVecs member1 appendTmpl = [x] ∧ ((withTmpl appendTmpl).session x.sess).ring = false ∧
        ∀ j, j < appendTmpl.heads.length →
          ((withTmpl appendTmpl).floatsAt ((withTmpl appendTmpl).srcAt appendTmpl x.v + 512 * j) 128).all f32Finite = true ∧
          ((withTmpl appendTmpl).floatsAt ((withTmpl appendTmpl).src2At appendTmpl x.v + 512 * j) 128).all f32Finite = true) ∧
    ((withTmpl copyTmpl).Runs (ref 100) .exchange (opOf copyTmpl) member1 copyTmpl ∧ (opOf copyTmpl).cross = false ∧
      copyTmpl.exch = .copy) := by
  refine ⟨⟨⟨rfl, rfl, rfl, rfl, by decide, by decide, by decide, by decide, rfl⟩, _, rfl, by decide⟩,
    ⟨⟨rfl, rfl, rfl, rfl, by decide, by decide, by decide, by decide, rfl⟩, _, rfl, by decide, fun j h => ?_⟩,
    ⟨rfl, rfl, rfl, rfl, by decide, by decide, by decide, by decide, rfl⟩, by decide, by decide⟩
  have e : j = 0 := by have : j < 1 := h; omega
  subst e
  constructor <;> decide +kernel

theorem witness_TilePassStores : ∀ p ∈ (withOp (op5 .tileMvm)).passesOf member1 (tmplOf .tileMvm), burstBad p.burst = false := by
  intro p h; have e : (withOp (op5 .tileMvm)).passesOf member1 (tmplOf .tileMvm) = [] := rfl; simp [e] at h

/-- A tile of zero weights. -/
def rowOf : BitVec 272 := BitVec.ofNat 272 (16 ^ 64 / 15 * 8)
def blank : Tile := { rows := List.replicate 256 rowOf, sw := List.replicate 64 0, sc := List.replicate 8 0 }

theorem blank_row (r : Nat) (h : r < 256) : blank.rows.getD r 0#272 = rowOf := by
  rw [List.getD_eq_getElem?_getD, show blank.rows = List.replicate 256 rowOf from rfl, List.getElem?_replicate_of_lt h]
  rfl

theorem blank_weight (r n : Nat) (h : r < 256) (hn : n < 64) : blank.weight r n = 0 := by
  have e : ∀ m : Fin 64, ((sumTo 4 (fun j => 2 ^ j * b2n (rowOf.getLsbD (4 * m.val + j))) : Nat) : Int) - 8 = 0 := by
    decide +kernel
  have w := e ⟨n, hn⟩
  unfold Tile.weight
  rw [blank_row r h]
  exact w

theorem blank_check (r g : Nat) (h : r < 256) (hg : g < 8) : blank.checkAt r g = 0 := by
  have e : ∀ m : Fin 8, b2n (rowOf.getLsbD (256 + 2 * m.val)) + 2 * b2n (rowOf.getLsbD (257 + 2 * m.val)) = 0 := by
    decide +kernel
  have w := e ⟨g, hg⟩
  unfold Tile.checkAt Tile.bitAt
  rw [blank_row r h]
  exact w

theorem overRows_zero (f : Nat → Int) (h : ∀ r < 256, f r = 0) : overRows f = 0 := by
  have key : ∀ l : List Nat, (∀ r ∈ l, f r = 0) → ∀ a, l.foldl (fun a r => a + f r) a = a := by
    intro l; induction l with
    | nil => intros; rfl
    | cons x l ih => intro hl a; simp [hl x (by simp), ih (fun r hr => hl r (by simp [hr]))]
  exact key _ (fun r hr => h r (by simpa using hr)) 0

theorem blank_sound : blank.Sound := by
  refine ⟨List.length_replicate, fun n hn => ?_, fun g hg => ?_, fun r hr g hg => ?_, (fun c hc => by cases hc),
    List.Pairwise.nil⟩
  · rw [overRows_zero _ (fun r hr => blank_weight r n hr hn)]
    rw [List.getD_eq_getElem?_getD, show blank.sw = List.replicate 64 0 from rfl, 
      List.getElem?_replicate_of_lt hn]
    rfl
  · rw [overRows_zero _ (fun r hr => by rw [blank_check r g hr hg]; rfl)]
    have : ∀ m : Fin 8, nth blank.sc m.val = 0 := by decide
    exact congrArg Int.ofNat (this ⟨g, hg⟩)
  · rw [blank_check r g hr hg]
    have z : ∀ k < 8, blank.weight r (8 * g + k) = 0 := fun k hk => blank_weight r _ hr (by omega)
    have z0 := z 0 (by decide)
    simp at z0
    simp [List.range_succ, z, z0]

def noCor : Corr := fun _ => (0, 0, 0)

theorem fixed_of (split : Bool) (cor : Corr) (t : Tile) (codes : List Nat) (fs : List CodeFault) (gold : Nat → Nat → Int)
    (g : Nat) (h : g < 8)
    (e : assembleE t codes (fun col i => (colCodes split cor t codes fs col i).foldl (· + ·) 0) g % 3 ≠
      (List.range 8).foldl (fun a k => a + ((List.range 64).map
        (assembleD t codes (fun col i => (colCodes split cor t codes fs col i).foldl (· + ·) 0))).getD (8 * g + k) 0)
          (0 : Int) % 3) :
    g ∈ (assemble split cor t codes fs gold).fixed :=
  List.mem_filter.2 ⟨List.mem_range.2 h, by rw [decide_eq_true e, Bool.true_or]⟩

def ones : List Nat := List.replicate 256 1
def misread (code : Nat) : CodeFault := { tile := 0, vec := 0, col := 271, plane := 0, half := 0, fine := 64 * code }

set_option maxRecDepth 10000 in
theorem witness_PassContained : blank.Sound ∧ ones.length = 256 ∧ (∀ c ∈ ones, c < 16) ∧
    colGroup (misread 2).col ≠ 0 / 8 ∧ 63 / 8 ∈ (assemble false noCor blank ones [misread 2] blank.weight).fixed ∧
    (misread 2).col < 272 ∧ (misread 2).plane < 4 ∧ (misread 2).half < 1 ∧ activeRows ones (misread 2).plane ≠ 0 ∧
    (let exact := colCount blank ones 271 0 0 256
     let code := readCode noCor [misread 2] 271 0 0 exact
     code ≠ exact ∧ code ≤ exact + 2 ∧ exact ≤ code + 2) := by
  refine ⟨blank_sound, by decide +kernel, by decide +kernel, by decide, fixed_of _ _ _ _ _ _ _ (by decide) (by decide +kernel),
    by decide, by decide, by decide +kernel, by decide +kernel, by decide +kernel⟩

theorem witness_AttentionMerge : (List.replicate 130 f32Zero).length = 130 ∧ (129 : Nat) < 130 := ⟨List.length_replicate, by decide⟩

def lows (p : Nat) : Option Nat := if p = 0 then some 65 else if p = 2 then some 66 else none
def floors (p : Nat) : Option Nat := if p = 0 then some 60 else if p = 2 then some 60 else none
def replanState (low : Nat) : State :=
  let s := { up with vats := [(0, { state := .idle })] }
  s.modGroup 0 1535 (fun g => { g with replan := some { left := [0], low := some low } })

theorem witness_PlanChoice : up.planOrder[1]? = some 2 ∧ lows 2 = some 66 ∧ (∀ p, up.planOrder[0]? = some p → ∀ e,
      lows p = some e → e < 66) ∧ up.planOrder[0]? = some 0 ∧ floors 0 = some 60 ∧
    (∀ p ∈ up.planOrder, ∀ e, floors p = some e → e < 66 ∧ e ≤ 60) ∧
    ((replanState 59).group 0 1535).replan = some { left := [0], low := some 59 } ∧ ([0] : List Nat).drop 1 = [] ∧
    ((replanState 59).group 0 1535).logical = 0x7FF ∧ ((replanState 59).group 0 1535).state ≠ .retired ∧
    choosePlan (replanState 59).planOrder (fun x => ([(0, 59)].find? (fun y : Nat × Nat => y.1 == x)).map (fun y => y.2)) = none := by
  refine ⟨by decide, by decide, ?_, by decide, by decide, ?_, by decide, by decide, by decide, by decide, by decide⟩
  · intro p h e; cases h; intro h; cases h; decide
  · intro p h e; unfold floors; split
    · intro h; cases h; decide
    · split <;> intro h <;> cases h <;> decide

/-! ### Witnesses: session commands -/

def entry (code sess : Nat) (rest : Bytes) : Bytes :=
  leBytes 4 code ++ leBytes 4 sess ++ leBytes 8 3 ++ rest ++ List.replicate (48 - rest.length) 0#8
def cmd (code : Nat) (rest : Bytes) : Cmd := { entry := entry code 2 rest, id := 1 }
def model0 : Image := { state := .current, gen := 3, vocab := 100, layers := 1, kvHeads := 1 }

/-- Deckle 0 owns sessions 0 to 9; session 2 is `x`; slot 0 holds an image; `c` is the oldest command. -/
def sess (x : Session) (c : Cmd) : State :=
  { (within.setReg .sessCount 0 10).setReg .kvQuota 0 100 with
    sessions := [(2, x)], deckles := [(0, { opened := true, accepted := [c] })], slots := [(0, { current := some model0, mask := 1 })] }

def gen3 : Cmd := cmd 3 (leBytes 8 4 ++ leBytes 4 1 ++ leBytes 4 0 ++ leBytes 4 0x3F800000 ++ leBytes 4 0x3F800000)
def decoding : Session := { state := .decode, hasPending := true, maxLen := 4 }
def pre2 (n : Nat) : Cmd := cmd 2 (leBytes 8 0 ++ leBytes 4 n)

theorem witness_WorkStarts :
    (sess decoding gen3).deckOf (eSession gen3.entry) = 0 ∧ decoding.active = none ∧ decoding.waiting = none ∧
    decoding.swapping ≠ some .outPause ∧ decoding.kvInvalid = false ∧ decoding.commitDue = 0 ∧
    (sess decoding gen3).currentOf decoding.model = some model0 ∧ ((sess decoding gen3).slot 0).unplaced = false ∧
    (sess decoding gen3).Front 0 3 gen3 [] ∧
    (sess decoding gen3).generateBad 2 gen3.entry = false ∧ decoding.hasPending = true ∧ decoding.commitLen < decoding.maxLen ∧
    (let c := pre2 1
     eCode c.entry = 2 ∧ 0 < pCount c.entry ∧ (∀ w ∈ words32 (pCount c.entry) (leBytes 4 99), w < model0.vocab) ∧
     decoding.commitLen + pCount c.entry ≤ decoding.maxLen ∧
     1 < ((if decoding.hasPending then [decoding.pendingTok] else []) ++ words32 (pCount c.entry) (leBytes 4 99)).length ∧
     ((if false then [0] else []) ++ words32 (pCount c.entry) (leBytes 4 99)).length ≤ 1) := by decide +kernel

theorem witness_SessionCommands :
    (let x := decoding
     x.state ≠ .closed ∧ (x.state = .paused → x.ttl ≠ 0) ∧ eCode (cmd 4 []).entry = 4 ∧ x.pausePending = none ∧
     x.active.isNone = true ∧ x.ring = false) ∧
    (let x := { decoding with state := .paused, ttl := 1 }
     x.state = .paused ∧ x.ttl ≠ 0 ∧ eCode (cmd 5 []).entry = 5 ∧ x.kvInvalid = false ∧ x.resumeReq = none) ∧
    (let x := { decoding with active := some { cmd := gen3 } }
     eCode (cmd 6 (leBytes 8 3)).entry = 6 ∧ x.state ≠ .paused ∧ x.cancelPending = false ∧
     (∃ r ∈ x.cancellable, cancelTag (cmd 6 (leBytes 8 3)).entry = 0 ∨ eTag r.cmd.entry = cancelTag (cmd 6 (leBytes 8 3)).entry)) ∧
    (sess decoding (cmd 7 [])).Front 0 7 (cmd 7 []) [] ∧ decoding.kvInvalid = false ∧ decoding.waiting = none ∧ eCode (cmd 8 []).entry = 8 ∧ eCode (cmd 9 (leBytes 2 0xFFFF)).entry = 9 ∧
    (sess decoding gen3).quireBound 0 0 (sqQuire (cmd 9 (leBytes 2 0xFFFF)).entry) ((sess decoding gen3).nextGen 2) = true := by
  decide +kernel

theorem witness_ClosedSession : (∀ k : Fin 8, eCode (cmd (k.val + 2) []).entry = k.val + 2) ∧
    ((sess {} (cmd 9 [])).session (eSession (cmd 9 []).entry)).state = .closed ∧ (within.deckle 15).accepted = [] := by
  decide +kernel

def open2 : Cmd := cmd 1 (leBytes 8 77 ++ leBytes 4 64 ++ leBytes 4 0 ++ leBytes 2 0xFFFF)

theorem gap_some (s : State) (st n : Nat) (h : (firstGap n (st * stackPages) ((st + 1) * stackPages) (s.busyPages st)).isSome) :
    (s.gapIn st n).isSome = true := by
  unfold State.gapIn
  by_cases c : s.rangeFree st (Config.pageChoice s.free.page) n = true
  · simp [c]
  · simpa [c] using h

theorem witness_OpenCompletes :
    (sess {} open2).Front 0 1 open2 [] ∧ (sess {} open2).reloading (seqCode .kv) = false ∧ (sess {} open2).deckOf 2 = 0 ∧
    regionPages 1 1 64 false ≤ stackPages ∧ (sess {} open2).session (eSession open2.entry) = {} ∧
    get {} ((sess {} open2).deckle 0).snaps 2 = {} ∧ oCkptAddr open2.entry = 0 ∧
    (sess {} open2).openBar 0 open2.entry (openOfEntry open2.entry) = none ∧
    (sess {} open2).currentOf (oModel open2.entry) = some model0 ∧ localLen 64 0 0 ≤ 1048576 ∧
    (sess {} open2).kvUsed 0 + regionPages 1 1 64 false ≤ (sess {} open2).reg .kvQuota 0 ∧
    (∀ st : Fin 8, ((sess {} open2).gapIn st.val (regionPages 1 1 64 false)).isSome = true) := by
  refine ⟨by decide +kernel, by decide +kernel, by decide +kernel, by decide +kernel, by decide +kernel, by decide +kernel,
    by decide +kernel, by decide +kernel, by decide +kernel, by decide +kernel, by decide +kernel, fun st => gap_some _ _ _ ?_⟩
  revert st; decide +kernel

theorem witness_OpenStack : ((sess {} open2).regionStack 0 (regionPages 1 1 64 false)).isSome = true := by
  have e : (List.range 8).filter (fun st => ((sess {} open2).gapIn st (regionPages 1 1 64 false)).isSome) = List.range 8 :=
    List.filter_eq_self.2 (fun st hs => witness_OpenCompletes.2.2.2.2.2.2.2.2.2.2.2 ⟨st, List.mem_range.1 hs⟩)
  have v : (sess {} open2).attnVats 0 = [] := by decide +kernel
  have r : ((sess {} open2).roomiest (List.range 8)).isSome = true := by decide +kernel
  simp only [State.regionStack, v, e, List.any_nil, Bool.and_false]
  simpa using r

/-- A session whose swap-in waits for an image of no page: its directory is empty and opens. -/
def emptyImage : SwapImage :=
  { dirTag := gcmTag (aesKeys (gcmKey none)) (swapIv dirPage 0) (swapAad 0 2 0 dirPage) [] }
def swappingIn : Session := { state := .swapped, swapping := some .swapIn, resident := true, image := some emptyImage }

theorem open_empty (key : Bytes) (iv : Nat) (aad : Bytes) :
    gcmOpen key iv aad [] (gcmTag (aesKeys key) iv aad []) = some [] := by
  unfold gcmOpen; rw [if_pos rfl]; rfl

theorem opens (s : State) (i : Nat) (m : SwapImage) (key : Bytes) (h : (s.session i).image = some m)
    (w : gcmKey (s.deckle (s.deckOf i)).swapKey = key) (p : m.pages = [])
    (g : m.dirTag = gcmTag (aesKeys key) (swapIv dirPage m.dirCtr) (swapAad (s.deckOf i) i m.seq dirPage) []) :
    s.openImage i [[]] = some [] := by
  simp only [State.openImage, h, p, w, g, List.length_nil, List.drop_zero]
  have e : (([[]] : List Bytes).take (dirSlots 0)).foldr (· ++ ·) [] = [] := by decide
  rw [e, open_empty]
  rfl

theorem swapIn_opens (s : State) (h : s.session 2 = swappingIn) (d : s.deckOf 2 = 0) (w : (s.deckle 0).swapKey = none) :
    s.openImage 2 [[]] = some [] :=
  opens s 2 emptyImage (gcmKey none) (by rw [h, swappingIn]) (by rw [d, w]) rfl (by rw [d]; simp only [emptyImage])

theorem noImage (s : State) (h : (s.session 2).image = none) : s.openImage 2 [[]] = none := by
  simp only [State.openImage, h]

theorem witness_SwapIn : swappingIn.swapping = some .swapIn ∧ swappingIn.swapLeft = 0 ∧ swappingIn.swapDone = false ∧
    readAll [.data []] = some (some [[]]) ∧ (sess swappingIn gen3).openImage 2 [[]] = some [] ∧
    (sess { swappingIn with image := none } gen3).openImage 2 [[]] = none ∧
    (sess swappingIn gen3).counted (unitHub 0x0D) = false ∧ swappingIn.state ≠ .closed :=
  ⟨rfl, rfl, rfl, rfl, swapIn_opens _ rfl (by decide +kernel) rfl, noImage _ rfl, by decide, by decide⟩

def pause4 : Request := { kind := .pause, cmd := cmd 4 [] }
def ckpt (ending : Bool) : Request := { kind := .checkpoint, cmd := cmd 7 (leBytes 8 4096 ++ leBytes 4 260), ending := ending }
theorem witness_SwapsAndCheckpoints :
    (let x : Session := { decoding with swapping := some .outPause }; x.swapping = some .outPause ∧ x.swapLeft = 0) ∧
    (let x : Session := { state := .paused, active := some pause4 }
     x.state = .paused ∧ x.ttl = 0 ∧ x.resumeReq = none ∧ x.active = some pause4 ∧ x.resident = false ∧ x.swapping = none) ∧
    decoding.state ≠ .paused ∧
    (let x : Session := { decoding with waiting := some (ckpt false) }
     let s := (sess x gen3).modFunc 1 (fun f => { f with busMaster := true })
     x.waiting = some (ckpt false) ∧ (ckpt false).kind = .checkpoint ∧ x.swapping = none ∧ s.ownerOf 2 = some 0 ∧
     s.inStep 2 = false ∧ s.mayIssue (s.fnOf 0) = true ∧ x.commitDue = 0 ∧ cpSnapshot (ckpt false).cmd.entry = false ∧ x.isTail = true ∧
     256 + 4 * (x.commitLen + b2n x.hasPending) ≤ cpSize (ckpt false).cmd.entry) ∧ (ckpt true).ending = true := by
  decide +kernel

theorem witness_FailedReads : (within.deckle 15).sqFails + 1 < 16 ∧
    16 ≤ ({ within with deckles := [(15, { sqFails := 15 })] }.deckle 15).sqFails + 1 ∧
    (sess decoding (pre2 1)).Front 0 2 (pre2 1) [] ∧ decoding.state ≠ .paused := by
  decide +kernel

/-! ### Witnesses: reams, quires and arrays -/

def desc (op slot deckles : Nat) (g : Nat) (len : Nat) : Bytes :=
  leBytes 1 op ++ leBytes 1 slot ++ leBytes 2 deckles ++ leBytes 4 0 ++ leBytes 8 g ++ leBytes 8 0 ++ leBytes 8 len ++
  List.replicate 96 0#8
def loaded : Image := { gen := 3, plan := some {}, sections := [⟨1, 0, 0, sha384 []⟩], secDone := [1] }
def withSlot (x : Slot) : State := { up with slots := [(15, x)] }

theorem witness_ReamStart : up.reloading (seqCode .ream) = false ∧ dSlot (desc 1 15 1 3 65536) ≤ 15 ∧
    (withSlot {}).slot 15 = {} ∧ (withSlot {}).slotBusy 15 = false ∧
    dOp (desc 1 15 1 3 65536) = 1 ∧ (({} : Slot).lastGen ≤ dGen (desc 1 15 1 3 65536)) ∧ dChainAddr (desc 1 15 1 3 65536) = 0 ∧
    dSource (desc 1 15 1 3 65536) = 0 ∧ dChainLen (desc 1 15 1 3 65536) = 0 ∧
    (withSlot {}).spaceFor (dLen (desc 1 15 1 3 65536)) = true ∧
    dOp (desc 6 15 1 3 0) = 6 ∧ dInPort (desc 6 15 1 3 0) ≤ 5 ∧ dOp (desc 2 15 1 3 0) = 2 ∧ dOp (desc 4 15 1 3 0) = 4 ∧
    (withSlot { incoming := some { state := .ready } }).slot 15 = { incoming := some { state := .ready } } ∧
    (withSlot { incoming := some { state := .ready } }).slotBusy 15 = false ∧
    ((withSlot { op := some { op := 5 } }).slot 15).op = some { op := 5 } ∧ ({ op := 5 } : SlotOp).op ≠ 1 ∧
    ({ op := 5 } : SlotOp).op ≠ 6 ∧ (∀ n : Fin 7, dOp (desc n.val 15 1 3 0) = n.val) ∧
    (let x : Slot := { lastGen := 4 }
     (withSlot x).slotBusy 15 = false ∧ x.incoming = none ∧ x.current = none ∧ dGen (desc 1 15 1 3 0) < x.lastGen) ∧
    up.tick.running = false ∧ within.tick.inTick = true := by decide +kernel

/-- The descriptor of `loading` expects the digest that its image has: none. -/
def loading : Slot := { op := some { op := 1, begun := true, desc := desc 1 15 1 3 0 }, incoming := some loaded }

theorem witness_ReamEnd :
    ((withSlot loading).slot 15).op = some { op := 1, begun := true, desc := desc 1 15 1 3 0 } ∧
    ((withSlot loading).slot 15).incoming = some loaded ∧ loaded.sections ≠ [] ∧
    (∀ z ∈ loaded.sections, (z.len = 0 → z.digest = sha384 []) ∧ (z.len ≠ 0 → loaded.secDone.contains z.typ = true)) ∧
    loaded.tilesIn = loaded.tileCnt ∧ (∀ d : Fin 16, (get {} ((withSlot loading).deckle d.val).qops 15).held_ = []) ∧
    (withSlot loading).finalCheck 15 loaded [dExpect (desc 1 15 1 3 0), []] = none ∧
    (withSlot loading).finalCheck 15 { loaded with plan := none } [dExpect (desc 1 15 1 3 0), []] = some .reamFormat ∧
    dOp (desc 3 15 1 3 0) = 3 ∧ (withSlot { incoming := some loaded }).slot 15 = { incoming := some loaded } ∧
    dOp (desc 5 15 1 3 0) = 5 ∧ (let s := within.modFunc 0 (fun f => { f with busMaster := true })
      s.slotBusy 15 = false ∧ s.mayIssue 0 = true ∧ s.tick.inTick = true) := by
  refine ⟨rfl, rfl, by simp [loaded], fun z hz => ?_, rfl, by decide +kernel, by decide +kernel, by decide +kernel,
    by decide +kernel, rfl, by decide +kernel, by decide +kernel, by decide +kernel, by decide +kernel⟩
  cases List.mem_singleton.1 hz
  exact ⟨fun _ => by dsimp only, fun h => absurd rfl h⟩

theorem witness_Quires :
    within.quireBusy 15 = false ∧ dSlot (desc 0x11 15 1023 0 0) ≤ 15 ∧ dDeckles (desc 0x11 15 1023 0 0) ≤ 1023 ∧
    dOp (desc 0x11 15 1023 0 0) = 0x11 ∧ dOp (desc 0x12 15 1023 0 0) = 0x12 ∧
    (let s := sess { decoding with quire := 1023 } gen3
     ((s.sessionsOf 0).any (fun i => ((s.session i).state != .closed || (s.session i).openReq.isSome) &&
       (s.session i).model == 0 && (s.session i).quire == 1023)) = true) ∧
    ((within.sessionsOf 15).any (fun i => ((within.session i).state != .closed || (within.session i).openReq.isSome) &&
       (within.session i).model == 15 && (within.session i).quire == 1023)) = false := by decide +kernel

def spareGroup : Group := { state := .spare }
def held5 : Group := { logical := 5, modelSlot := 15 }
def handOver : State := { up with
  vats := [(0, { state := .retired }), (1, { state := .run })]
  groups := (0, held5) :: (List.range 17).map (fun i => (1536 + i, spareGroup))
  slots := [(15, { current := some loaded, drained := [15] })] }
def rewriteGroup : Group := { rewriting := true, tiles := [(0, {})] }

theorem witness_ArrayWrites :
    (let x : Slot := { current := some loaded, rewriting := true }; x.current = some loaded ∧ x.rewriting = true) ∧
    ((up.modGroup 63 1535 (fun _ => rewriteGroup)).group 63 1535).rewriting = true ∧
    (∀ z ∈ rewriteGroup.tiles, (stuckCells z.2 ([] : List StuckIn)).length ≤ 64) ∧ rewriteGroup.state ≠ .retired ∧
    (let l : List StuckIn := (List.range 65).map (fun i => { tile := 0, row := i, col := 0, held := true })
     (∀ c ∈ l, c.col < 272) ∧ ∃ z ∈ rewriteGroup.tiles, 64 < (stuckCells z.2 (l.filter (fun c => c.tile == z.1))).length) ∧
    rewriteGroup.logical = 0x7FF ∧ (handOver.vat 0).state = .retired ∧ loaded.turnover = false ∧
    handOver.toMove 0 15 = [0] ∧ (handOver.slot 14).current = none ∧
    (handOver.receivers 0).find? (fun u => decide (16 < (handOver.spares u).length)) = some 1 ∧
    handOver.pickSpare 1 = some 0 ∧ (handOver.vat 2).state = .off ∧ (handOver.slot 15).drained.contains 15 = true ∧
    (handOver.slot 15).switchTick + (handOver.setReg .drainLimit 15 0).reg .drainLimit 15 ≤ handOver.tick.now := by
  decide +kernel

/-! ### Witnesses: calibration -/

def idleVat : State := { up with vats := [(63, { state := .idle })] }
def good : ConvIn := [(2097152, 31457280), (2097152, 31457280)]
/-- One block of group 1535 on reference column 287, with all 16 samples at that fine value: level 0 is expected. -/
def block (fine : Nat) : BlockIn :=
  { group := 1535, plan := 0, cols := [(287, [{ pat := 0, fines := List.replicate 16 fine }])] }
/-- A vat that calibrates, at that stage of a tick. -/
def calAt (x : TickStage) : State :=
  { within with tick := { within.tick with stage := x }, vats := [(63, { state := .run, refReady := true })] }
def dueGroup : State := (calAt .execution).modGroup 63 1535 (fun g => { g with due := some 1 })
def fallGroup : State := (calAt .execution).modGroup 63 1535 (fun g => { g with inFall := true, state := .recal })
/-- Nine converters that all pass. -/
def goods : List ConvIn := List.replicate 9 good

theorem witness_Replanning :
    (let s := replanState 65
     (s.group 0 1535).replan = some { left := [0], low := some 65 } ∧
     choosePlan s.planOrder (fun x => ([(0, 65)].find? (fun y : Nat × Nat => y.1 == x)).map (fun y => y.2)) = some 0) ∧
    (let r : Replan := { left := [0, 2], low := some 65 }
     (∀ c, r.low = some c → c < 66) ∧ r.left.drop 1 ≠ []) ∧ (idleVat.group 63 1535).replan = none := by
  refine ⟨by decide +kernel, ⟨fun c h => by cases h; decide, by decide⟩, by decide⟩

theorem witness_MarginCalibration : up.reloading (seqCode .cal) = false ∧ dueGroup.falling 63 = none ∧
    dueGroup.tick.stage = .execution ∧ dueGroup.vatPlans 63 = true ∧ (dueGroup.vat 63).refReady = true ∧
    dueGroup.fallHead 63 = some 1535 ∧ fallGroup.falling 63 = some 1535 ∧ (fallGroup.group 63 1535).readyNext = none ∧
    (let r := (fallGroup.group 63 1535).bankConvs (fun i => goods.getD i [])
     let x := [block 0].foldl (BankRun.settle {} Group.blockCells) { g := r.1.applyAll }
     r.2 = [] ∧ choosePlan fallGroup.planOrder x.low = some 0 ∧ x.ones = false ∧ x.trims = []) ∧
    (((fallGroup.group 63 1535).bankConvs (fun i => ([] : List ConvIn).getD i [])).2 ≠ []) ∧
    (fallGroup.group 63 1535).logical = 0x7FF ∧ (fallGroup.group 63 1535).state ≠ .retired ∧
    (calAt .started).tick.stage = .started ∧ (calAt .started).vatPlans 63 = true ∧
    (let g := (calAt .started).group 63 1535
     let cal := ((calAt .started).activeImage 4).cal
     (block 0).plan = g.plan ∧ g.state = .inService ∧ g.replan = none ∧
     (∀ f : Fin 2, let b := block (32 * f.val)
       g.onesBad (patsOf cal b) b = false ∧ (g.takeTrims (patsOf cal b) (g.blockCells b) b).2 = [] ∧
       lowest (g.codes (patsOf cal b) (g.blockCells b) b) = some (if f = 0 then 100 else 0)) ∧ g.measured = false) ∧
    (let g : Group := { measured := true, marginMin := 66 }; g.measured = true ∧ g.partialWin = false ∧ 66 ≤ g.marginMin) := by
  decide +kernel

theorem witness_RollingCalibration : (calAt .execution).rolling 63 1535 = some 0 ∧ calibrate 4 good = some (0, 0) ∧
    calibrate 4 [] = none ∧ (0 : Fin 9).val ≠ 8 ∧ (calAt .execution).rolling 63 1535 ≠ some 8 ∧
    (calAt .started).tick.stage ≠ .execution := by decide +kernel

/-- Group `p` measured as `good` in every converter and in one block. -/
def initIn (p : Nat) : InitIn := { group := p, convs := (List.range 9).map (fun i => (i, good)), blocks := [block 0] }
def calVat : State := { up with vats := [(63, { state := .calibrating })] }

theorem initGroup_passes (p : Nat) : (calVat.initGroup 63 (initIn p)).pass = some (0, 100) := by
  have g : calVat.group 63 (initIn p).group = {} := rfl
  have e : calVat.seedEntry 63 (initIn p).group = none := rfl
  have b : (initIn p).blocks = (initIn 0).blocks := rfl
  have c : (initIn p).convs = (initIn 0).convs := rfl
  have r : (initIn p).stuck = [] := rfl
  unfold State.initGroup
  simp only [g, e, b, c, r]
  decide +kernel

theorem length_filterMap_some {α β : Type} (f : α → Option β) (l : List α) (h : ∀ x ∈ l, (f x).isSome = true) :
    (l.filterMap f).length = l.length := by
  induction l with
  | nil => rfl
  | cons x l ih =>
    obtain ⟨y, hy⟩ := Option.isSome_iff_exists.1 (h x (by simp))
    rw [List.filterMap_cons_some hy]
    simp [ih (fun z hz => h z (by simp [hz]))]

theorem initVat_passes : (calVat.initVat 63 ((List.range 1488).map initIn)).2 = true := by
  have live : ((List.range 1488).map initIn).filter (fun x => decide (x.group < 1536) &&
      (calVat.group 63 x.group).state != .retired) = (List.range 1488).map initIn := by
    refine List.filter_eq_self.2 (fun x hx => ?_)
    obtain ⟨p, hp, rfl⟩ := List.mem_map.1 hx
    have : p < 1488 := List.mem_range.1 hp
    have q : (initIn p).group < 1536 := by show p < 1536; omega
    have z : (calVat.group 63 (initIn p).group).state = .inService := rfl
    simp [q, z]
  unfold State.initVat
  simp only [live]
  rw [length_filterMap_some]
  · simp
  · intro x hx
    obtain ⟨y, hy, rfl⟩ := List.mem_map.1 hx
    obtain ⟨p, _, rfl⟩ := List.mem_map.1 hy
    simp only [initGroup_passes]; rfl

theorem witness_InitialCalibrationAndRecord : (calVat.vat 63).state = .calibrating ∧ (up.vat 63).state ≠ .calibrating ∧
    (calVat.initVat 63 ((List.range 1488).map initIn)).2 = true ∧ (∀ k : Fin 16, (calVat.slot k.val).current = none) ∧
    (calVat.initVat 63 []).2 = false ∧ calVat.counted (unitDie (dieOf 63)) = false ∧
    up.flashBusy = false ∧ { up with upd := { state := .receiving } }.flashBusy = true ∧
    up.tick.running = false ∧ within.tick.running = true ∧
    ({ recBusy := some (1, 0, []) } : Update).recBusy = some (1, 0, []) ∧ up.upd.recWait = none ∧ up.upd.recBusy = none :=
  ⟨by decide, by decide, initVat_passes, by decide, rfl, by decide, by decide, by decide, by decide, by decide, by decide,
    by decide, by decide⟩

/-! ### Witnesses: register windows, faults and field test -/

def debugging : State := { up with sec := { unlocked := true, scopeReg := true } }
def vatIn (x : VatState) : State := { up with vats := [(63, { state := x, refReady := true })] }

theorem witness_VatWindows : ((vatIn .draining).vat 63).state = .draining ∧ ((vatIn .off).vat 63).state ≠ .run ∧
    (let x : Vat := { refEn := true }; x.refEn = true ∧ x.refReady = false) ∧ (up.group 63 1535).refFault = false ∧
    up.coreOn = true ∧ (up.setReg .corrIndex 63 511).corrBad 63 = true ∧ up.corrBad 63 = false ∧ up.debugReg = false ∧
    debugging.debugReg = true ∧ debugging.corrBad 63 = false ∧ debugging.reg .corrKind 63 = 0 ∧
    (debugging.setReg .corrKind 63 1).reg .corrKind 63 ≠ 0 ∧ (debugging.setReg .corrKind 63 1).corrBad 63 = false ∧
    ({ scrAddr := 0x17FFFF8 } : Vat).scrAddr + 8 ≤ scrBytes ∧
    ¬(up.reg .histVat = bits (2 ^ 24) 29 24 ∧ up.reg .histGroup = bits (2 ^ 24) 18 8) ∧ bits (1535 * 256) 18 8 ≤ 1535 := by
  decide +kernel

theorem witness_InServiceChanges : ((vatIn .idle).vat 63).state = .idle ∧ (vatIn .idle).stressOn 63 = false ∧
    ((vatIn .idle).vat 63).refReady = true ∧ within.tick.running = true ∧ up.tick.running = false ∧
    ((idleVat.vat 63).refReady = false) ∧ up.refused18 = false ∧ ((vatIn .run).vat 63).state = .run ∧
    up.owner (pageKey 7 1048575) = 0 ∧ { up with owners := [(pageKey 7 1048575, 1)] }.owner (pageKey 7 1048575) ≠ 0 ∧
    { up with owners := [(pageKey 7 1048575, 1)] }.isOut (pageKey 7 1048575) = false ∧
    { up with sec := { locked := true } }.refused18 = true ∧ ((vatIn .retired).vat 63).state = .retired := by decide +kernel

theorem witness_CommonRegisters : (pageOf 0x4F4).isSome = true ∧ (pageOf 1).isSome = true ∧ mayWrite 1 0 = true ∧
    mayWrite 1 16 = false ∧ bit 0x10000 16 = true ∧ bit 0 16 = false ∧ bit 0 17 = false ∧ debugging.debugReg = true ∧
    up.debugReg = false := by decide

def openDeckle : State :=
  { ((((((up.setReg .cqSize 15 1).setReg .cqBase 15 64).setReg .cqPiAddr 15 64).setReg .cqCiAddr 15 64).setReg .sqSize 15 1).setReg
    .sqBase 15 64).setReg .sqPiAddr 15 64 with deckles := [(15, { opened := true })] }

theorem witness_RegistersAndDeckles : { up with host := {} }.reaches 0 = false ∧ (7 : Nat) ≠ 4 ∧ (7 : Nat) ≠ 8 ∧ 0x102 % 4 ≠ 0 ∧
    (0x104 % 8 ≠ 0) ∧ up.reaches 0 = true ∧ up.reaches 16 = true ∧ ((vatIn .run).vat 63).state = .run ∧
    ((vatIn .idle).vat 63).state ≠ .run ∧ 128 ≤ 128 % 256 ∧ 192 % 256 ≤ 192 ∧
    (up.setReg .sessCount 15 1).reg .sessCount 15 ≠ 0 ∧ up.openSessions 15 = [] ∧ (sess decoding gen3).openSessions 0 ≠ [] ∧
    tenantFn 15 16 = true ∧ tenantFn 15 15 = false ∧ (openDeckle.deckle 15).opened = true ∧ openDeckle.reg .cqSize 15 ≠ 0 ∧
    openDeckle.reg .cqBase 15 ≠ 0 ∧ openDeckle.reg .cqPiAddr 15 ≠ 0 ∧ openDeckle.reg .cqCiAddr 15 ≠ 0 ∧
    openDeckle.reg .sqSize 15 ≠ 0 ∧ openDeckle.reg .sqBase 15 ≠ 0 ∧ openDeckle.reg .sqPiAddr 15 ≠ 0 ∧
    (openDeckle.setReg .cqEn 15 1).reg .cqEn 15 ≠ 0 ∧ openDeckle.reg .deckIfl 15 = openDeckle.activeIfLevel ∧
    (up.deckle 15).opened = false := by decide +kernel

theorem witness_SequencerFaults : up.coreOn = true ∧ up.reloading (seqCode .test) = false ∧
    up.counted (unitHub (seqPage .test).1) = false ∧ (∀ v, seqVat .test = some v → up.counted (unitVat v) = false) ∧
    (∀ p : Fin 6, SeqBlock.test = .felt p → up.counted (unitPort p.val) = false) ∧
    ({ phase := .heat } : TestEngine).phase = .heat ∧ SeqBlock.hub ≠ .test ∧ seqVat .hub = none ∧
    { within with reloads := [(seqCode .hub, 12)] }.reloading (seqCode .hub) = true ∧ within.tick.running = true ∧
    { up with reloads := [(seqCode .hub, 12)] }.reloading (seqCode .hub) = true ∧ up.tick.running = false ∧
    { up with reloads := [(seqCode (.vat 63), 12)] }.reloading (seqCode (.vat 63)) = true ∧ seqVat (.vat 63) = some 63 ∧
    up.counted (unitDie (dieOf 63)) = false ∧ (up.vat 63).state ≠ .retired := by
  refine ⟨by decide, by decide, by decide, (fun v h => by cases h), (fun p h => by cases h), rfl, by decide, rfl, by decide, rfl,
    by decide, rfl, by decide, rfl, by decide, by decide⟩

def stress (op : Nat) : State :=
  { (((up.setReg .testOp 0 op).setReg .testVat 0 63).setReg .testMask 0 1) with
    vats := [(63, { state := .service })], upd := { active := [(7, { classes := 1 })] } }

theorem witness_StressWindow : (stress 1).reg .testOp = 1 ∧ (stress 1).startCause = 0 ∧ (up.setReg .testOp 0 1).startCause ≠ 0 ∧
    (stress 2).reg .testOp = 2 ∧ (stress 2).reg .testOp ≠ 1 ∧ { stress 2 with test := { phase := .run } }.test.phase = .run ∧
    { stress 2 with test := { phase := .settle } }.test.phase = .settle ∧
    { stress 2 with test := { phase := .heat } }.test.phase = .heat ∧ (let s := { stress 2 with test := { phase := .cool }, upd := { seed := some [] } }
      s.test.phase = .cool ∧ s.test.aborted = false ∧ s.upd.seed.isSome = true) ∧ (stress 2).test.phase = .idle := by decide +kernel

/-! ### Witnesses: felt ports and the torus -/

def port (x : Port) : State := { up with ports := [(5, x)], torus := { member := 2, present := [0, 1] } }
def neigh : NeighIn :=
  { chainOk := true, sigOk := true, debugLocked := true, digests := [], torusId := 0, dims := (1, 1, 2), period := 12500
    proto := 0, nodeId := 1024, pubKey := [], transcript := [], lower := true }
def twoDeep (x : Port) : State := (port x).setReg .szM1 0 1

theorem witness_FeltPorts : (port {}).port 5 = {} ∧ ({} : Port).enable = false ∧
    ({ enable := true } : Port).enable = true ∧ ({ enable := true } : Port).state = .down ∧
    ((List.range 32).filter (fun l => !bit 0x3FFFFFFF l)).length ≤ 2 ∧ 2 < ((List.range 32).filter (fun l => !bit 0x1FFFFFFF l)).length ∧
    (let x : Port := { state := .up, mapped := [0], drained := [1] }
     x.mapped.contains 31 = false ∧ 2 < (Port.out { x with mapped := x.mapped ++ [31] }).length) ∧
    (let x : Port := { state := .session, mapped := [0] }
     x.mapped.contains 0 = true ∧ (Port.out { x with mapped := x.mapped ++ [31] }).length ≤ 2) ∧
    (maskBits 32 (2 ^ 31)).filter (fun l => !(({} : Port).drained.contains l)) ≠ [] ∧ up.refused18 = false ∧
    { up with sec := { locked := true } }.refused18 = true ∧
    2 < (Port.out { ({} : Port) with drained := [] ++ maskBits 32 7 }).length ∧
    (Port.out { ({} : Port) with drained := [] ++ maskBits 32 (2 ^ 31) }).length ≤ 2 ∧
    ({ testing := [31] } : Port).testing.contains 31 = true ∧ ({} : Port).testing.contains 31 = false := by decide +kernel

theorem witness_LinkSessions : ((twoDeep { state := .session }).port 5).state = .session ∧
    ({ state := .session } : Port).refused = false ∧ ({ state := .session, refused := true } : Port).refused = true ∧
    (twoDeep { state := .session }).neighBad 5 neigh = none ∧ neigh.entropy = true ∧
    (twoDeep { state := .session }).torus.downLinks.contains ((twoDeep { state := .session }).portLink 5) = false ∧
    (let s := { twoDeep { state := .session } with torus := { member := 2, downLinks := [(2, 1024)] } }
     s.torus.downLinks.contains (s.portLink 5) = true ∧ s.torus.member = 2 ∧ s.neighBad 5 neigh = none) ∧
    ((twoDeep { state := .session }).neighBad 5 { neigh with nodeId := 0 }).isSome = true ∧
    { neigh with entropy := false }.entropy = false ∧ { neigh with chainOk := false }.chainOk = false ∧
    neigh.chainOk = true ∧ neigh.sigOk = true ∧ neigh.debugLocked = true ∧
    ((twoDeep { state := .up }).port 5).state = .up ∧ ((twoDeep { state := .failed }).port 5).state ≠ .session := by decide +kernel

def frame (dest seq : Nat) (payload : Bytes) : FrameIn :=
  { kind := 1, vc := 4, first := true, last := true, deckle := 0, dest := dest, src := 1, seq := seq, payload := payload }
def header : Bytes := leBytes 8 1 ++ leBytes 8 0x40000000000 ++ leBytes 8 0 ++ leBytes 8 0
def upPort : State := twoDeep { state := .up, authTick := 14, rxSeq := 2 ^ 32 }

theorem witness_LinkFrames : (upPort.port 5).state = .up ∧ upPort.reloading (64 + 5) = false ∧
    fecBad { frame 0 0 header with errs := [(0, 0), (16, 0), (32, 0)] } = true ∧ (frame 0 0 header).errs = [] ∧
    { frame 0 0 header with errs := [(0, 31)] }.errs = [(0, 31)] ∧
    satAdd 32 (get 0 (upPort.port 5).symNow 31) 1 ≤ upPort.reg .laneErrLim 5 ∧
    { frame 0 0 header with tagBad := true }.tagBad = true ∧ (upPort.port 5).authTick < 15 ∧
    15 ≤ ({ authTick := 15 } : Port).authTick ∧ (frame 0 1 []).seq % 2 ^ 32 ≠ (upPort.port 5).rxSeq % 2 ^ 32 ∧
    (frame 0 0 header).seq % 2 ^ 32 = (upPort.port 5).rxSeq % 2 ^ 32 ∧ (frame 0 0 header).dest = upPort.reg .nodeId ∧
    field (frame 0 0 header).payload 0 1 = 1 ∧ field (frame 0 0 header).payload 16 8 = upPort.tick.now ∧
    upPort.torus.member = 2 ∧
    upPort.webCheck 0 (field header 8 8) (header.drop 32).length true = .ok ∧
    upPort.sched.ops.any (fun o => o.deckle == 0 && o.takes == some 0) = false ∧
    (let s := { upPort with sched := { ops := [{ cross := true, tmpl := some { exch := .recvFrom 1 0 } }] } }
     s.sched.ops.any (fun o => o.deckle == 0 && o.takes == some 0) = true ∧ s.webCheck 0 0 8 true ≠ .ok) ∧
    (let f := { frame 0 0 (leBytes 1 1) with kind := 2, vc := 0 }
     let s := { upPort with torus := { member := 2, present := [(upPort.port 5).neighId] } }
     field f.payload 0 1 = 1 ∧ s.torus.present.contains (s.port 5).neighId = true ∧ s.torus.member = 2) ∧
    (let s := { upPort with torus := { member := 2, present := [0, 1024] } }
     s.routePort 1024 = some 4 ∧ 4 ≠ 5) ∧
    { upPort with torus := { member := 2, present := [0, 1024], downLinks := [(2, 0), (2, 1024)] } }.routePort 1024 = none ∧
    ({ upPort with torus := {} } : State).torus.member ≠ 2 ∧ ((port {}).port 5).state ≠ .session := by decide +kernel

/-- A tenant page that a transfer may be written to. -/
def owned : State := { upPort with owners := [(0, ownDeckle 0)] }
theorem witness_LinkData : owned.webCheck 0 0 8 true = .ok := by decide +kernel

def time (epoch : Nat) : TimeIn := { tick := 0, epoch := epoch, digest := 0, err := 0, tThere := 4, tHere := 2 }
theorem witness_TorusAlignment :
    (let s := { upPort with tick := { upPort.tick with now := 1 }, torus := { member := 2, epoch := 2, present := [0], parent := some 5 } }
     (s.port 5).state = .up ∧ s.torus.present.contains (s.port 5).neighId = true ∧ (time 1).epoch < s.torus.epoch ∧
     s.torus.parent = some 5 ∧ s.torus.member = 2 ∧ (s.port 5).time.tick + 2 ≤ s.tick.now + 1) ∧
    upPort.torus.epoch < (time 1).epoch ∧
    (let x : Port := { state := .up, time := { tick := 1, differ := 1 } }
     1 ≤ x.time.differ ∧ x.time.tick ≠ 0) ∧ (up.port 5).state ≠ .up ∧
    (let s := { up with torus := { member := 2, alignBad := 16 } }; s.torus.member = 2 ∧ 16 ≤ s.torus.alignBad) ∧
    up.torus.alignBad < 16 ∧
    (let s := { upPort with torus := { member := 3, alignGood := 64, waiting := true } }
     s.torus.member = 3 ∧ s.reg .joinAuto = 1 ∧ 64 ≤ s.torus.alignGood ∧ s.torus.waiting = true) ∧
    up.torus.waiting = false := by decide +kernel

theorem witness_Membership : (upPort.port 5).state = .up ∧ upPort.torus.member ≠ 0 ∧
    upPort.torus.sent.any (fun x => x.by_ == 1 && x.number == 0) = false ∧
    ({ sent := [⟨1, 0, 5, []⟩] } : Torus).sent.any (fun x => x.by_ == 1 && x.number == 0) = true ∧
    upPort.torus.member = 2 ∧ up.torus.member ≠ 2 ∧ (∀ x ∈ up.torus.proposals, x.at_ ≠ 7) ∧
    (∃ x ∈ ({ proposals := [⟨1, 0, 7, []⟩] } : Torus).proposals, x.at_ = 7) := by decide

/-! ### Witnesses: owner commands, debug and update -/

/-- CLEAR_KEY of slot 1 in the name of slot 0. The key is chosen so that r = s = the digest signs it. -/
def ownerKey : Bytes :=
  beBytes 48 0xfeeee51cfc29db38a799c19202ff48c7af104f86a86e60ee40cf29adfd1f8013a4b0218020986b799e3739ebd48cb9d4 ++
  beBytes 48 0xdc26c85719c1b00cbe9b95e94ee8f3ec291d3c4ef30a801faf97c76e5d2de27b8abf91ae78a079d83c8ac0dc28f49f95
def ownerCmd (op slot signer : Nat) : Bytes :=
  leBytes 1 op ++ leBytes 1 slot ++ leBytes 1 signer ++ List.replicate 5 0#8 ++ List.replicate 48 1#8 ++ List.replicate 96 0#8
def signedCmd : Bytes := ownerCmd 2 1 0 ++ sha384 (ownerCmd 2 1 0) ++ sha384 (ownerCmd 2 1 0)
def owner : State := { up with sec := { owners := [(0, ownerKey)], nonce := some (List.replicate 48 1#8) } }

theorem witness_OwnerCommands : ocOp signedCmd = 2 ∧ ownerFormat signedCmd = true ∧ owner.ownerFree signedCmd = false ∧
    owner.ownerSigned signedCmd = true ∧ up.ownerSigned signedCmd = false ∧
    up.upd.writing = false ∧ ({ up with upd := { state := .receiving } } : State).upd.writing = true ∧
    (let b := ownerCmd 1 3 255 ++ List.replicate 96 0#8
     ocOp b = 1 ∧ ownerFormat b = true ∧ up.ownerFree b = true) ∧
    (let b := ownerCmd 5 0 255 ++ List.replicate 96 0#8
     ownerFormat b = true ∧ owner.ownerFree b = true ∧ 1 ≤ ocOp b ∧ ocOp b ≤ 6 ∧ ocOp b ≠ 6) ∧
    ownerFormat [] = false ∧ ocOp [] = 0 ∧ 6 < ocOp [7#8] := by decide +kernel

def token : Bytes :=
  leBytes 4 0x544B4244 ++ leBytes 2 1 ++ leBytes 2 1 ++ State.reset.deviceId ++ List.replicate 48 1#8 ++ keyG ++
  beBytes 48 rTwo ++ beBytes 48 0x2f960d660a56917caeaf41db32308e2802109e5cb31462a8c5d44586e434e68f9065627f56c927e6c48bc42f18b9d21d
def tokenState : State := { up with sec := { vkeys := [sha384 keyG], nonce := some (List.replicate 48 1#8) } }

set_option maxRecDepth 10000 in
theorem witness_DebugUnlock : tokenState.tokenOk token = true ∧ tokenState.tick.running = false ∧
    ({ tokenState with tick := { running := true } } : State).tick.running = true ∧ up.tokenOk token = false := by decide +kernel

theorem witness_Attestation : (1 : Nat) ≠ 0 ∧ (get ({} : SpdmSession) up.sec.spdm 0).keys = [] ∧
    (let s := { up with sec := { spdm := [(0, { keys := [1#8] })] }, host := { up.host with ideSel := (true, true) } }
     (get ({} : SpdmSession) s.sec.spdm 0).keys ≠ [] ∧ s.host.ideSel.1 = true ∧ s.host.ideLink.1 = false ∧ s.host.ideLink.2 = false ∧
     s.host.ideSel.2 = true ∧ s.reg .ideReq ≠ 1 ∧ (s.setReg .ideReq 0 1).reg .ideReq = 1) ∧ within.tick.inTick = true ∧
    within.tick.running = true ∧ between.tick.inTick = false := by decide

def updCmd (op kind : Nat) : State := ((up.setReg .imgOp 0 op).setReg .imgKind 0 kind).setReg .imgMask 0 64
def staged : ChipSlot := { staged := true, image := { kind := 7 } }
def withStaged (s : State) : State := { s with upd := { s.upd with inactive := [(7, some staged)] } }

theorem witness_UpdateCommands : (updCmd 1 7).reg .imgOp = 1 ∧ (updCmd 1 7).updCause = 0 ∧ (updCmd 1 7).reg .imgKind = 7 ∧
    (updCmd 1 0).reg .imgKind = 0 ∧ ¬((updCmd 1 7).upd.session = true ∨ (updCmd 1 7).upd.state ≠ .idle) ∧
    (let s := { updCmd 1 7 with upd := { session := true } }; s.upd.session = true ∧ s.reg .imgOp = 1) ∧
    ({ updCmd 1 7 with sec := { locked := true } } : State).updCause ≠ 0 ∧ (updCmd 2 0).reg .imgOp = 2 ∧
    (updCmd 2 0).named ((maskBits 7 64).map (· + 1)) = none ∧ (updCmd 2 0).reg .imgMask = 64 ∧
    (withStaged (updCmd 2 0)).named ((maskBits 7 64).map (· + 1)) = some [staged.image] ∧
    [staged.image].any (withStaged (updCmd 2 0)).needsStop = false ∧
    fixOrder (fun n => ((withStaged up).inactiveSlot n).map (fun c => c.image)) 8 [7] up.upd.active [] = some [7] ∧
    (updCmd 3 0).reg .imgOp = 3 ∧ ({ state := .paused } : Update).writing = true ∧
    ({ state := .activating } : Update).state = .activating := by decide +kernel

def receiving (bytes len : Nat) : Update := { state := .receiving, session := true, kind := 7, bytes := bytes, len := len }
def verifying : State := { bootState with upd := { state := .verifying, session := true, kind := 7, len := 512 } }

theorem ok_of {α β : Type} [DecidableEq β] (e : Except α β) (x : β)
    (h : (match e with | .ok r => decide (r = x) | .error _ => false) = true) : e = .ok x := by
  cases e with
  | ok r => exact congrArg _ (of_decide_eq_true h)
  | error _ => cases h

theorem verified : verifying.verifyImage 7 { image 7 with bytes := (image 7).bytes.take verifying.upd.len } =
    .ok (imageRec 7 0 (image 7)) := ok_of _ _ (by decide +kernel)

theorem witness_UpdateBytes : (receiving 0 9).state = .receiving ∧ (receiving 0 9).pldm = false ∧
    ((receiving 0 9).buffer.drop 0).length + 8 ≤ updBuffer ∧ (receiving 0 9).bytes + 8 < (receiving 0 9).len ∧
    (receiving 0 8).len ≤ (receiving 0 8).bytes + 8 ∧ verifying.upd.state = .verifying ∧ up.upd.dirBusy = none ∧
    ({ dirBusy := some {} } : Update).dirBusy = some {} ∧ allZero verifying.upd.expect = true ∧
    (verifying.verifyImage 7 { image 7 with bytes := (image 7).bytes.take verifying.upd.len } =
      .ok (imageRec 7 0 (image 7))) ∧
    (verifying.verifyImage 7 { ({} : ImageIn) with bytes := ([] : Bytes).take 512 } = .error .imgFormat) ∧
    allZero (List.replicate 48 1#8) = false ∧ (imageRec 7 0 (image 7)).digest ≠ List.replicate 48 1#8 := by
  refine ⟨rfl, rfl, by decide, by decide, by decide, rfl, rfl, rfl, by decide +kernel, verified, rfl,
    by decide, by decide +kernel⟩

theorem witness_UpdateOverrun (n : Nat) : n < (List.replicate n 0#8).length + 8 := by
  rw [List.length_replicate]; omega

theorem witness_PldmUpdate : ¬(up.upd.session = true ∨ up.upd.state ≠ .idle) ∧
    (let u : Update := { session := true, pldm := true, pldmState := 1 }; u.pldm = true ∧ u.pldmState = 1 ∧ u.session = true) ∧
    (let s := { withStaged up with upd := { (withStaged up).upd with session := true, pldm := true, pldmState := 2 } }
     s.upd.pldm = true ∧ s.upd.pldmState = 2 ∧ s.updCause = 0 ∧
     ((List.range 7).map (· + 1)).filter (fun n => (s.inactiveSlot n).any (fun c => c.staged)) = [7] ∧
     s.named [7] = some [staged.image] ∧ [staged.image].any s.needsStop = false ∧ s.upd.writing = false) ∧
    ({ up with sec := { locked := true } } : State).updCause ≠ 0 ∧
    (let u : Update := { pldm := true, state := .receiving, len := 4097 }
     u.bytes + min 4096 4096 < u.len ∧ u.writing = true) ∧
    (let u : Update := { pldm := true, state := .receiving, len := 4096 }; u.len ≤ u.bytes + min 4096 4096) ∧
    up.upd.pldm = false := by decide +kernel
/-- The tile of the worked example of chapter 3: four valid rows, check group 0 from its table. -/
def exCodes : List Nat := [11, 1, 10, 8] ++ List.replicate 252 8
def exRow (w : List Nat) (check : Nat) : BitVec 272 :=
  BitVec.ofNat 272 (w.zipIdx.foldl (fun a x => a + x.1 * 16 ^ x.2) 0 + check * 2 ^ 256)
def exTile : Tile :=
  { slot := 0, validRows := 4
    rows := [exRow [13, 9, 8, 10, 4, 8, 0, 15] 0, exRow [5, 7, 8, 10, 12, 8, 8, 15] 0, exRow [15, 8, 8, 10, 8, 8, 8, 15] 1,
      exRow [0, 8, 8, 10, 8, 15, 8, 15] 2] ++ List.replicate 252 (exRow (List.replicate 64 8) 0)
    sw := [1, 0, 0, 8, 0, 7, -8, 28] ++ List.replicate 56 (-32), sc := [3] }
def exGold (r n : Nat) : Int := if n < 8 ∧ r < 4 then (exTile.rows.getD r 0).toNat / 16 ^ n % 16 - 8 else 0

/-- Chapter 3, the worked example: the group's results without a miscount. -/
theorem test_counts_assemble :
    let c := fun c i => (colCodes false noCor exTile exCodes [] c i).sum
    [0, 4, 7].map (assembleD exTile exCodes c) = [50, -40, -14] ∧
    assembleE exTile exCodes c 0 = 2 ∧ inputSum exCodes = -2 := by decide +kernel

/-- Chapter 3, the worked example: column 3 reads 253 under plane 3, group 0 fails and is recomputed. -/
theorem test_miscount_repaired :
    let f : CodeFault := { tile := 0, vec := 0, col := 3, plane := 3, half := 0, fine := 64 * 253 }
    assembleD exTile exCodes (fun c i => (colCodes false noCor exTile exCodes [f] c i).sum) 0 = -14 ∧
    0 ∈ (assemble false noCor exTile exCodes [f] exGold).fixed ∧
    [0, 1, 7].map (goldenD exCodes exGold) = [50, 10, -14] :=
  ⟨by decide +kernel, fixed_of _ _ _ _ _ _ _ (by decide) (by decide +kernel), by decide +kernel⟩

/-- Chapter 2, the worked example of a precise layer: 1.0, −2.45, 0.6 and 0.13 in fp32. -/
theorem test_quantiser : ((quantBlock [0x3F800000#32, 0xC01CCCCD#32, 0x3F19999A#32, 0x3E051EB8#32] 0).map (fun q =>
    (q.burst.take 2, bScale q.burst, q.residual.take 2, bScale q.residual))) =
    some ([0x1B#8, 0x8A#8], 0x3EB4#16, [0x86#8, 0xE3#8], 0x3CB4#16) := by decide +kernel

/-- Chapter 6, the worked example of one burst's outliers: two chunks, their terms scaled by 2^−6. -/
theorem test_chunks : bandTerms (f32Scale f32One (-6)) none
    [(196, -3, 4), (-192, -14, -3), (128, -20, 7)] = [f32Scale (f32OfInt 1606208) (-20), f32Scale (f32OfInt 896) (-26)] := by
  decide +kernel

/-- Chapter 4, the worked example of the trims: 12,838 stands 200.513 thresholds up once corrected. -/
theorem test_trims : fineValue 12838 13 5 (-98) = 838915160 ∧ (fineValue 12838 13 5 (-98) + 2097152) / lsb = 200 := by decide

/-- Chapter 5, the worked example of a converter's calibration, as sums of 2,048 samples. -/
theorem test_calibration : calAgree (2126930, 31531090) (2127688, 31531622) ∧
    calTargets (2126930, 31531090) (2127688, 31531622) = some (13, -98) := by decide

/-- Chapter 8, the worked example of sizing: 24 layers, 2 KV heads, MAX_LEN 8,192, int8. -/
theorem test_region : blocksMax 8192 false = 128 ∧ blockOff 24 2 128 = 65536 ∧ regionPages 24 2 8192 false = 1537 := by decide

/-- Chapter 14, the worked example of throttling, with P_FIXED 450 W and E_CONV 689 fJ: the rates of steps 1 to 3 at
PWR_LIMIT 16, and the cap of a default tick at step 1. -/
theorem test_capRate :
    let s := fun k => { State.reset with
      regs := [(fldKey .pwrLimit 0, 16)], therm := { step := k }
      upd := { State.reset.upd with active := [(5, { therm := { pFixed := 1800, eConv := 689 } })] } }
    ((s 1).capRate, (s 2).capRate, (s 3).capRate, (s 1).capTotal) = (28846153, 27213352, 25580551, 350480758950) := by decide

/-- The check value of CRC-32C for the nine digits. -/
theorem test_crc32c : crc32c [0x31#8, 0x32#8, 0x33#8, 0x34#8, 0x35#8, 0x36#8, 0x37#8, 0x38#8, 0x39#8] = 0xE3069283 := by
  decide +kernel

/-- Chapter 15, the worked example: SCHED 10 goes first, VATSEQ 13 second, CAL 6 last. -/
theorem test_activationOrder :
    let req := fun (l : List (Nat × Nat × Nat)) => (List.range 7).map (fun k => (l.lookup (k + 1)).getD (0, 65535))
    let old : SMap ImgRec := [(2, { kind := 2, level := 9, req := req [] }), (3, { kind := 3, level := 12, req := req [(2, 9, 10), (4, 5, 6)] }),
      (4, { kind := 4, level := 5, req := req [(3, 12, 13)] })]
    let new : SMap ImgRec := [(2, { kind := 2, level := 10, req := req [(4, 5, 6), (3, 12, 13)] }),
      (3, { kind := 3, level := 13, req := req [(2, 10, 10), (4, 5, 6)] }), (4, { kind := 4, level := 6, req := req [(3, 13, 13)] })]
    fixOrder (fun k => new.lookup k) 8 [2, 3, 4] old [] = some [2, 3, 4] := by decide +kernel


end Sys2Proof.Tests
end

/-! ## The fields of an error code (R22) -/

namespace Sys2Proof.Machine

/-! ### Packing a class, a page kind and a block code -/

/-- The class takes four bits, the page kind and the block code six each (R22). -/
structure ErrInfo.Fits (i : ErrInfo) : Prop where
  cls_lt  : i.cls < 2 ^ 4
  kind_lt : i.kind < 2 ^ 6
  code_lt : i.code < 2 ^ 6

section
variable {cls kind code : Nat}

theorem codeOf_lt (hcls : cls < 2 ^ 4) (hkind : kind < 2 ^ 6) (hcode : code < 2 ^ 6) :
    codeOf cls kind code < 2 ^ 16 := by
  unfold codeOf; omega

@[simp] theorem bits_codeOf_cls (hcls : cls < 2 ^ 4) (hkind : kind < 2 ^ 6) (hcode : code < 2 ^ 6) :
    bits (codeOf cls kind code) 15 12 = cls := by
  unfold bits codeOf; omega

@[simp] theorem bits_codeOf_kind (hkind : kind < 2 ^ 6) (hcode : code < 2 ^ 6) :
    bits (codeOf cls kind code) 11 6 = kind := by
  unfold bits codeOf; omega

@[simp] theorem bits_codeOf_code (hcode : code < 2 ^ 6) : bits (codeOf cls kind code) 5 0 = code := by
  unfold bits codeOf; omega

end

/-! ### The code tables keep to the fields -/

/-- A sequencer fault reports the page kind it is given, so only its kind needs a bound; the other rows of the tables are
constants. -/
theorem errInfo_fits (e : Err) (hkind : ∀ k, e = .seqFault k → k < 64) : (errInfo e).Fits := by
  cases e with
  | seqFault k => exact ⟨by simp [errInfo], hkind k rfl, by simp [errInfo]⟩
  | _ => exact ⟨by decide, by decide, by decide⟩

/-- Settles O6: packing keeps three values that fit their fields apart, and each row of the code tables fits. -/
theorem errorCodeFields : Obligations.ErrorCodeFields := by
  intro e hseq
  obtain ⟨hcls, hkind, hcode⟩ := errInfo_fits e hseq
  exact ⟨codeOf_lt hcls hkind hcode, bits_codeOf_cls hcls hkind hcode, bits_codeOf_kind hkind hcode, bits_codeOf_code hcode⟩

end Sys2Proof.Machine

/-! ## The windows and buffers of a vat, and the histogram window (R126, R132 to R135, R567, R590) -/

namespace Sys2Proof.Machine

/-! ### Numbers in device memory -/

/-- Writing the low bytes of a number keeps its residue. -/
theorem leNat_leBytes (n v : Nat) : leNat (leBytes n v) = v % 256 ^ n := by
  induction n generalizing v with
  | zero => simp [leBytes, leNat, Nat.mod_one]
  | succ n ih => simp [leBytes, leNat, ih, Nat.pow_succ', Nat.mod_mul (a := 256) (b := 256 ^ n)]

@[simp] theorem leBytes_length (n v : Nat) : (leBytes n v).length = n := by
  induction n generalizing v with
  | zero => rfl
  | succ n ih => simp [leBytes, ih]

/-- A read of the range just written returns the bytes written. -/
theorem State.readMem_writeMem_same (s : State) (a : Nat) (bs : Bytes) : (s.writeMem a bs).readMem a bs.length = bs := by
  refine List.ext_getElem (by simp [State.readMem]) (fun i _ hi => ?_)
  simp [State.readMem, State.byte_writeMem, hi]

theorem State.readNum_writeNum_same (s : State) (a n v : Nat) : (s.writeNum a n v).readNum a n = v % 256 ^ n := by
  have h := s.readMem_writeMem_same a (leBytes n v)
  rw [leBytes_length] at h
  rw [State.readNum, State.writeNum, h, leNat_leBytes]

theorem State.writeNum_sameBytesOutside (s : State) (a n v : Nat) : s.SameBytesOutside (s.writeNum a n v) [(a, n)] := by
  intro i hi
  have hout : i < a ∨ a + n ≤ i := hi (a, n) (by simp)
  rw [State.writeNum, State.byte_writeMem, leBytes_length, if_neg (by omega)]

/-! ### Reads of a part that an update leaves alone -/

@[simp] theorem State.group_modVat (s : State) (v w q : Nat) (f : Vat → Vat) : (s.modVat v f).group w q = s.group w q := rfl
@[simp] theorem State.vat_modGroup (s : State) (v p w : Nat) (f : Group → Group) : (s.modGroup v p f).vat w = s.vat w := rfl

theorem State.reg_setReg_ne (s : State) {g h : Fld} {c e : Nat} (v : Nat) (hne : fldKey g c ≠ fldKey h e) :
    (s.setReg g c v).reg h e = s.reg h e := by
  rw [State.reg_setReg, if_neg hne]

theorem ErrHost.vat_eq {s t : State} (h : ErrHost s t) (v : Nat) : t.vat v = s.vat v := by
  obtain ⟨e, ho, rfl⟩ := h; rfl

theorem ErrHost.group_eq {s t : State} (h : ErrHost s t) (v p : Nat) : t.group v p = s.group v p := by
  obtain ⟨e, ho, rfl⟩ := h; rfl

/-! ### The vats when core power goes -/

@[simp] theorem State.vat_corePowerOff (s : State) (v : Nat) : s.corePowerOff.vat v = {} := rfl

@[simp] theorem State.vat_shutdown (s : State) (c i v : Nat) : (s.shutdown c i).vat v = {} := rfl

@[simp] theorem State.vat_enterBoot (s : State) (v : Nat) : s.enterBoot.vat v = s.vat v := by
  unfold State.enterBoot; dsimp only; split <;> rfl

@[simp] theorem State.vat_sampleRef (s : State) (refSel clock : Bool) (v : Nat) :
    (s.sampleRef refSel clock).vat v = s.vat v := by
  unfold State.sampleRef when; dsimp only; split
  · exact (State.report_errHost _ { err := .refFallback } rfl rfl rfl).vat_eq v
  · rfl

/-- The module reset puts every vat at its reset value (R527). -/
@[simp] theorem State.vat_moduleReset (s : State) (refSel clock : Bool) (v : Nat) :
    (s.moduleReset refSel clock).vat v = {} := by
  unfold State.moduleReset; dsimp only; split
  · rw [State.vat_enterBoot, State.vat_sampleRef]; rfl
  · exact State.vat_sampleRef ..

/-- So does a report of class MODULE_FATAL, which removes core power (R492). -/
theorem State.vat_report_fatal (s : State) (r : Report) (hc : r.cls = none) (h4 : (errInfo r.err).cls = 4) (v : Nat) :
    (s.report r).vat v = {} := by
  obtain ⟨t, -, ht⟩ := s.report_fatal r hc h4
  rw [ht, State.vat_shutdown]

/-! ### Ends of core power, event by event -/

/-- The step answers a state in which vat `v` is at its reset value. -/
def ResetsVat (o : Out) (v : Nat) : Prop := NextIs o (fun t => t.vat v = {})

/-- The reference buffers of a vat at its reset value are disabled and not ready. -/
theorem ResetsVat.buffersOff {o : Out} {v : Nat} (h : ResetsVat o v) :
    NextIs o (fun t => (t.vat v).refEn = false ∧ (t.vat v).refReady = false) := by
  obtain ⟨t, ho, ht⟩ := h
  exact ⟨t, ho, by simp [ht]⟩

section
variable (s : State) (v : Nat) (refSel clock : Bool)

theorem modResetN_resetsVat : ResetsVat (exec (.modResetN true refSel clock) s) v :=
  ⟨_, rfl, s.vat_moduleReset refSel clock v⟩

variable (hon : s.coreOn = true)
include hon

theorem thermTrip_resetsVat (model : Bool) (i : Fin 512) : ResetsVat (exec (.thermTrip model i) s) v := by
  refine ⟨_, rfl, ?_⟩
  rw [State.trip, if_pos hon]
  exact s.vat_report_fatal _ rfl rfl v

theorem pstageFault_resetsVat : ResetsVat (exec .pstageFault s) v := by
  refine ⟨_, rfl, ?_⟩
  rw [if_pos hon]
  exact s.vat_report_fatal _ rfl rfl v

theorem refLost_resetsVat : ResetsVat (exec .refLost s) v := by
  refine ⟨_, rfl, ?_⟩
  rw [if_pos hon]
  exact s.vat_report_fatal _ rfl rfl v

/-- Under AUTO_RESET the module resets, else the report shuts it down (R507). -/
theorem hubHang_resetsVat : ResetsVat (exec (.hubHang refSel clock) s) v := by
  refine ⟨_, rfl, ?_⟩
  rw [if_pos hon]
  split
  · exact State.vat_moduleReset ..
  · exact s.vat_report_fatal _ rfl rfl v

end

/-! ### Reference buffers (R132 to R134) -/

section
variable (s : State) (v : Fin 64)

/-- REFBUF_EN is locked in RUN, CALIBRATING and DRAINING. -/
theorem refbufEn_locked (on : Bool) (h : (s.vat v.val).state = .run ∨ (s.vat v.val).state = .calibrating ∨
    (s.vat v.val).state = .draining) : exec (.refbufEn v on) s = .next (s.setWwr (pageIndex 0x16 v.val)) := by
  simp only [exec, execRefbufEn, State.writeRefEn, if_pos h]

section
variable (hrun : (s.vat v.val).state ≠ .run) (hcal : (s.vat v.val).state ≠ .calibrating)
  (hdrain : (s.vat v.val).state ≠ .draining)
include hrun hcal hdrain

theorem refbufEn_enables : exec (.refbufEn v true) s = .next (s.modVat v.val (fun y => { y with refEn := true })) := by
  simp [exec, execRefbufEn, State.writeRefEn, hrun, hcal, hdrain]

theorem refbufEn_disables :
    exec (.refbufEn v false) s = .next (s.modVat v.val (fun y => { y with refEn := false, refReady := false })) := by
  simp [exec, execRefbufEn, State.writeRefEn, hrun, hcal, hdrain]

end

/-- The end of the settling count makes no bank faulty when all have settled. -/
theorem refbufReady_settled (hen : (s.vat v.val).refEn = true) (hready : (s.vat v.val).refReady = false) :
    exec (.refbufReady v []) s = .next (s.modVat v.val (fun y => { y with refReady := true })) := by
  simp [exec, execRefbufReady, hen, hready]

/-- A bank that has not settled, and was not marked before, is marked, counted and reported. -/
theorem refbufReady_unsettled (p : Nat) (hen : (s.vat v.val).refEn = true) (hready : (s.vat v.val).refReady = false)
    (hp : p < 1536) (hfault : (s.group v.val p).refFault = false) : NextIs (exec (.refbufReady v [p]) s) (fun t =>
      ErrHost (((s.modVat v.val (fun y => { y with refReady := true })).modGroup v.val p
        (fun g => { g with refFault := true })).modVat v.val (fun y => { y with refFaults := satAdd 16 y.refFaults 1 })) t) := by
  simp only [exec, execRefbufReady, hen, hready, Bool.not_false, and_self, if_true, State.group_modVat, hfault, hp,
    decide_true, Bool.and_self, List.filter_cons_of_pos, List.filter_nil, List.foldl_cons, List.foldl_nil]
  exact ⟨_, rfl, State.route_errHost ..⟩

/-- The event means nothing while the buffers are disabled or already ready. -/
theorem refbufReady_idle (l : List Nat) (h : (s.vat v.val).refEn = false ∨ (s.vat v.val).refReady = true) :
    exec (.refbufReady v l) s = .next s := by
  rcases h with h | h <;> simp [exec, execRefbufReady, h]

end

/-! ### The correction window (R126) -/

@[simp] theorem Group.conv_setConv_same (g : Group) (i : Nat) (c : Conv) : (g.setConv i c).conv i = c := get_put_same _ _ _ _
@[simp] theorem Group.trim_setTrim_same (g : Group) (i : Nat) (t : Trim) : (g.setTrim i t).trim i = t := get_put_same _ _ _ _

section
variable (s : State) (v : Fin 64)

theorem corrData_bad (value : Option Nat) (hbad : s.corrBad v.val = true) :
    exec (.corrData v value) s = .next (s.corrected .corrSelRange v.val none) := by
  simp only [exec, execCorrData, State.accessCorr, if_pos hbad]

variable (hsel : s.corrBad v.val = false)
include hsel

theorem corrData_read : exec (.corrData v none) s = .next s := by
  simp [exec, execCorrData, State.accessCorr, hsel]

theorem corrData_noDebug (w : Nat) (hdebug : s.debugReg = false) : exec (.corrData v (some w)) s = .next s := by
  simp [exec, execCorrData, State.accessCorr, hsel, hdebug]

variable (w : Nat) (hdebug : s.debugReg = true)
include hdebug

theorem corrData_conv (hkind : s.reg .corrKind v.val = 0) : exec (.corrData v (some w)) s =
    .next (s.modGroup v.val (s.reg .corrGroup v.val) (fun g => g.setConv (s.reg .corrIndex v.val)
      { g.conv (s.reg .corrIndex v.val) with gainTgt := toSigned 12 (bits w 55 44), ofsTgt := toSigned 10 (bits w 25 16) })) := by
  simp [exec, execCorrData, State.accessCorr, hsel, hdebug, hkind]

theorem corrData_trim (hkind : s.reg .corrKind v.val ≠ 0) : exec (.corrData v (some w)) s =
    .next (s.modGroup v.val (s.reg .corrGroup v.val) (fun g => g.setTrim (s.reg .corrIndex v.val)
      { g.trim (s.reg .corrIndex v.val) with target := toSigned 7 (bits w 22 16) })) := by
  simp [exec, execCorrData, State.accessCorr, hsel, hdebug, hkind]

end

/-! ### The scratchpad window (R590) -/

/-- SCR_ADDR after an access at `a`: the next 8 bytes, or the start again. -/
def scrNext (a : Nat) : Nat := if a + 8 < scrBytes then a + 8 else 0

/-- Within the scratchpad only the last 8 bytes wrap. -/
theorem scrNext_eq {a : Nat} (h : a + 8 ≤ scrBytes) : scrNext a = if a = 0x17FFFF8 then 0 else a + 8 := by
  unfold scrNext scrBytes at *; split <;> split <;> omega

section
variable (s : State) (v : Fin 64)

theorem scrData_idle (value : Option Nat) (h : s.debugReg = false ∨ value = none) : exec (.scrData v value) s =
    .next (s.modVat v.val (fun x => { x with scrAddr := scrNext (s.vat v.val).scrAddr })) := by
  rcases h with h | rfl
  · cases value <;> simp [exec, execScrData, State.accessScr, scrNext, h]
  · rfl

theorem scrData_write (n : Nat) (h : s.debugReg = true) : exec (.scrData v (some n)) s =
    .next ((s.writeNum (scrAddrOf v.val (s.vat v.val).scrAddr) 8 n).modVat v.val
      (fun x => { x with scrAddr := scrNext (s.vat v.val).scrAddr })) := by
  simp [exec, execScrData, State.accessScr, scrNext, h]

end

/-! ### The histogram window (R567) -/

section
variable (s : State) (w : Nat)

/-- The state once HIST_SEL holds `w`, before any bins are copied. -/
def State.histSelected : State :=
  ((s.setReg .histVat 0 (bits w 29 24)).setReg .histGroup 0 (bits w 18 8)).setReg .histPair 0 (bits w 3 0)

theorem State.histSelected_regs : (s.histSelected w).reg .histVat = bits w 29 24 ∧
    (s.histSelected w).reg .histGroup = bits w 18 8 ∧ (s.histSelected w).reg .histPair = bits w 3 0 := by
  unfold State.histSelected
  refine ⟨?_, ?_, State.reg_setReg_same ..⟩
  · rw [State.reg_setReg_ne _ _ (by decide), State.reg_setReg_ne _ _ (by decide), State.reg_setReg_same]
  · rw [State.reg_setReg_ne _ _ (by decide), State.reg_setReg_same]

/-- Only the snapshot is written beside HIST_SEL, and a change of vat or group to one that exists copies its bins. -/
theorem histSel_copies : ∃ snap, exec (.histSel w) s = .next { s.histSelected w with histSnap := snap } ∧
    (¬(s.reg .histVat = bits w 29 24 ∧ s.reg .histGroup = bits w 18 8) → bits w 18 8 ≤ 1535 → ∀ n, n < 32 →
      get 0 snap n = get 0 (s.group (bits w 29 24) (bits w 18 8)).histLast n) := by
  by_cases hsame : s.reg .histVat = bits w 29 24 ∧ s.reg .histGroup = bits w 18 8
  · exact ⟨s.histSnap, congrArg Host.Outcome.next (if_pos (decide_eq_true hsame)), fun hne => absurd hsame hne⟩
  · by_cases hp : 1535 < bits w 18 8
    · exact ⟨[], by simp [exec, execHistSel, State.writeHistSel, State.histSelected, hsame, hp],
        fun _ hle => absurd hp (by omega)⟩
    · refine ⟨put 0 (s.group (bits w 29 24) (bits w 18 8)).histLast 32 ((s.tick.now / 1024 - 1) % 65536), ?_,
        fun _ _ n hn => get_put_ne _ _ _ (by omega)⟩
      simp [exec, execHistSel, State.writeHistSel, State.histSelected, hsame, hp, State.group]

end

/-! ### The obligation -/

/-- Settles O42: each window and buffer by its equations above. -/
theorem vatWindows : Obligations.VatWindows := by
  intro s v on w p
  refine ⟨fun h => ?locked, fun hrun hcal hdrain => ?enable, fun a b j => ?powerEnds, fun hen hready hp hfault => ?settle,
    refbufReady_idle s v [p], ⟨corrData_bad s v (some w), fun hsel => ?corr⟩, fun value hscr => ?scr, ?histData, ?histSel⟩
  case locked => exact ⟨_, refbufEn_locked s v on h, by simp [State.setWwr], rfl⟩
  case enable => exact ⟨refbufEn_enables s v hrun hcal hdrain, refbufEn_disables s v hrun hcal hdrain⟩
  case powerEnds =>
    exact ⟨(modResetN_resetsVat s v.val a b).buffersOff, fun hon => ⟨(thermTrip_resetsVat s v.val hon a j).buffersOff,
      (pstageFault_resetsVat s v.val hon).buffersOff, (refLost_resetsVat s v.val hon).buffersOff,
      (hubHang_resetsVat s v.val a b hon).buffersOff⟩⟩
  case settle =>
    obtain ⟨t, ht, herr⟩ := refbufReady_unsettled s v p hen hready hp hfault
    refine ⟨refbufReady_settled s v hen hready, t, ht, ?_, ?_, ?_, ?_⟩
    · rw [herr.vat_eq]; simp
    · rw [herr.group_eq]; simp
    · rw [herr.vat_eq]; simp
    · obtain ⟨e, ho, rfl⟩ := herr; simp
  case corr =>
    exact ⟨corrData_read s v hsel, corrData_noDebug s v hsel w,
      fun hdebug hkind => ⟨_, corrData_conv s v hsel w hdebug hkind, by simp, rfl⟩,
      fun hdebug hkind => ⟨_, corrData_trim s v hsel w hdebug hkind, by simp, rfl⟩⟩
  case scr =>
    by_cases hidle : s.debugReg = false ∨ value = none
    · refine ⟨_, scrData_idle s v value hidle, by simp [scrNext_eq hscr], fun _ => rfl, fun hdebug n hn => ?_, rfl⟩
      simp [hdebug, hn] at hidle
    · obtain ⟨hdebug, n, rfl⟩ : s.debugReg = true ∧ ∃ n, value = some n := by
        simpa [Option.ne_none_iff_exists'] using hidle
      refine ⟨_, scrData_write s v n hdebug, by simp [scrNext_eq hscr], fun h => absurd h hidle, fun _ m hm => ?_, rfl⟩
      obtain rfl : n = m := Option.some.inj hm
      exact ⟨s.readNum_writeNum_same _ 8 n, s.writeNum_sameBytesOutside _ 8 n⟩
  case histData => exact ⟨_, rfl, State.reg_setReg_same .., rfl⟩
  case histSel =>
    obtain ⟨snap, ht, hcopy⟩ := histSel_copies s w
    obtain ⟨hvat, hgroup, hpair⟩ := s.histSelected_regs w
    exact ⟨_, ht, hvat, hgroup, hpair, hcopy, rfl⟩

end Sys2Proof.Machine

/-! ## The choice of a sampling plan (R165, R170) -/

namespace Sys2Proof.Machine

/-! ### The rule as a search for the target, then a search for the best low -/

section
variable (m : Nat → Option Nat)

/-- The plan's low is measured and at or above 0.33 LSB. -/
def reachesTarget (p : Nat) : Bool := match m p with
  | some c => decide (66 ≤ c)
  | none => false

/-- The better of the best plan so far, with its low, and the next plan of the order: the earlier one on a tie. -/
def keepBetter (b : Option (Nat × Nat)) (p : Nat) : Option (Nat × Nat) := match m p, b with
  | some c, some x => if x.2 < c then some (p, c) else b
  | some c, none => some (p, c)
  | none, _ => b

/-- R165 in two searches. -/
theorem choosePlan_eq (order : List Nat) : choosePlan order m = (order.find? (reachesTarget m)).or
    (((order.foldl (keepBetter m) none).filter (60 ≤ ·.2)).map Prod.fst) := by
  change (match order.find? (reachesTarget m) with
    | some p => some p
    | none => match order.foldl (keepBetter m) none with
      | some x => if 60 ≤ x.2 then some x.1 else none
      | none => none) = _
  cases order.find? (reachesTarget m) with
  | some p => rfl
  | none =>
    cases order.foldl (keepBetter m) none with
    | none => rfl
    | some x => by_cases h : 60 ≤ x.2 <;> simp [Option.filter, h]

variable {m} {order : List Nat} {b : Option (Nat × Nat)} {c p q : Nat}

theorem reachesTarget_iff : reachesTarget m p = true ↔ ∃ c, m p = some c ∧ 66 ≤ c := by
  cases h : m p <;> simp [reachesTarget, h]

theorem keepBetter_of_lt (hq : m q = some c) (hb : ∀ x, b = some x → x.2 < c) : keepBetter m b q = some (q, c) := by
  cases b with
  | none => simp [keepBetter, hq]
  | some x => simp [keepBetter, hq, hb x rfl]

theorem keepBetter_of_le {x : Nat × Nat} (hp : ∀ e, m p = some e → e ≤ x.2) : keepBetter m (some x) p = some x := by
  cases h : m p with
  | none => simp [keepBetter, h]
  | some e => simp [keepBetter, h, Nat.not_lt.2 (hp e h)]

theorem keepBetter_lt (hp : ∀ e, m p = some e → e < c) (hb : ∀ x, b = some x → x.2 < c) :
    ∀ x, keepBetter m b p = some x → x.2 < c := by
  intro x hx
  cases hm : m p with
  | none => exact hb x (by simpa [keepBetter, hm] using hx)
  | some e =>
    by_cases hmore : ∀ y, b = some y → y.2 < e
    · rw [keepBetter_of_lt hm hmore] at hx
      exact Option.some.inj hx ▸ hp e hm
    · obtain ⟨y, rfl, hle⟩ : ∃ y, b = some y ∧ e ≤ y.2 := by simpa using hmore
      rw [keepBetter_of_le (by simp [hm, hle])] at hx
      exact hb x hx

/-- A bound on every low measured bounds the best of them. -/
theorem foldl_keepBetter_lt (hlow : ∀ p e, p ∈ order → m p = some e → e < c) (hb : ∀ x, b = some x → x.2 < c) :
    ∀ x, order.foldl (keepBetter m) b = some x → x.2 < c := by
  induction order generalizing b with
  | nil => exact hb
  | cons p rest ih =>
    exact ih (fun q e hq => hlow q e (.tail _ hq)) (keepBetter_lt (fun e => hlow p e (.head _)) hb)

/-- A plan stays the best over plans whose lows are no larger. -/
theorem foldl_keepBetter_of_le {x : Nat × Nat} (hlow : ∀ p e, p ∈ order → m p = some e → e ≤ x.2) :
    order.foldl (keepBetter m) (some x) = some x := by
  induction order with
  | nil => rfl
  | cons p rest ih =>
    rw [List.foldl_cons, keepBetter_of_le (fun e => hlow p e (.head _)), ih (fun q e hq => hlow q e (.tail _ hq))]

/-- The best plan of an order is one whose low exceeds those before it and is no smaller than those after it. -/
theorem foldl_keepBetter_append {pre post : List Nat} (hq : m q = some c)
    (hpre : ∀ p e, p ∈ pre → m p = some e → e < c) (hpost : ∀ p e, p ∈ post → m p = some e → e ≤ c) :
    (pre ++ q :: post).foldl (keepBetter m) none = some (q, c) := by
  have hfirst := foldl_keepBetter_lt (b := none) hpre (by simp)
  rw [List.foldl_append, List.foldl_cons, keepBetter_of_lt hq hfirst, foldl_keepBetter_of_le hpost]

/-! ### The three outcomes -/

/-- With no plan at the target, the search falls back to the best low. -/
theorem find?_reachesTarget_eq_none (hlow : ∀ p e, p ∈ order → m p = some e → e < 66) :
    order.find? (reachesTarget m) = none := by
  refine List.find?_eq_none.2 (fun p hp hreach => ?_)
  obtain ⟨e, he, hle⟩ := reachesTarget_iff.1 hreach
  exact absurd (hlow p e hp he) (by omega)

theorem choosePlan_target {pre post : List Nat} (hq : m q = some c) (hc : 66 ≤ c)
    (hpre : ∀ p e, p ∈ pre → m p = some e → e < 66) : choosePlan (pre ++ q :: post) m = some q := by
  rw [choosePlan_eq, List.find?_append, find?_reachesTarget_eq_none hpre,
    List.find?_cons_of_pos (reachesTarget_iff.2 ⟨c, hq, hc⟩)]
  rfl

theorem choosePlan_best {pre post : List Nat} (hq : m q = some c) (hc : 60 ≤ c)
    (hlow : ∀ p e, p ∈ pre ++ q :: post → m p = some e → e < 66 ∧ e ≤ c)
    (hpre : ∀ p e, p ∈ pre → m p = some e → e < c) : choosePlan (pre ++ q :: post) m = some q := by
  have hpost : ∀ p e, p ∈ post → m p = some e → e ≤ c := fun p e hp he => (hlow p e (by simp [hp]) he).2
  rw [choosePlan_eq, find?_reachesTarget_eq_none (fun p e hp he => (hlow p e hp he).1),
    foldl_keepBetter_append hq hpre hpost]
  simp [hc]

theorem choosePlan_none (hlow : ∀ p e, p ∈ order → m p = some e → e < 60) : choosePlan order m = none := by
  have hbest := foldl_keepBetter_lt (b := none) hlow (by simp)
  rw [choosePlan_eq, find?_reachesTarget_eq_none (fun p e hp he => (hlow p e hp he).trans (by decide))]
  simpa [Option.filter_eq_none_iff] using fun p e h => hbest (p, e) h

end

/-- An entry of a list splits it into the entries of smaller index, the entry and the rest. -/
theorem exists_append_of_getElem? {α : Type} {l : List α} {i : Nat} {a : α} (h : l[i]? = some a) :
    ∃ pre post, l = pre ++ a :: post ∧ ∀ x ∈ pre, ∃ j < i, l[j]? = some x := by
  obtain ⟨hi, rfl⟩ := List.getElem?_eq_some_iff.1 h
  refine ⟨l.take i, l.drop (i + 1), by simp, fun x hx => ?_⟩
  obtain ⟨j, hj, rfl⟩ := List.mem_take_iff_getElem.1 hx
  exact ⟨j, by omega, List.getElem?_eq_getElem _⟩

/-! ### A re-plan that finds no plan -/

/-- A group that serves nothing retires alone: no spare takes its place (R170). -/
theorem State.retireGroup_unserving (s : State) (v p cause order : Nat) (hserve : (s.group v p).logical = 0x7FF) :
    ((s.retireGroup v p cause order).group v p).state = .retired ∧
      ∃ gs, s.retireGroup v p cause order = { s with groups := gs } := by
  unfold State.retireGroup
  by_cases hret : (s.group v p).state = .retired
  · simp only [hret, beq_self_eq_true, if_true, true_and]
    exact ⟨_, rfl⟩
  · simp only [hserve, beq_iff_eq, hret, if_false, bne_self_eq_false, Bool.not_false, if_true, State.group_modGroup_same,
      true_and]
    exact ⟨_, rfl⟩

/-- The group once its re-plan has ended and is counted. -/
def Group.replanEnded (g : Group) : Group := { g with replan := none, replanCnt := satAdd 8 g.replanCnt 1 }

@[simp] theorem State.planOrder_modGroup (s : State) (v p : Nat) (f : Group → Group) :
    (s.modGroup v p f).planOrder = s.planOrder := rfl

/-- The end of the last candidate when no plan can be chosen: REPLAN_FAIL, then the retirement with cause 5 (R170). -/
theorem replanCandidateEnd_fails (s : State) (v : Fin 64) (p : Nat) (r : Replan)
    (hreplan : (s.group v.val p).replan = some r) (hlast : r.left.drop 1 = [])
    (hnone : choosePlan s.planOrder (fun x => ((r.lows ++ (r.low.map (fun c => (nth r.left 0, c))).toList).find?
      (fun y => y.1 == x)).map (fun y => y.2)) = none) :
    exec (.replanCandidateEnd v p) s = .next (((s.modGroup v.val p Group.replanEnded).report
      { err := .replanFail, unit := v.val, group := p }).retireGroup v.val p 5 140) := by
  cases hlow : r.low <;>
  · simp only [hlow, Option.map_none, Option.map_some, Option.toList_none, Option.toList_some, List.append_nil] at hnone
    simp only [exec, execReplanCandidateEnd, State.endCandidate, hreplan, hlast, hlow, List.isEmpty_nil, Bool.not_true,
      Bool.false_eq_true, and_false, if_false, State.planOrder_modGroup, hnone]
    rfl

/-! ### The obligation -/

/-- Settles O28: the outcomes of R165 one by one, and the retirement of R170 when there is no plan; that it covers a re-plan
that measured no candidate is the model's own choice (log entry 103). -/
theorem planChoice : Obligations.PlanChoice := by
  intro s order m i q c
  refine ⟨rfl, fun hi hq => ?chosen, choosePlan_none, fun v p r _ hreplan hlast hserve _ hnone => ?retires⟩
  case chosen =>
    obtain ⟨pre, post, rfl, hpre⟩ := exists_append_of_getElem? hi
    have before (b : Nat) (hb : ∀ j p e, j < i → (pre ++ q :: post)[j]? = some p → m p = some e → e < b) :
        ∀ p e, p ∈ pre → m p = some e → e < b := by
      intro p e hp
      obtain ⟨j, hj, hjp⟩ := hpre p hp
      exact hb j p e hj hjp
    exact ⟨fun hc hb => choosePlan_target hq hc (before 66 hb), fun hc hlow hb => choosePlan_best hq hc hlow (before c hb)⟩
  case retires =>
    have hrep := (s.modGroup v.val p Group.replanEnded).report_errHost
      { err := .replanFail, unit := v.val, group := p } rfl rfl rfl
    obtain ⟨hstate, gs, hframe⟩ := State.retireGroup_unserving _ v.val p 5 140 (by
      rw [hrep.group_eq, State.group_modGroup_same]; exact hserve)
    refine ⟨_, replanCandidateEnd_fails s v p r hreplan hlast hnone, hstate, ?_⟩
    obtain ⟨e, h, hreport⟩ := hrep
    rw [hframe, hreport]
    rfl

end Sys2Proof.Machine

/-! ## The merge of two attention partials (R252) -/

namespace Sys2Proof.Machine

section
variable (a b : List F32)

/-- The larger maximum of two partials. -/
def mergedMax : F32 := f32Max (a.getD 0 f32Zero) (b.getD 0 f32Zero)

/-- What scales a partial whose merge has the maximum `m`. -/
def mergeFactor (m : F32) : F32 := exp2u (f32Sub (a.getD 0 f32Zero) m)

theorem length_amerge : (amerge a b).length = min (a.length - 1) (b.length - 1) + 1 := by
  simp [amerge]

@[simp] theorem amerge_getD_zero : (amerge a b).getD 0 f32Zero = mergedMax a b := rfl

variable {a b} {j : Nat}

/-- Behind the maximum, each entry both partials have is the sum of their scaled entries. -/
theorem amerge_getD_succ (ha : j + 1 < a.length) (hb : j + 1 < b.length) : (amerge a b).getD (j + 1) f32Zero =
    f32Add (f32Mul (a.getD (j + 1) f32Zero) (mergeFactor a (mergedMax a b)))
      (f32Mul (b.getD (j + 1) f32Zero) (mergeFactor b (mergedMax a b))) := by
  have hj : j + 1 < (amerge a b).length := by rw [length_amerge]; omega
  rw [List.getD_eq_getElem _ _ hj, List.getD_eq_getElem _ _ ha, List.getD_eq_getElem _ _ hb]
  simp [amerge, mergeFactor, mergedMax]

end

/-- Settles O27: the maximum, then the sum and the outputs entry by entry (R252). -/
theorem attentionMerge : Obligations.AttentionMerge := by
  intro a b ha hb
  refine ⟨by simp [length_amerge, ha, hb], amerge_getD_zero a b, fun j hpos hlt => ?_⟩
  cases j with
  | zero => contradiction
  | succ j => exact amerge_getD_succ (ha ▸ hlt) (hb ▸ hlt)

end Sys2Proof.Machine

/-! ## Membership of the torus: proposals and the union of a tick's changes (R378 to R380, R383, R384) -/

namespace Sys2Proof.Machine

/-! ### A sorted list has the elements of the list it sorts -/

section
variable {α : Type} {le : α → α → Bool} {a b : α}

@[simp] theorem mem_insertBy {l : List α} : a ∈ insertBy le b l ↔ a = b ∨ a ∈ l := by
  induction l with
  | nil => simp [insertBy]
  | cons c r ih =>
    unfold insertBy
    split
    · simp only [List.mem_cons, ih]; exact or_left_comm
    · simp only [List.mem_cons]

theorem mem_foldl_insertBy {l acc : List α} :
    a ∈ l.foldl (fun acc b => insertBy le b acc) acc ↔ a ∈ acc ∨ a ∈ l := by
  induction l generalizing acc with
  | nil => simp
  | cons c r ih => simp only [List.foldl_cons, ih, mem_insertBy, List.mem_cons, or_assoc, or_left_comm]

@[simp] theorem mem_sortBy {l : List α} : a ∈ sortBy le l ↔ a ∈ l := by
  simp [sortBy, mem_foldl_insertBy]

end

/-! ### Proposals that arrive or that the module makes (R378, R379, R383) -/

section
variable {s : State} {q : Proposal}

/-- The torus with a proposal recorded for its tick. -/
def Torus.record (x : Torus) (q : Proposal) : Torus := { x with proposals := x.proposals ++ [q], sent := q :: x.sent }

theorem State.takeProposal_new (hmember : s.torus.member ≠ 0)
    (hnew : s.torus.sent.any (fun x => x.by_ == q.by_ && x.number == q.number) = false) :
    s.takeProposal q = { s with torus := s.torus.record q } := by
  rw [State.takeProposal, if_neg (by simp [hmember, hnew])]
  rfl

theorem State.takeProposal_ignored (h : s.torus.member = 0 ∨
    s.torus.sent.any (fun x => x.by_ == q.by_ && x.number == q.number) = true) : s.takeProposal q = s :=
  if_pos h

theorem State.propose_member (hmember : s.torus.member = 2) (planned : Bool) (es : List MembEntry) :
    s.propose planned es = { s with torus := { s.torus.record ⟨s.reg .nodeId, s.torus.nextProp,
      s.tick.now + (if planned then s.reg .membLead else 2), es⟩ with nextProp := s.torus.nextProp + 1 } } := by
  rw [State.propose, if_neg (not_not_intro hmember)]
  rfl

theorem State.propose_outside (hmember : s.torus.member ≠ 2) (planned : Bool) (es : List MembEntry) :
    s.propose planned es = s :=
  if_pos hmember

variable {p : Fin 6} {b n a : Nat} {es : List MembIn}

theorem membershipProposal_up (hup : (s.port p.val).state = .up) : exec (.membershipProposal p b n a es) s =
    .next (s.takeProposal ⟨b, n, a, es.map (fun e => ⟨e.kind, e.dim, e.node⟩)⟩) :=
  congrArg Host.Outcome.next (if_neg (not_not_intro hup))

theorem membershipProposal_portNotUp (hup : (s.port p.val).state ≠ .up) :
    exec (.membershipProposal p b n a es) s = .next s :=
  congrArg Host.Outcome.next (if_pos hup)

end

/-! ### What removed nodes do to work leaves the torus alone (R384) -/

theorem WorkEnds.torus_eq {s t : State} (h : WorkEnds s t) : t.torus = s.torus := by
  obtain ⟨_, _, _, _, _, _, rfl⟩ := h
  rfl

/-- A report of class CONTAINED that does not count toward R498 and names no vat takes out the requests it names, and
removes neither a unit nor core power. -/
theorem State.report_contained_workEnds (s : State) (r : Report) (hc : r.cls = none) (h2 : (errInfo r.err).cls = 2)
    (hcount : (errInfo r.err).counts = false) (hvat : r.vat = none) : WorkEnds s (s.report r) := by
  have he : s.escalate r = (2, false, s) := by
    simp [State.escalate, State.gone, hc, h2, hcount, hvat]
  unfold State.report
  simp only [he, hvat]
  rw [if_neg (by decide)]
  generalize Capture.mk .. = c
  refine (s.route_errHost r.err r.inst 2 r.deckle c).workEnds.trans ?_
  split
  · exact .refl _
  · exact WorkEnds.foldl _ (fun s i => s.failSession_workEnds i _ _) _ _

theorem State.stepUnreachable_workEnds (s : State) (d i o : Nat) : WorkEnds s (s.stepUnreachable d i o) := by
  unfold State.stepUnreachable
  split
  · exact .refl s
  · exact s.report_contained_workEnds _ rfl rfl rfl rfl

theorem State.failRing_workEnds (s : State) (d o : Nat) : WorkEnds s (s.failRing d o) := by
  unfold State.failRing
  dsimp only
  split
  · exact .refl s
  · exact s.report_contained_workEnds _ rfl rfl rfl rfl

theorem State.lostNodes_workEnds (s : State) (gone : List Nat) (o : Nat) : WorkEnds s (s.lostNodes gone o) := by
  have rings := WorkEnds.foldl
    (fun s d => if (s.ringNodes d).any gone.contains then s.failRing d o else s)
    (fun s d => by
      split
      · exact s.failRing_workEnds d o
      · exact .refl s) allDeckles s
  exact rings.trans (WorkEnds.foldl _ (fun s (x : Nat × Nat) => s.stepUnreachable_workEnds x.1 x.2 o) _ _)

/-! ### The union of a tick's changes (R379, R380) -/

/-- The entries of the proposals for tick `n`. -/
def State.dueEntries (s : State) (n : Nat) : List MembEntry :=
  (s.torus.proposals.filter (fun q => q.at_ == n)).flatMap (fun q => q.entries)

/-- The nodes that entries of kind `k` name. -/
def entryNodes (es : List MembEntry) (k : Nat) : List Nat := (es.filter (fun e => e.kind == k)).map (fun e => e.node)

/-- The links that entries of kind `k` name. -/
def entryLinks (es : List MembEntry) (k : Nat) : List (Nat × Nat) :=
  (es.filter (fun e => e.kind == k)).map (fun e => (e.dim, e.node))

/-- The presence table after the changes of `es`. -/
def presentAfter (present : List Nat) (es : List MembEntry) : List Nat :=
  sortBy (fun a b => decide (a ≤ b)) (present.filter (fun x => !(entryNodes es 1).contains x) ++
    (((entryNodes es 0).filter (fun x => !(entryNodes es 1).contains x)).filter (fun x => !present.contains x)).eraseDups)

/-- The down links that the changes of `es` keep. -/
def keptDown (down : List (Nat × Nat)) (es : List MembEntry) : List (Nat × Nat) :=
  down.filter (fun l => !(entryLinks es 3).contains l || (entryLinks es 2).contains l)

/-- The table of down links after the changes of `es`. -/
def downAfter (down : List (Nat × Nat)) (es : List MembEntry) : List (Nat × Nat) :=
  keptDown down es ++ ((entryLinks es 2).filter (fun l => !(keptDown down es).contains l)).eraseDups

section
variable {node : Nat} {link : Nat × Nat} {es : List MembEntry}

/-- LEAVE of a node overrides its JOIN. -/
theorem mem_presentAfter {present : List Nat} : node ∈ presentAfter present es ↔
    node ∉ entryNodes es 1 ∧ (node ∈ present ∨ node ∈ entryNodes es 0) := by
  simp only [presentAfter, mem_sortBy, List.mem_append, List.mem_eraseDups, List.mem_filter, Bool.not_eq_true',
    List.contains_eq_mem, decide_eq_false_iff_not]
  tauto

/-- LINK_DOWN of a link overrides its LINK_UP. -/
theorem mem_downAfter {down : List (Nat × Nat)} : link ∈ downAfter down es ↔
    link ∈ entryLinks es 2 ∨ (link ∈ down ∧ link ∉ entryLinks es 3) := by
  simp only [downAfter, keptDown, List.mem_append, List.mem_eraseDups, List.mem_filter, Bool.not_eq_true',
    Bool.or_eq_true, List.contains_eq_mem, decide_eq_true_eq, decide_eq_false_iff_not]
  tauto

theorem mem_entryNodes {k : Nat} : node ∈ entryNodes es k ↔
    es.any (fun e => e.kind == k && e.node == node) = true := by
  simp [entryNodes, and_assoc]

theorem mem_entryLinks {k : Nat} : link ∈ entryLinks es k ↔
    es.any (fun e => e.kind == k && e.dim == link.1 && e.node == link.2) = true := by
  simp [entryLinks, Prod.ext_iff, and_assoc]

variable {s : State} {n : Nat}

theorem State.any_dueEntries (f : MembEntry → Bool) : (s.dueEntries n).any f =
    (s.torus.proposals.filter (fun x => x.at_ == n)).any (fun x => x.entries.any f) :=
  List.any_flatMap

/-- Without a proposal for the tick only the list of proposals is cleared of what is past. -/
theorem State.applyMembership_none (h : ∀ x ∈ s.torus.proposals, x.at_ ≠ n) : s.applyMembership n =
    { s with torus := { s.torus with proposals := s.torus.proposals.filter (fun q => decide (n < q.at_)) } } := by
  unfold State.applyMembership
  exact if_pos (by simpa using h)

/-- The tables after a tick with a proposal, and its epoch. -/
theorem State.applyMembership_tables (h : ∃ x ∈ s.torus.proposals, x.at_ = n) :
    (s.applyMembership n).torus.present = presentAfter s.torus.present (s.dueEntries n) ∧
    (s.applyMembership n).torus.downLinks = downAfter s.torus.downLinks (s.dueEntries n) ∧
    (s.applyMembership n).torus.epoch = s.torus.epoch + 1 := by
  have hdue : ¬ (s.torus.proposals.filter (fun q => q.at_ == n)).isEmpty = true := by simpa using h
  unfold State.applyMembership
  dsimp only
  rw [if_neg hdue, ← List.flatMap_eq_foldl, (State.lostNodes_workEnds ..).torus_eq]
  exact ⟨rfl, rfl, rfl⟩

end

/-! ### The obligation -/

/-- Settles O52: recording and LEAVE case by case, then the union by its two override rules (R380). -/
theorem membership : Obligations.Membership := by
  intro s p b n a es node link
  refine ⟨fun hup hmember hnew => ?recorded, fun h => ?ignored, fun hmember => ?leave, fun hmember => ?outside,
    fun hnone => ?unchanged, fun hdue => ?union⟩
  case recorded => rw [membershipProposal_up hup, State.takeProposal_new hmember hnew]; rfl
  case ignored =>
    by_cases hup : (s.port p.val).state = .up
    · rw [membershipProposal_up hup, State.takeProposal_ignored (h.resolve_left (not_not_intro hup))]
    · exact membershipProposal_portNotUp hup
  case leave => exact ⟨_, congrArg Host.Outcome.next (State.propose_member hmember true _), rfl, rfl, rfl⟩
  case outside => exact congrArg Host.Outcome.next (State.propose_outside hmember true _)
  case unchanged => rw [State.applyMembership_none hnone]; exact ⟨rfl, rfl, rfl⟩
  case union =>
    obtain ⟨hpresent, hdown, hepoch⟩ := State.applyMembership_tables hdue
    refine ⟨?_, ?_, hepoch⟩
    · rw [hpresent, mem_presentAfter, ← Bool.not_eq_true]
      simp only [mem_entryNodes, State.any_dueEntries]
    · rw [hdown, mem_downAfter, ← Bool.not_eq_true]
      simp only [mem_entryLinks, State.any_dueEntries]

end Sys2Proof.Machine

/-! ## What every step keeps: the commands behind the front one, the form of device memory, the bounds of the period -/

namespace Sys2Proof.Machine

set_option Elab.async false

/-! ### The relation, and how it composes -/

/-- The queue's rest stays, and a sound state stays sound. -/
def Steady (s t : State) : Prop := t.pending = s.pending ∧ (s.Sound → t.Sound)

/-! ### Taking pages, one level at a time -/

/-- The recursion of `takePages` with the choice of a stack and of a page as parameters: the kernel can unfold one level of
it without evaluating either. -/
def takePagesWith (next : State → Nat → Option Nat) (take : State → Nat → Nat → Option (Nat × State)) :
    Nat → Nat → Nat → List Nat → State → Option (List Nat × Nat × State)
  | 0, st, _, acc, s => some (acc, st, s)
  | n + 1, st, byte, acc, s =>
    match next s st with
    | none => none
    | some t => match take s t byte with
      | none => none
      | some (k, s') => takePagesWith next take n ((t + 1) % 8) byte (acc ++ [k]) s'

theorem Steady.takePagesWith {s t : State} (h : Steady s t) {next take}
    (htake : ∀ u st b x, Steady s u → take u st b = some x → Steady s x.2) {n st b acc x}
    (e : takePagesWith next take n st b acc t = some x) : Steady s x.2.2 := by
  induction n generalizing st acc t with
  | zero => cases e; exact h
  | succ n ih =>
    unfold Machine.takePagesWith at e
    split at e
    · cases e
    · split at e
      · cases e
      next hp => exact ih (htake _ _ _ _ h hp) e

theorem takePages_eq : takePages = takePagesWith State.nextStack State.takePage := by
  delta takePages takePagesWith; rfl

namespace Steady

variable {s t u : State}

theorem refl : Steady s s := ⟨rfl, id⟩

theorem trans (h : Steady s t) (h' : Steady t u) : Steady s u := ⟨h'.1.trans h.1, fun hs => h'.2 (h.2 hs)⟩

/-- An update of parts that neither the queue, the memory nor the period is among. -/
theorem upd (h : Steady s t) (hpend : u.pending = t.pending := by rfl) (hmem : u.mem = t.mem := by rfl)
    (hper : u.tick.period = t.tick.period := by rfl) (hnext : u.tick.periodNext = t.tick.periodNext := by rfl) :
    Steady s u := by
  refine h.trans ⟨hpend, ?_⟩
  unfold State.Sound
  rw [hmem, hper, hnext]
  exact id

/-- An update of the memory that keeps its canonical form. -/
theorem updMem (h : Steady s t) {m : List Host.Cell} (hwf : Memory.wf t.mem = true → Memory.wf m = true) :
    Steady s { t with mem := m } :=
  h.trans ⟨rfl, fun hs => ⟨hwf hs.1, hs.2⟩⟩

theorem ite {c : Prop} [Decidable c] (h : Steady s t) (h' : Steady s u) : Steady s (if c then t else u) := by
  split
  · exact h
  · exact h'

theorem when {c : Bool} {f : State → State} (h : Steady s t) (hf : Steady t (f t)) : Steady s (when c f t) :=
  (h.trans hf).ite h

theorem foldl {α : Type} {f : State → α → State} {l : List α} (h : Steady s t)
    (hf : ∀ u a, Steady s u → Steady s (f u a)) : Steady s (l.foldl f t) := by
  induction l generalizing t with
  | nil => exact h
  | cons a r ih => exact ih (hf t a h)

theorem forAll {l : List Nat} {f : Nat → State → State} (h : Steady s t)
    (hf : ∀ u i, Steady s u → Steady s (f i u)) : Steady s (forAll l f t) :=
  h.foldl hf

theorem getD {o : Option State} (h : ∀ u, o = some u → Steady s u) (h' : Steady s t) : Steady s (o.getD t) := by
  cases o with
  | none => exact h'
  | some u => exact h u rfl

end Steady

theorem ErrHost.steady {s t : State} (h : ErrHost s t) : Steady s t := by
  obtain ⟨_, _, rfl⟩ := h; exact Steady.refl.upd

theorem WorkEnds.steady {s t : State} (h : WorkEnds s t) : Steady s t := by
  obtain ⟨_, _, _, _, _, _, rfl⟩ := h; exact Steady.refl.upd

theorem Reported.steady {s t : State} (h : Reported s t) : Steady s t := by
  obtain ⟨_, _, _, _, _, _, _, rfl⟩ := h; exact Steady.refl.upd

namespace Steady

section
variable {s t : State} (h : Steady s t)
include h

/-! ### Units and device memory -/

theorem updErrs {x} : Steady s { t with errs := x } := h.upd
theorem updHost {x} : Steady s { t with host := x } := h.upd
theorem updSessions {x} : Steady s { t with sessions := x } := h.upd
theorem updDeckles {x} : Steady s { t with deckles := x } := h.upd
theorem updSched {x} : Steady s { t with sched := x } := h.upd
theorem updOwners {x} : Steady s { t with owners := x } := h.upd
theorem updPageOut {x} : Steady s { t with pageOut := x } := h.upd
theorem updMemStat {x} : Steady s { t with memStat := x } := h.upd
theorem updSlots {x} : Steady s { t with slots := x } := h.upd
theorem updQuires {x} : Steady s { t with quires := x } := h.upd
theorem updPorts {x} : Steady s { t with ports := x } := h.upd
theorem updTorus {x} : Steady s { t with torus := x } := h.upd
theorem updSec {x} : Steady s { t with sec := x } := h.upd
theorem updUpd {x} : Steady s { t with upd := x } := h.upd
theorem updTest {x} : Steady s { t with test := x } := h.upd
theorem updReloads {x} : Steady s { t with reloads := x } := h.upd
theorem updShadows {x} : Steady s { t with shadows := x } := h.upd
theorem updTherm {x} : Steady s { t with therm := x } := h.upd
theorem updPower {x} : Steady s { t with power := x } := h.upd
theorem updGroups {x} : Steady s { t with groups := x } := h.upd
theorem updVats {x} : Steady s { t with vats := x } := h.upd
theorem updRegs {x} : Steady s { t with regs := x } := h.upd
theorem updFree {x} : Steady s { t with free := x } := h.upd
theorem updSwapOuts {x} : Steady s { t with swapOuts := x } := h.upd
theorem updSwapIns {x} : Steady s { t with swapIns := x } := h.upd
theorem updKvSat {x} : Steady s { t with kvSat := x } := h.upd
theorem updRejects {x} : Steady s { t with rejects := x } := h.upd
theorem updHistSnap {x} : Steady s { t with histSnap := x } := h.upd
theorem updSessShown {x} : Steady s { t with sessShown := x } := h.upd
theorem updGroupShown {x} : Steady s { t with groupShown := x } := h.upd
theorem modVat {v f} : Steady s (t.modVat v f) := h.upd
theorem modGroup {v p f} : Steady s (t.modGroup v p f) := h.upd
theorem modSession {i f} : Steady s (t.modSession i f) := h.upd
theorem modDeckle {d f} : Steady s (t.modDeckle d f) := h.upd
theorem modSlot {k f} : Steady s (t.modSlot k f) := h.upd
theorem modPort {p f} : Steady s (t.modPort p f) := h.upd
theorem modFunc {n f} : Steady s (t.modFunc n f) := h.upd
theorem modPage {p f} : Steady s (t.modPage p f) := h.upd
theorem setReg {f c v} : Steady s (t.setReg f c v) := h.upd
theorem post {fn a b r} : Steady s (t.post fn a b r) := h.upd
theorem draw : Steady s t.draw.2 := h.upd
theorem setByte {a b} : Steady s (t.setByte a b) := h.updMem (t.setByte_wf a b)
theorem writeMem {a bs} : Steady s (t.writeMem a bs) := h.updMem (t.writeMem_wf a bs)
theorem writeNum {a n v} : Steady s (t.writeNum a n v) := h.writeMem
theorem clearMem {a n} : Steady s (t.clearMem a n) := h.updMem (t.clearMem_wf a n)

/-! ### Reports, and the ends of requests -/

theorem raiseVector {fn v} : Steady s (t.raiseVector fn v) := h.trans (t.raiseVector_errHost fn v).steady
theorem sendVector {fn v} : Steady s (t.sendVector fn v) := h.trans (t.sendVector_errHost fn v).steady
theorem sendVectors : Steady s t.sendVectors := h.foldl fun _ _ h => h.foldl fun _ _ h => h.sendVector
theorem flushPf : Steady s t.flushPf := by
  unfold State.flushPf; split
  · exact h.updHost.foldl fun _ _ h => h.post
  · exact h
theorem pfVector {v} : Steady s (t.pfVector v) := h.trans (t.pfVector_errHost v).steady
theorem toDeckle {d c n} : Steady s (t.toDeckle d c n) := h.trans (t.toDeckle_errHost d c n).steady
theorem queueEvent {c} : Steady s (t.queueEvent c) := h.trans (t.queueEvent_errHost c).steady
theorem route {e i k d c} : Steady s (t.route e i k d c) := h.trans (t.route_errHost e i k d c).steady
theorem corrected {e i d j} : Steady s (t.corrected e i d j) := h.route
theorem publish {d i r o q w} : Steady s (t.publish d i r o q w) := h.modDeckle
theorem finish {d c st e en l w n o} : Steady s (t.finish d c st e en l w n o) := h.publish
theorem finishNow {d c st e} : Steady s (t.finishNow d c st e) := h.finish
theorem reject {d c e} : Steady s (t.reject d c e) := h.trans (t.reject_workEnds d c e).steady
theorem modStep {d i f} : Steady s (t.modStep d i f) := h.modDeckle
theorem releaseTiles {b} : Steady s (releaseTiles b t) := h.upd
theorem dropStep {d i} : Steady s (t.dropStep d i) := h.trans (t.dropStep_workEnds d i).steady
theorem withdraw {d i} : Steady s (t.withdraw d i) := h.trans (t.withdraw_workEnds d i).steady
theorem endActive {i st e en l o} : Steady s (t.endActive i st e en l o) :=
  h.trans (t.endActive_workEnds i st e en l o).steady
theorem endWaiting {i st e o} : Steady s (t.endWaiting i st e o) := h.trans (t.endWaiting_workEnds i st e o).steady
theorem startRequest {i r o} : Steady s (t.startRequest i r o) := h.trans (t.startRequest_workEnds i r o).steady
theorem startWaiting {i o} : Steady s (t.startWaiting i o) := h.trans (t.startWaiting_workEnds i o).steady
theorem failSession {i c o} : Steady s (t.failSession i c o) := h.trans (t.failSession_workEnds i c o).steady
theorem loseOps {f o} : Steady s (t.loseOps f o) := h.trans (t.loseOps_workEnds f o).steady
theorem retireVat {v c o} : Steady s (t.retireVat v c o) := h.trans (t.retireVat_reported v c o).steady

/-- Core power gone: memory lists nothing and the period is that of reset. -/
theorem corePowerOff : Steady s t.corePowerOff :=
  h.trans ⟨rfl, fun _ => ⟨rfl, show periodOk 12500 by unfold periodOk; decide, fun _ hn => nomatch hn⟩⟩
theorem shutdown {c i} : Steady s (t.shutdown c i) := h.corePowerOff.upd
theorem report {r} : Steady s (t.report r) := by
  rcases t.report_cases r with ⟨u, c, i, hu, heq⟩ | hrep
  · rw [heq]; exact (h.trans hu.steady).shutdown
  · exact h.trans hrep.steady

/-! ### Pages -/

theorem own {k n b} : Steady s (t.own k n b) := h.upd
theorem withdrawPage {k} : Steady s (t.withdrawPage k) := h.updPageOut.report
theorem retirePageAt {k} : Steady s (t.retirePageAt k) := by
  unfold State.retirePageAt
  exact h.ite (h.withdrawPage.ite h.upd)
theorem release {l} : Steady s (t.release l) := h.foldl fun _ _ h => h.updOwners.withdrawPage.ite h.updOwners
theorem memCount {st c n} : Steady s (t.memCount st c n) := h.upd
theorem takePage {st b x} (e : t.takePage st b = some x) : Steady s x.2 := by
  obtain ⟨k, -, rfl⟩ := Option.map_eq_some_iff.1 e
  exact h.own
theorem takePages {n st b acc x} (e : takePages n st b acc t = some x) : Steady s x.2.2 := by
  rw [takePages_eq] at e
  exact h.takePagesWith (fun _ _ _ _ h e => h.takePage e) e

/-! ### The KV manager -/

theorem setCommit {i n} : Steady s (t.setCommit i n) := by
  unfold State.setCommit
  exact h.modSession.writeNum.writeNum.ite h.modSession
theorem raiseWritten {i n} : Steady s (t.raiseWritten i n) := h.writeNum.ite h
theorem placeRegion {d n x} (e : t.placeRegion d n = some x) : Steady s x.2.2 := by
  unfold State.placeRegion at e
  split at e
  · cases e
  · obtain ⟨k, -, rfl⟩ := Option.map_eq_some_iff.1 e
    exact h.own
theorem setRegion {i st k n} : Steady s (t.setRegion i st k n) := h.modSession
theorem dropRegion {i} : Steady s (t.dropRegion i) := (h.release.ite h).modSession
theorem markSlots {d l v} : Steady s (t.markSlots d l v) := h.modDeckle
theorem beginSwapOut {i k u} (e : t.beginSwapOut i k = some u) : Steady s u := by
  simp only [State.beginSwapOut] at e
  split at e
  · cases e
  · cases e; exact h.writeNum.markSlots.modSession
theorem swapTick {d} : Steady s (t.swapTick d).2 := h.modDeckle
theorem swapWrite {i} : Steady s (t.swapWrite i) := by
  unfold State.swapWrite
  dsimp only
  split
  · exact h
  · split
    · exact h.swapTick.modSession.post
    · split
      · exact h.swapTick.modSession.post
      · exact h.modSession.post
theorem moveSwaps {d n l} : Steady s (State.moveSwaps d n l t) := by
  induction l generalizing n t with
  | nil => exact h
  | cons i r ih =>
    refine ih ?_
    split
    · exact h
    · exact h.modSession
    · exact h.foldl fun _ _ h => h.swapWrite
theorem swapsOf {d} : Steady s (t.swapsOf d) := h.moveSwaps.ite h
theorem makeRoom {d n x} (e : t.makeRoom d n = x) : Steady s x.2 := by
  subst e
  unfold State.makeRoom
  dsimp only
  split
  · exact h
  · split
    · exact h
    · split
      · exact h
      · split
        · exact h
        · exact h.foldl fun _ _ h => getD (fun _ e => h.beginSwapOut e) h
theorem dropImage {i} : Steady s (t.dropImage i) := by
  unfold State.dropImage
  split
  · exact h
  · exact h.markSlots.modSession
theorem dropSnap {d i} : Steady s (t.dropSnap d i) := h.markSlots.modDeckle
theorem settleSwap {i} : Steady s (t.settleSwap i) := by
  unfold State.settleSwap
  dsimp only
  split
  · exact h
  · split
    · exact h.dropRegion.modSession.updSwapOuts
    · exact h.dropRegion.modSession.updSwapOuts
    · split
      · exact h.dropImage.modSession.updSwapIns.finish.finish.modSession.modSession.startWaiting
      · exact h.dropImage.modSession.updSwapIns.modSession.startWaiting
    · exact h
theorem beginSwapIn {i} : Steady s (t.beginSwapIn i).2 := by
  unfold State.beginSwapIn
  dsimp only
  split
  · exact h
  · split
    next u hroom =>
      have hu : Steady s u := h.makeRoom hroom
      split
      · exact hu
      next hplace =>
        have hv := hu.placeRegion hplace
        split
        · exact hv.release
        next htake => exact (hv.takePages htake).setRegion.modSession
    exact h.makeRoom rfl
theorem swapInFailed {i e} : Steady s (t.swapInFailed i e) := h.dropRegion.modSession.report
theorem swapInDone {i l} : Steady s (t.swapInDone i l) := by
  unfold State.swapInDone
  split
  · exact h.swapInFailed
  · exact (h.foldl fun _ _ h => h.writeMem).writeNum.modSession
theorem closeSession {i} : Steady s (t.closeSession i) := h.withdraw.dropRegion.dropImage.updSessions

/-! ### Groups -/

theorem takeOver {v p w q} : Steady s (t.takeOver v p w q) := h.modGroup
theorem retireGroup {v p c o} : Steady s (t.retireGroup v p c o) := by
  unfold State.retireGroup
  dsimp only
  split
  · exact h
  · split
    · exact h.modGroup
    · split
      · exact h.takeOver.modGroup
      · exact h.modGroup.report
theorem noteStuck {v p l} : Steady s (t.noteStuck v p l) := h.modGroup
theorem makeDue {v p} : Steady s (t.makeDue v p) := h.modGroup
theorem verifyGroup {v p l} : Steady s (t.verifyGroup v p l) := by
  have first : Steady s (if l.any (fun c => decide (272 ≤ c.col)) then (t.noteStuck v p l).makeDue v p
      else t.noteStuck v p l) := h.noteStuck.makeDue.ite h.noteStuck
  exact first.report.retireGroup.ite first
theorem enterService {v p} : Steady s (t.enterService v p) :=
  (h.ite (h.foldl fun _ _ h => h.modGroup)).modGroup
theorem enterGroups : Steady s t.enterGroups := by
  refine foldl (h.foldl fun _ _ h => ?_) fun _ _ h => h.ite h.modSlot
  split
  · exact h.enterService
  · exact h.modGroup
  · exact h

/-! ### Register fields -/

theorem fieldError {f c e} : Steady s (t.fieldError f c e) := h.corrected
theorem putField {f c v} : Steady s (t.putField f c v) := by
  unfold State.putField
  split
  · exact h.setReg
  · exact h
  · exact h.fieldError
theorem setWwr {p} : Steady s (t.setWwr p) := h.modPage
theorem putShadow {f c v} : Steady s (t.putShadow f c v) := h.upd
theorem writeField {f c v} : Steady s (t.writeField f c v) := by
  unfold State.writeField
  split
  · exact h.putField
  · exact h.putShadow
  · exact h.setWwr.ite h.putField
theorem writeSessRange {d b n} : Steady s (t.writeSessRange d b n) :=
  h.setWwr.ite (h.fieldError.ite h.setReg.setReg)
theorem commitShares {ws} : Steady s (t.commitShares ws) := by
  have fail {g : State → Shadow → Err} : Steady s (ws.foldl (fun s w => s.fieldError .share w.copy (g s w)) t) :=
    h.foldl fun _ _ h => h.fieldError
  exact h.ite ((h.foldl fun _ _ h => h.fieldError).ite (fail.ite (fail.ite (h.foldl fun _ _ h => h.setReg))))
theorem commitShadows {n} : Steady s (t.commitShadows n) := by
  refine foldl (foldl (commitShares h.updShadows) fun _ _ h => ?_) fun _ _ h => h.modPage
  split
  · exact h.putField
  · exact h
theorem clearPageErr {p w} : Steady s (t.clearPageErr p w) := h.modPage
theorem writeInj {p v} : Steady s (t.writeInj p v) := h.modPage.ite h
theorem writeLatch {p v} : Steady s (t.writeLatch p v) := h.modPage.updShadows.ite h.modPage
theorem raiseInjected : Steady s t.raiseInjected := by
  refine h.foldl fun _ _ h => ?_
  dsimp only
  split
  · exact h.modPage.ite h.modPage.report
  · exact h.modPage

end

end Steady

end Sys2Proof.Machine

namespace Sys2Proof.Machine

set_option Elab.async false
/-! ### Two more recursions, one level at a time -/

/-- The recursion of `growStream` with the choice of a page as a parameter. -/
def growStreamWith (page : State → Nat → Nat → Nat → Option (Nat × Nat × State)) (k die : Nat) :
    Nat → Image → State → Option (Image × State)
  | 0, m, s => some (m, s)
  | n + 1, m, s =>
    match page s die m.rr (ownSlot k) with
    | none => none
    | some (p, rr, s) =>
      let (ps, used) := get ([], 0) m.dies die
      growStreamWith page k die n { m with rr, pages := m.pages ++ [p], dies := put ([], 0) m.dies die (ps ++ [p], used) } s

theorem Steady.growStreamWith {s t : State} (h : Steady s t) {page k die}
    (hpage : ∀ u rr b x, Steady s u → page u die rr b = some x → Steady s x.2.2) {n m x}
    (e : growStreamWith page k die n m t = some x) : Steady s x.2 := by
  induction n generalizing m t with
  | zero => cases e; exact h
  | succ n ih =>
    unfold Machine.growStreamWith at e
    split at e
    · cases e
    next hp => exact ih (hpage _ _ _ _ h hp) e

theorem growStream_eq : growStream = growStreamWith State.streamPage := by
  delta growStream growStreamWith; rfl

/-- The recursion of `keepTiles` with the storing of one tile as a parameter. -/
def keepTilesWith (keep : Nat → Bytes → Bytes → Image → State → Option (Image × State)) :
    List (Nat × Bytes × Bytes) → Image → State → Option (Image × State)
  | [], m, s => some (m, s)
  | (t, b, outs) :: r, m, s => match keep t b outs m s with
    | none => none
    | some (m, s) => keepTilesWith keep r m s

theorem Steady.keepTilesWith {s t : State} (h : Steady s t) {keep}
    (hkeep : ∀ u i b outs m x, Steady s u → keep i b outs m u = some x → Steady s x.2) {l m x}
    (e : keepTilesWith keep l m t = some x) : Steady s x.2 := by
  induction l generalizing m t with
  | nil => cases e; exact h
  | cons a r ih =>
    unfold Machine.keepTilesWith at e
    split at e
    · cases e
    next hk => exact ih (hkeep _ _ _ _ _ _ h hk) e

theorem keepTiles_eq (k : Nat) : keepTiles k = keepTilesWith (keepTile k) := by
  delta keepTiles keepTilesWith; rfl

namespace Steady
section
variable {s t : State} (h : Steady s t)
include h
/-! ### Status records and pages of an image -/

theorem pfStatus {b n r} : Steady s (t.pfStatus b n r) := (h.updHost.ite h.updHost.flushPf).pfVector
theorem reamRefused {b n e} : Steady s (t.reamRefused b n e) := h.corrected.pfStatus
theorem quireStatus {d b n r} : Steady s (t.quireStatus d b n r) := h.modDeckle
theorem quireRefused {d b n e} : Steady s (t.quireRefused d b n e) := (h.corrected.ite h).quireStatus
theorem withDesc {r op f} (hf : ∀ b, Steady s (f b)) : Steady s (t.withDesc r op f) := by
  unfold State.withDesc
  refine h.ite ?_
  split
  · exact h
  · exact h.corrected
  · exact h.reamRefused.ite (h.ite (hf _))
theorem withQuireDesc {d r op f} (hf : ∀ b, Steady s (f b)) : Steady s (t.withQuireDesc d r op f) := by
  unfold State.withQuireDesc
  refine h.ite ?_
  split
  · exact h
  · exact h.report
  · exact h.quireRefused.ite (h.ite (hf _))
theorem writePaged {ps off bs} : Steady s (writePaged ps off bs t) := by
  induction bs generalizing off t with
  | nil => exact h
  | cons b r ih => exact ih h.setByte
theorem streamPage {die rr b x} (e : t.streamPage die rr b = some x) : Steady s x.2.2 := by
  unfold State.streamPage at e
  split at e
  · dsimp only at e
    split at e
    · cases e
    · obtain ⟨y, hy, rfl⟩ := Option.map_eq_some_iff.1 e
      exact (h.takePage hy : Steady s y.2)
  · split at e
    · cases e
    · obtain ⟨y, hy, rfl⟩ := Option.map_eq_some_iff.1 e
      exact (h.takePage hy : Steady s y.2)
theorem growStream {k die n m x} (e : growStream k die n m t = some x) : Steady s x.2 := by
  rw [growStream_eq] at e
  exact h.growStreamWith (fun _ _ _ _ h e => h.streamPage e) e
theorem streamAppend {k die bs m x} (e : streamAppend k die bs m t = some x) : Steady s x.2.2 := by
  unfold Machine.streamAppend at e
  split at e
  split at e
  · cases e
  next hg => cases e; exact (h.growStream hg).writePaged
theorem sectionAppend {k typ pos bs m x} (e : sectionAppend k typ pos bs m t = some x) : Steady s x.2 := by
  unfold Machine.sectionAppend at e
  generalize htake : Machine.takePages = take at e
  extract_lets ps at e
  split at e
  · cases e
  next hp => cases e; subst htake; exact (h.takePages hp).writePaged

/-! ### Quires -/

theorem quireEnd {d k e} : Steady s (t.quireEnd d k e) := by
  unfold State.quireEnd
  dsimp only
  split
  · exact (h.release.ite h).modDeckle.quireRefused
  · exact (h.release.ite h).modDeckle.quireStatus
theorem quireCheck {d k b} : Steady s (t.quireCheck d k b) := by
  unfold State.quireCheck
  refine h.quireEnd.ite ?_
  split
  · exact h.quireEnd.ite h.release.updQuires.quireEnd
  · exact h.quireEnd.ite h.modDeckle
theorem quireArrives {d k b} : Steady s (t.quireArrives d k b) := by
  unfold State.quireArrives
  refine h.modDeckle.quireEnd.ite (h.modDeckle.quireEnd.ite ?_)
  split
  · exact h.modDeckle.quireEnd
  next hp => exact (h.modDeckle.takePages hp).writePaged.modDeckle.quireCheck
theorem wakeQuires {k} : Steady s (t.wakeQuires k) := h.foldl fun _ _ h => h.quireCheck.ite h

/-! ### Loading an image -/

theorem endLoad {k c} : Steady s (t.endLoad k c) := by
  unfold State.endLoad
  dsimp only
  split
  · exact h.release.modSlot.pfStatus.wakeQuires
  · exact h
theorem failLoad {k e} : Steady s (t.failLoad k e) := h.corrected.endLoad
theorem startLoad {b l} : Steady s (t.startLoad b l) := h.modSlot
theorem setLoad {k o m} : Steady s (t.setLoad k o m) := h.modSlot
theorem takeSection {k typ bs keep} : Steady s (t.takeSection k typ bs keep) := by
  unfold State.takeSection
  dsimp only
  split
  · split
    · exact h
    · refine h.ite ?_
      split
      · exact h.setLoad.failLoad
      next u happ =>
        have hu : Steady s u := by
          split at happ
          · exact h.sectionAppend happ
          · cases happ; exact h
        exact hu.setLoad.ite (hu.setLoad.failLoad.ite hu.setLoad)
  · exact h
theorem takeManifest {k b} : Steady s (t.takeManifest k b) := by
  unfold State.takeManifest
  dsimp only
  split
  · refine h.ite (h.setLoad.failLoad.ite (h.setLoad.failLoad.ite (h.setLoad.failLoad.ite ?_)))
    split
    · exact h.setLoad.failLoad
    next happ => exact (h.setLoad.sectionAppend happ).setLoad
  · exact h
theorem keepTile {k i b outs m x} (e : keepTile k i b outs m t = some x) : Steady s x.2 := by
  unfold Machine.keepTile at e
  split at e
  · cases e; exact h
  · split at e
    · cases e
    next happ =>
      dsimp only at e
      split at e
      · cases e; exact h.streamAppend happ
      · split at e
        · cases e
        next happ' => cases e; exact (h.streamAppend happ).streamAppend happ'
theorem keepTiles {k l m x} (e : keepTiles k l m t = some x) : Steady s x.2 := by
  rw [keepTiles_eq] at e
  exact h.keepTilesWith (fun _ _ _ _ _ _ h e => h.keepTile e) e
theorem rehome {k} : Steady s (t.rehome k) := by
  unfold State.rehome
  dsimp only
  split
  · split
    · exact h.release.setLoad.failLoad
    next hk => exact (h.release.keepTiles hk).setLoad
  · exact h
theorem woutDone {k} : Steady s (t.woutDone k) := by
  unfold State.woutDone
  split
  · exact h.ite (h.setLoad.ite h.failLoad)
  · exact h
theorem takeTile {k b outs} : Steady s (t.takeTile k b outs) := by
  unfold State.takeTile
  dsimp only
  split
  · refine h.ite (h.setLoad.failLoad.ite ?_)
    split
    · exact h.setLoad.failLoad
    · refine h.setLoad.failLoad.ite ?_
      split
      · exact h.setLoad.failLoad
      next hk => exact (h.keepTile hk).setLoad.takeSection.woutDone
  · exact h
theorem finishLoad {k} : Steady s (t.finishLoad k) := by
  unfold State.finishLoad
  dsimp only
  split
  · refine h.ite (h.failLoad.ite (h.failLoad.ite ?_))
    split
    · exact h.failLoad
    · exact h.modSlot.pfStatus.wakeQuires
  · exact h
theorem takePart {k p} : Steady s (t.takePart k p) := by
  have read (r : HostRead) (f : Bytes → State) (couch : Bool) (hf : ∀ b, Steady s (f b)) : Steady s (match r with
      | .late => t
      | .fail => if couch = true then t.failLoad k .couchBreak else t.failLoad k .hubHostRead
      | .data b => f b) := by
    cases r with
    | late => exact h
    | fail => exact h.failLoad.ite h.failLoad
    | data b => exact hf b
  unfold State.takePart
  cases p with
  | manifest r => exact read r _ _ fun _ => h.takeManifest
  | chunk i r => exact read r _ _ fun _ => h.ite (h.modSlot.takeSection.woutDone.ite h.takeSection)
  | tile r o => exact read r _ _ fun _ => (read o _ _ fun _ => h.takeTile).ite h.takeTile
  | plan p r => exact read r _ _ fun _ => h.ite h.modSlot.takeSection
  | place p r => exact read r _ _ fun _ => h.ite h.modSlot.takeSection.rehome
  | done => exact h.finishLoad
  | broken => exact h.failLoad
  | stream => exact h
  | quire => exact h

/-! ### The host port -/

theorem stopTick : Steady s t.stopTick := by
  unfold State.stopTick
  split
  · exact h.upd
  · split
    · exact h.upd
    · exact flushPf (h.trans (refl.upd)) |>.sendVectors
theorem ideLost : Steady s t.ideLost := h.updHost.updHost.report.stopTick.ite h.updHost
theorem dropIde : Steady s t.dropIde := h.ideLost.updHost
theorem resetFunc {n} : Steady s (t.resetFunc n) := h.updHost
theorem deriveAlias : Steady s t.deriveAlias := h.draw.updSec
theorem deriveDevice : Steady s t.deriveDevice := h.updSec
theorem writeDirectory {l} : Steady s (t.writeDirectory l) := h.updUpd

/-! ### Sessions -/

theorem take {d n x} (e : t.take d n = some x) : Steady s x.2 := by
  unfold State.take at e
  split at e
  · split at e
    · cases e
    · cases e; exact h.modDeckle
  · cases e
theorem expire {i} : Steady s (t.expire i) := h.endActive.endWaiting.closeSession.ite h
theorem command {d n f} (hf : ∀ c i u, Steady s u → Steady s (f c i u)) : Steady s (t.command d n f) := by
  unfold State.command
  split
  · exact h
  next htake => exact hf _ _ _ (h.take htake).expire
theorem tryOpen {i} : Steady s (t.tryOpen i) := by
  unfold State.tryOpen
  extract_lets +onlyGivenNames x
  split
  · exact h
  · extract_lets +onlyGivenNames d fail
    refine h.ite ?_
    split
    · exact h.updSessions.reject
    · extract_lets +onlyGivenNames n pages
      clear_value n pages
      refine h.updSessions.reject.ite ?_
      split
      next hroom => exact h.makeRoom hroom
      next hroom => exact (h.makeRoom hroom).updSessions.reject
      next hroom =>
        split
        · exact (h.makeRoom hroom).updSessions.reject
        next hplace => exact ((h.makeRoom hroom).placeRegion hplace).setRegion.modSession.writeMem.finishNow
theorem beginOpen {d i c o} : Steady s (t.beginOpen d i c o) := h.dropSnap.updSessions.tryOpen
theorem openCkpt {d i c b r} : Steady s (t.openCkpt d i c b r) := by
  unfold State.openCkpt
  dsimp only
  split
  · split
    · exact h.reject
    · exact h.modDeckle.updSessions.finishNow
  · exact h.beginOpen
theorem enqueue {i r} : Steady s (t.enqueue i r) := h.startRequest.ite h.modSession
theorem cancelRequests {i c} : Steady s (t.cancelRequests i c) := by
  have first : Steady s (match (t.session i).active with
      | none => t
      | some r => if r.kind = ReqKind.pause ∧ !c then t else t.endActive i 2 0 0 false 0) := by
    split
    · exact h
    · exact h.ite h.endActive
  exact first.endWaiting.dropImage.modSession.ite first.endWaiting
theorem stopSession {i} : Steady s (t.stopSession i) := by
  unfold State.stopSession
  extract_lets +onlyGivenNames x d
  refine ite ?_ ?_
  · refine closeSession (foldl ?_ fun _ _ h => h.finish)
    split
    · refine finish ?_
      split
      · exact h.cancelRequests.finish
      · exact h.cancelRequests
    · split
      · exact h.cancelRequests.finish
      · exact h.cancelRequests
  · extract_lets +onlyGivenNames u v
    have hv : Steady s v := (h.cancelRequests.ite h).modSession
    clear_value v
    split
    · exact hv.startWaiting
    · refine hv.modSession.ite (hv.ite ?_)
      split
      next hswap => exact (hv.beginSwapOut hswap).modSession
      · exact hv.modSession.reject
theorem stopSessions : Steady s t.stopSessions :=
  h.foldl fun _ _ h => (ite h.modSession h).stopSession.ite (ite h.modSession h)
theorem promptFailed {d i} : Steady s (t.promptFailed d i) := h.command fun _ _ _ h => h.reject.ite h

end

end Steady
end Sys2Proof.Machine

namespace Sys2Proof.Machine

set_option Elab.async false

namespace Steady

theorem next {s t : State} (h : Steady s t) : NextIs (.next t) (Steady s) := ⟨t, rfl, h⟩

section
variable {s t : State} (h : Steady s t)
include h
/-! ### Units and device memory -/
theorem updTick {x : Tick} (hper : x.period = t.tick.period := by rfl)
    (hnext : x.periodNext = t.tick.periodNext := by rfl) : Steady s { t with tick := x } :=
  h.upd rfl rfl hper hnext
/-! ### Field update -/

theorem updResult {e c d} : Steady s (t.updResult e c d) := by
  unfold State.updResult
  split
  · exact h.updUpd.pfVector
  · exact h.updUpd.route
theorem setFlash {k n f} : Steady s (t.setFlash k n f) := h.updUpd
theorem writeFails {e c} : Steady s (t.writeFails e c) := h.setFlash.updUpd.updResult
theorem beginWrite {k n e} : Steady s (t.beginWrite k n e) := h.setFlash.updUpd
theorem cmdTaken : Steady s t.cmdTaken := h.setReg
theorem allBytes : Steady s t.allBytes := h.updUpd.ite h
theorem execWrite : NextIs (execWrite t) (Steady s) :=
  next (h.ite (h.cmdTaken.updResult.ite (h.cmdTaken.updResult.ite (h.cmdTaken.updResult.ite
    h.cmdTaken.beginWrite.allBytes))))
theorem execUpdWin {b n f} : NextIs (execUpdWin b n f t) (Steady s) :=
  next (h.ite (h.writeFails.ite (h.writeFails.ite h.updUpd.allBytes)))
theorem lockEnds : Steady s t.lockEnds := h.writeFails.ite h
theorem updPause : Steady s t.updPause := h.lockEnds.ite (h.updUpd.ite (h.updUpd.allBytes.ite h))
theorem execImageVerifyDone {i b} : NextIs (execImageVerifyDone i b t) (Steady s) := by
  refine next (h.ite (h.writeFails.ite (h.writeFails.ite ?_)))
  split
  · exact h.writeFails
  · exact h.writeFails.ite h.setFlash.updUpd.updResult
theorem beginActivate {l} : Steady s (t.beginActivate l) := by
  unfold State.beginActivate
  refine h.updResult.ite ?_
  split
  · exact h.updResult
  · refine h.updResult.ite ?_
    split
    · exact h.updResult
    · exact h.updUpd
theorem execActivate : NextIs (execActivate t) (Steady s) :=
  next (h.ite (h.cmdTaken.updResult.ite h.cmdTaken.beginActivate))
theorem endUpdate : Steady s t.endUpdate := h.updUpd
theorem updCancel : Steady s t.updCancel :=
  h.writeFails.endUpdate.ite (h.endUpdate.updResult.ite (h.endUpdate.ite h))
theorem resetFields {l f} : Steady s (t.resetFields l f) := h.updRegs
/-- A hand-over of SCHED with locked fields puts the period back to its reset value. -/
theorem resetLocked {k} : Steady s (t.resetLocked k) := by
  have reset {u : State} (hu : Steady s u) : Steady s { u with tick := { u.tick with period := 12500, periodNext := none } } :=
    hu.trans ⟨rfl, fun hs => ⟨hs.1, show periodOk 12500 by unfold periodOk; decide, fun _ hn => nomatch hn⟩⟩
  exact (reset h.resetFields).ite ((h.resetFields.foldl fun _ _ h => h.modVat).ite h.resetFields)
theorem resetSettings {k} : Steady s (t.resetSettings k) := by
  unfold State.resetSettings
  extract_lets +onlyGivenNames ps a here errs b power u
  have ha : Steady s a := h.resetFields
  have hb : Steady s b := ha.upd
  have hu : Steady s u := hb.updPower.ite hb
  clear_value u
  exact (hu.foldl fun _ _ h => h.modVat).ite ((hu.foldl fun _ _ h => h.modPort).ite hu)
theorem handKind {k} : Steady s (t.handKind k) := by
  unfold State.handKind
  split
  · exact h
  · extract_lets +onlyGivenNames old new upd a sec b c d e
    have ha : Steady s a := h.updUpd
    have hb : Steady s b := ha.updSec.ite ha
    have hd : Steady s d := hb.writeDirectory.deriveAlias
    have he : Steady s e := hd.resetLocked.ite hd
    clear_value e
    exact he.resetSettings.route.ite he
theorem handOver : Steady s t.handOver := by
  unfold State.handOver
  refine h.ite ?_
  split
  · exact h.endUpdate.updResult
  · exact h.endUpdate.updResult.ite (h.updUpd.handKind.endUpdate.updResult.ite h.updUpd.handKind)
theorem pldmReply {b} : Steady s (t.pldmReply b) := h.updSec
theorem execRequestUpdate : NextIs (execRequestUpdate t) (Steady s) :=
  next (h.updResult.pldmReply.ite h.updUpd.pldmReply)
theorem execPassComponentTable {l} : NextIs (execPassComponentTable l t) (Steady s) :=
  next (h.pldmReply.ite (h.pldmReply.ite h.updUpd.pldmReply))
theorem execUpdateComponent {k n} : NextIs (execUpdateComponent k n t) (Steady s) :=
  next (h.pldmReply.ite (h.pldmReply.ite (h.updResult.pldmReply.ite h.beginWrite.updUpd.allBytes.pldmReply)))
theorem execFirmwareData {b f} : NextIs (execFirmwareData b f t) (Steady s) :=
  next (h.ite (h.writeFails.ite h.updUpd.allBytes))
theorem execActivateFirmware {b} : NextIs (execActivateFirmware b t) (Steady s) :=
  next (h.pldmReply.ite (h.pldmReply.ite (h.pldmReply.ite (h.beginActivate.pldmReply.ite h.beginActivate.pldmReply))))
theorem execCancelUpdateComponent : NextIs (execCancelUpdateComponent t) (Steady s) :=
  next (h.pldmReply.ite (h.writeFails.pldmReply.ite h.pldmReply))
theorem execCancelUpdate : NextIs (execCancelUpdate t) (Steady s) :=
  next (h.pldmReply.ite (ite h.writeFails h).updUpd.pldmReply)
theorem execDirectoryWritten : NextIs (execDirectoryWritten t) (Steady s) := by
  refine next ?_
  split
  · exact h
  · exact h.updUpd

/-! ### The security block -/

theorem ownerDenied : Steady s t.ownerDenied := h.updSec.corrected
theorem ownerCommand {r op f} : Steady s (t.ownerCommand r op f) := by
  unfold State.ownerCommand
  split
  · exact h
  · exact h.ownerDenied
  · exact h.ite (h.ownerDenied.ite h.updSec)
theorem challenge : Steady s t.challenge := h.draw.updSec
theorem newKeys {d} : Steady s (t.newKeys d) := h.draw.draw.modDeckle
theorem dropKeys {d} : Steady s (t.dropKeys d) := h.modDeckle
theorem keyGenFailed : Steady s t.keyGenFailed := h.corrected
theorem unlockSession {i} : Steady s (t.unlockSession i) :=
  ((h.endActive.endWaiting.foldl fun _ _ h => h.finish).foldl fun _ _ h => h.finish).closeSession
theorem dropSteps {d} : Steady s (t.dropSteps d) := h.foldl fun _ _ h => h.dropStep
theorem debugUnlock : Steady s t.debugUnlock := by
  unfold State.debugUnlock
  split
  · exact h
  · exact report (foldl (deriveAlias (dropIde (updSec (foldl (foldl (foldl h.updSec
      fun _ _ h => h.unlockSession) fun _ _ h => h.dropSteps.modDeckle) fun _ _ h => h.newKeys))))
      fun _ _ h => h.toDeckle.raiseVector)
theorem execDbgToken {r} : NextIs (execDbgToken r t) (Steady s) := by
  refine next ?_
  split
  · exact h
  · exact h.corrected
  · exact (h.updSec.updSec.ite h.updSec.updSec.debugUnlock).ite h.updSec.corrected
theorem sign {k b x} (e : t.sign k b = x) : Steady s x.2 := e ▸ h.draw
theorem reply {r b} : Steady s (t.reply r b) := h.updSec
theorem execGetCertificate {r n} : NextIs (execGetCertificate r n t) (Steady s) := by
  refine next (ite ?_ h.reply)
  split
  next hsign => exact (h.sign hsign).reply
theorem execGetMeasurements {r b l} : NextIs (execGetMeasurements r b l t) (Steady s) := by
  unfold Machine.execGetMeasurements
  extract_lets
  split
  next hsign => exact next (h.sign hsign).reply
theorem execKeyExchange {r b c e} : NextIs (execKeyExchange r b c e t) (Steady s) := by
  refine next (ite ?_ h.keyGenFailed)
  split
  next hdraw =>
    have hd := hdraw ▸ h.draw
    extract_lets
    split
    next hsign => exact (hd.sign hsign).updSec.reply
theorem execIdeKm {a} : NextIs (execIdeKm a t) (Steady s) := by
  refine next (h.ite ?_)
  split
  · exact h.draw.updHost
  · exact h.updHost.ite h
  · exact h.updHost.updHost.report.stopTick.ite h.updHost

/-! ### Supplies, reset and start-up -/

theorem enterBoot : Steady s t.enterBoot := h.updPower.modPage.ite h.updPower
theorem sampleRef {a b} : Steady s (t.sampleRef a b) := h.updPower.when refl.report
theorem moduleReset {a b} : Steady s (t.moduleReset a b) := by
  unfold State.moduleReset
  extract_lets +onlyGivenNames u power v w
  have hu : Steady s u := h.corePowerOff
  have hv : Steady s v := hu.upd
  have hw : Steady s w := hv.sampleRef
  clear_value w
  exact hw.enterBoot.ite hw.updPower
theorem trip {m i} : Steady s (t.trip m i) := h.report.updPower.ite h
theorem execHubHang {a b} : NextIs (execHubHang a b t) (Steady s) :=
  next (ite (ite (moduleReset h.updErrs) h.report) h)
theorem bootFail : Steady s t.bootFail := h.modPage.updErrs.ite h.modPage
theorem execBootDirectory {a b} : NextIs (execBootDirectory a b t) (Steady s) := by
  refine next (ite ?_ h)
  extract_lets
  split
  · exact h.updUpd.bootFail
  · exact h.upd
theorem execBootImages {l} : NextIs (execBootImages l t) (Steady s) := by
  refine next (ite ?_ h)
  extract_lets +onlyGivenNames named img flash first upd u
  have hu : Steady s u := h.updUpd
  clear_value u
  refine hu.bootFail.ite ?_
  split
  · exact hu.bootFail
  · extract_lets +onlyGivenNames used inact upd power v fell w
    have hw : Steady s w := (hu.upd : Steady s v).foldl fun _ _ h => h.report
    exact hw.ite hw.writeDirectory
theorem execBootIdentity {a b e} : NextIs (execBootIdentity a b e t) (Steady s) :=
  next (ite (ite (bootFail (updSec h.deriveDevice)) (upd (deriveAlias (updSec h.deriveDevice)))) h)

/-! ### Telemetry, power and heat -/

theorem storeTelem {c k v} : Steady s (t.storeTelem c k v) := h.updTherm
theorem takeRefs {l} : Steady s (t.takeRefs l) := by
  refine h.foldl fun _ _ h => ?_
  split
  · exact h
  · exact h.ite (h.updTherm.ite (h.updTherm.report.ite h.updTherm.report))
theorem takeTelem {k i} : Steady s (t.takeTelem k i) := by
  unfold State.takeTelem
  extract_lets +onlyGivenNames out therm u cal v
  have hv : Steady s v := foldl (h.ite h.updTherm) fun _ _ h => h.storeTelem
  clear_value v
  exact hv.ite (hv.foldl fun _ _ h => h.storeTelem).takeRefs
theorem thermStep : Steady s t.thermStep := h.updTherm
theorem excludeDiode {n} : Steady s (t.excludeDiode n) :=
  h.ite (h.updTherm.report.updTherm.report.ite h.updTherm.report)
theorem dropDead : Steady s t.dropDead := h.foldl fun _ _ h => h.ite h.excludeDiode
theorem evaluate : Steady s t.evaluate := by
  unfold State.evaluate
  extract_lets +onlyGivenNames img th a b n c incl rl r g pts th' d pt dd top hiTick th'' e f hi th₁ w th₂ x
  have hc : Steady s c := foldl (dropDead h.updTherm) fun _ _ h => h.thermStep
  have hd : Steady s d := hc.updTherm
  have he : Steady s e := hd.updTherm
  have hf : Steady s f := he.foldl fun _ _ h => ite (excludeDiode h.updTherm) h.updTherm
  have hw : Steady s w := ite (report hf.updTherm) (ite hf.updTherm hf)
  have hx : Steady s x := ite (report hw.updTherm) hw
  exact hx.trip.ite hx
theorem decideStep : Steady s t.decideStep := by
  unfold State.decideStep
  extract_lets +onlyGivenNames x tooHigh a since hi th b
  have ha : Steady s a := ite (report h.updTherm) h
  have hb : Steady s b := ite ha.updTherm ha
  clear_value b
  exact (hb.updTherm.ite hb.updTherm).ite (hb.updTherm.ite (hb.updTherm.ite hb.updTherm))
theorem latchPower : Steady s t.latchPower := h.ite h.updTherm
theorem stepEffect : Steady s t.stepEffect := h.ite h.updTherm
theorem evalPhase : Steady s t.evalPhase := by
  refine h.updTherm.ite (h.evaluate.ite ?_)
  exact updTherm (ite h.evaluate h.evaluate.decideStep)
theorem midStrobe {k i} : Steady s (t.midStrobe k i) := by
  unfold State.midStrobe
  extract_lets +onlyGivenNames a b th c
  have ha : Steady s a := h.takeTelem
  have hb : Steady s b := ha.evaluate
  have hc : Steady s c := ite hb.updTherm hb
  exact ha.ite (hb.ite (hc.decideStep.ite hc))
theorem decideNow : Steady s t.decideNow := by
  unfold State.decideNow
  extract_lets +onlyGivenNames a fast th b c
  have hc : Steady s c := latchPower (updTherm h.decideStep)
  exact hc.ite (pfVector hc.updTherm)
theorem evalSelf : Steady s t.evalSelf := h.ite (h.evaluate.ite h.evaluate.decideNow)

end

end Steady
end Sys2Proof.Machine

namespace Sys2Proof.Machine

set_option Elab.async false

/-! ### One more recursion, one level at a time -/

/-- The recursion of `saveSteps` with the saving of one step as a parameter. -/
def saveStepsWith (save : State → Nat → StepRec → Option (List OpRec × State)) (d : Nat) :
    List StepRec → List OpRec → State → Option (List OpRec × State)
  | [], ops, s => some (ops, s)
  | t :: r, ops, s => match save s d t with
    | none => none
    | some (o, s) => saveStepsWith save d r (ops ++ o) s

theorem Steady.saveStepsWith {s t : State} (h : Steady s t) {save}
    (hsave : ∀ u d a x, Steady s u → save u d a = some x → Steady s x.2) {d l ops x}
    (e : saveStepsWith save d l ops t = some x) : Steady s x.2 := by
  induction l generalizing ops t with
  | nil => cases e; exact h
  | cons a r ih =>
    unfold Machine.saveStepsWith at e
    split at e
    · cases e
    next hp => exact ih (hsave _ _ _ _ h hp) e

theorem saveSteps_eq : saveSteps = saveStepsWith State.saveStep := by
  delta saveSteps saveStepsWith; rfl

namespace Steady

section
variable {s t : State} (h : Steady s t)
include h
/-! ### Felt links and the torus -/

theorem retable : Steady s t.retable := h.updTorus
theorem propose {b l} : Steady s (t.propose b l) := h.ite h.updTorus
theorem proposeLink {p b} : Steady s (t.proposeLink p b) := h.propose
theorem takeProposal {q} : Steady s (t.takeProposal q) := h.ite h.updTorus
theorem execMembershipProposal {p a b c l} : NextIs (execMembershipProposal p a b c l t) (Steady s) :=
  next (h.ite h.takeProposal)
theorem requestLeave : Steady s t.requestLeave := h.propose
theorem sendFrame {q f} : Steady s (t.sendFrame q f) := h.modPort
theorem signal {l c} : Steady s (t.signal l c) := h.foldl fun _ _ h => h.sendFrame
theorem stepUnreachable {d i o} : Steady s (t.stepUnreachable d i o) := by
  unfold State.stepUnreachable
  split
  · exact h
  · exact h.report
theorem failCross {o} : Steady s (t.failCross o) := h.foldl fun _ _ h => h.stepUnreachable
theorem failRing {d o} : Steady s (t.failRing d o) := h.ite h.report
theorem lostNodes {l o} : Steady s (t.lostNodes l o) := by
  unfold State.lostNodes
  extract_lets +onlyGivenNames u hit
  have hu : Steady s u := h.foldl fun _ _ h => h.failRing.ite h
  exact hu.foldl fun _ _ h => h.stepUnreachable
theorem tellUnreachable {d} : Steady s (t.tellUnreachable d) := h.toDeckle.raiseVector
theorem withdrawTorus {e p o} : Steady s (t.withdrawTorus e p o) := by
  unfold State.withdrawTorus
  extract_lets +onlyGivenNames torus a b told c d
  have ha : Steady s a := h.updTorus
  have hc : Steady s c := ha.report.signal.foldl fun _ _ h => h.tellUnreachable
  have hd : Steady s d := hc.foldl fun _ _ h => h.failRing
  exact hd.failCross
theorem applyMembership {n} : Steady s (t.applyMembership n) := by
  unfold State.applyMembership
  extract_lets +onlyGivenNames due torus u
  have hu : Steady s u := h.updTorus
  clear_value u
  exact hu.ite hu.updTorus.retable.lostNodes
theorem endLink {p d} : Steady s (t.endLink p d) := h.modPort.proposeLink.ite h.modPort
theorem portFail {p} : Steady s (t.portFail p) := h.report.endLink
theorem mapOut {p l} : Steady s (t.mapOut p l) := h.ite (h.modPort.report.portFail.ite h.modPort.report)
theorem writePortEn {p b} : Steady s (t.writePortEn p b) := (h.ite h.modPort).ite h.endLink.modPort
theorem linkHello {p n x} (e : t.linkHello p n = x) : Steady s x.2 := by
  subst e
  unfold State.linkHello
  dsimp only
  exact modPort (sign h.draw.draw rfl)
theorem linkKeys {p e n} : Steady s (t.linkKeys p e n) := h.modPort
theorem linkSession {p n} : Steady s (t.linkSession p n) := by
  refine h.ite (h.keyGenFailed.ite ?_)
  split
  next e u hu =>
    have hu : Steady s u := h.linkHello hu
    split
    · exact hu.report.modPort
    · exact hu.linkKeys.modPort.proposeLink.ite hu.linkKeys.modPort
theorem rekeyFail {p} : Steady s (t.rekeyFail p) := h.ite h.report.endLink
theorem execRekeyDue {p n} : NextIs (execRekeyDue p n t) (Steady s) := by
  refine next (h.ite (h.rekeyFail.ite ?_))
  split
  next hu => exact (h.linkHello hu).linkKeys
theorem writeDrain {p m} : Steady s (t.writeDrain p m) := h.ite (h.corrected.ite h.modPort)
theorem sendTransfer {a d n l} : Steady s (t.sendTransfer a d n l) := by
  unfold State.sendTransfer
  split
  · exact h
  · exact h.foldl fun _ _ h => h.sendFrame
theorem sendRefusal {f} : Steady s (t.sendRefusal f) := by
  unfold State.sendRefusal
  split
  · exact h
  · exact h.sendFrame
theorem deliver {p f} : Steady s (t.deliver p f) := by
  unfold State.deliver
  extract_lets +onlyGivenNames key none_ first typ x data op v ok sched u named w next
  have hu : Steady s u := h.updSched.ite h
  have hw : Steady s w := hu.report.sendRefusal.ite hu
  exact hw.modPort
theorem forward {p f} : Steady s (t.forward p f) := by
  refine h.ite ?_
  split
  · exact h
  · exact h.modPort.sendFrame
theorem takeSymbols {p l} : Steady s (t.takeSymbols p l) := h.foldl fun _ _ h => h.modPort.mapOut.ite h.modPort
theorem takeAck {p a b} : Steady s (t.takeAck p a b) := h.modPort
theorem linkControl {p b} : Steady s (t.linkControl p b) := by
  unfold State.linkControl
  extract_lets
  split
  · exact h.propose.ite h
  · exact h.ite h.propose
  · exact h
theorem frameIn {p f} : Steady s (t.frameIn p f) := by
  have sym : Steady s (t.takeSymbols p f.errs) := h.takeSymbols
  have ack := (sym.modPort (p := p) (f := fun x => { x with rxSeq := x.rxSeq + 1, rxFrames := (x.rxFrames + 1) % 2 ^ 64 })).takeAck
    (p := p) (a := f.ack) (b := f.replay)
  exact h.ite (h.modPort.ite ((sym.modPort.report.endLink.ite sym.modPort).ite
    (sym.ite (ack.ite ((ack.linkControl.ite ack).ite ((ack.deliver.ite ack).ite ack.forward))))))
theorem sendTimes : Steady s t.sendTimes := h.foldl fun _ _ h => h.modPort
theorem timeFrame {p f} : Steady s (t.timeFrame p f) := by
  unfold State.timeFrame
  extract_lets +onlyGivenNames x digest worse tm a torus b back c
  have ha : Steady s a := h.modPort
  have hb : Steady s b := ha.updTorus.ite ha
  have hc : Steady s c := hb.propose.ite hb
  exact h.ite (hc.withdrawTorus.ite hc)
theorem execTimeFrameMissing {p} : NextIs (execTimeFrameMissing p t) (Steady s) := next (h.ite h.propose)
theorem slipTick : Steady s t.slipTick := h.ite h.updTorus
theorem execAlignLost : NextIs (execAlignLost t) (Steady s) := next (h.withdrawTorus.ite h)
theorem execAutoRejoin {p} : NextIs (execAutoRejoin p t) (Steady s) := next (ite (signal h.updTorus) h)
theorem execFirstAlignedStrobe {p l m} : NextIs (execFirstAlignedStrobe p l m t) (Steady s) :=
  next (ite (retable h.upd) h)

/-! ### Switches of images and the moving of groups -/

theorem reamChanged {i f} : Steady s (t.reamChanged i f) := by
  unfold State.reamChanged
  extract_lets +onlyGivenNames hitW a hitA b
  have ha : Steady s a := h.endWaiting.ite h
  have hb : Steady s b := ha.endActive.ite ha
  exact hb.startWaiting.ite hb
theorem quireGone {i o} : Steady s (t.quireGone i o) := h.endActive.startWaiting
theorem setLayout {v p} : Steady s (t.setLayout v p) := by
  refine ite ?_ h.modVat
  split
  · exact h
  · exact h.modVat
theorem takeBack {v l} : Steady s (t.takeBack v l) := by
  unfold State.takeBack
  split
  · exact h
  · exact h.modGroup
theorem emptySlotGroups {k} : Steady s (t.emptySlotGroups k) := by
  unfold State.emptySlotGroups
  extract_lets +onlyGivenNames gs a b
  have ha : Steady s a := by
    refine h.foldl fun _ _ h => ?_
    split
    · exact h.takeBack
    · exact h
  have hb : Steady s b := ha.foldl fun _ _ h => h.modGroup
  exact hb.foldl fun _ _ h => h.setLayout
theorem execSwitch {r} : NextIs (execSwitch r t) (Steady s) :=
  next (h.withDesc fun _ => h.reamRefused.ite (h.modSlot.ite h.reamRefused))
theorem pinDrains {k g} : Steady s (t.pinDrains k g).2 := h.foldl fun _ _ h => h.modSession
theorem switchEffect {k} : Steady s (t.switchEffect k) := by
  unfold State.switchEffect
  extract_lets x old
  clear_value old
  split
  next op m _ _ =>
    refine h.ite (h.modSlot.reamRefused.ite ?_)
    split
    next u hpin =>
      have hu : Steady s u := by
        cases old with
        | none => cases hpin; exact h
        | some i =>
          have hu : (t.pinDrains k i.gen).2 = u := congrArg Prod.snd hpin
          exact hu ▸ h.pinDrains
      exact hu.modSlot.pfStatus.ite hu.modSlot
  · exact h
theorem execUnload {r} : NextIs (execUnload r t) (Steady s) := next (h.withDesc fun _ => h.reamRefused.ite h.modSlot)
theorem unloadEffect {k} : Steady s (t.unloadEffect k) := by
  unfold State.unloadEffect
  extract_lets x
  split
  · exact h
  · exact h.ite (release (h.modSlot.foldl fun _ _ h => h.reamChanged)).emptySlotGroups.pfStatus
theorem slotEffects : Steady s t.slotEffects := h.foldl fun _ _ h => h.switchEffect.unloadEffect
theorem freeRetiring {k} : Steady s (t.freeRetiring k) := by
  unfold State.freeRetiring
  split
  · exact h
  · exact h.release.modSlot
theorem expireDrain {k d} : Steady s (t.expireDrain k d) :=
  ite (modSlot (h.foldl fun _ _ h => h.reamChanged)) h
theorem slotBoundary : Steady s t.slotBoundary := by
  refine h.foldl fun u k h => ?_
  extract_lets +onlyGivenNames a b x c y busy
  have hb : Steady s b := modSlot (h.foldl fun _ _ h => h.expireDrain)
  have hc : Steady s c := hb.freeRetiring.modSlot.ite hb
  exact hc.modSlot.ite (hc.freeRetiring.ite hc)
theorem writeGroup {k m v l} : Steady s (t.writeGroup k m v l) := by
  unfold State.writeGroup
  split
  · exact h
  · exact h.modGroup
theorem writeImage {k m} : Steady s (t.writeImage k m) :=
  (h.emptySlotGroups.foldl fun _ _ h => h.writeGroup).foldl fun _ _ h => h.setLayout
theorem execRewriteComplete {k l} : NextIs (execRewriteComplete k l t) (Steady s) := by
  unfold Machine.execRewriteComplete
  extract_lets k x
  refine next ?_
  split
  · exact h
  · refine h.ite ?_
    extract_lets +onlyGivenNames a b c moved d
    have ha : Steady s a := h.emptySlotGroups.ite h.writeImage
    have hc : Steady s c := modSlot (ha.foldl fun _ _ h => h.verifyGroup)
    have hd : Steady s d := by
      unfold d
      split
      · exact hc.pfStatus.ite hc
      · exact hc
    exact hd.ite hd.freeRetiring.modSlot
theorem execDiscard {r} : NextIs (execDiscard r t) (Steady s) := by
  refine next (h.withDesc fun b => ?_)
  extract_lets k x
  split
  · exact h.failLoad.pfStatus.ite h.reamRefused
  · split
    · exact h.release.modSlot.pfStatus
    · exact h.pfStatus
theorem execStuckExport {r} : NextIs (execStuckExport r t) (Steady s) :=
  next (h.withDesc fun _ => h.reamRefused.ite (h.ite (pfStatus (h.post.foldl fun _ _ h => h.modGroup))))
theorem moveGroup {v p u} (e : t.moveGroup v p = some u) : Steady s u := by
  unfold State.moveGroup at e
  split at e
  · cases e
  · obtain ⟨q, -, rfl⟩ := Option.map_eq_some_iff.1 e
    exact modSlot (ite h.takeOver.modGroup h.takeOver)
theorem moveGroups {v l u} (e : moveGroups v l t = some u) : Steady s u := by
  induction l generalizing t with
  | nil => cases e; exact h
  | cons p r ih =>
    obtain ⟨w, hw, hu⟩ := Option.bind_eq_some_iff.1 e
    exact ih (h.moveGroup hw) hu
theorem unplace {k o} : Steady s (t.unplace k o) := ite h.modSlot.report (h.modSlot.foldl fun _ _ h => h.report)
theorem replaceVat {v o} : Steady s (t.replaceVat v o) := by
  refine ite (h.foldl fun _ _ h => ?_) (ite (h.ite (h.corrected.ite (h.foldl fun _ _ h => h.modGroup.modSlot))) h)
  extract_lets l
  refine h.ite ?_
  split
  next hm => exact h.moveGroups hm
  · exact h.unplace

/-! ### Vat pages -/

theorem requestRun {v} : Steady s (t.requestRun v) := h.ite (h.corrected.ite ((h.modVat.ite h.modVat).ite h))
theorem requestDrain {v} : Steady s (t.requestDrain v) := h.ite (h.corrected.ite (h.modVat.ite h))
theorem requestService {v} : Steady s (t.requestService v) :=
  h.ite (h.corrected.ite (h.modVat.ite (h.modVat.ite h)))
theorem vatBoundary : Steady s t.vatBoundary := h.foldl fun _ _ h => h.modVat.ite (h.modVat.ite h)
theorem showGroups : Steady s t.showGroups := foldl h.updGroupShown fun _ _ h => h.ite h.modVat
theorem writeRefEn {v b} : Steady s (t.writeRefEn v b) := h.setWwr.ite (h.modVat.ite h.modVat)
theorem execRefbufReady {v l} : NextIs (execRefbufReady v l t) (Steady s) :=
  next (ite (h.modVat.foldl fun _ _ h => h.modGroup.modVat.route) h)
theorem accessCorr {v x} : Steady s (t.accessCorr v x) := by
  refine h.corrected.ite ?_
  split
  · exact h
  · exact h.ite (h.modGroup.ite h.modGroup)
theorem accessScr {v x} : Steady s (t.accessScr v x) := by
  unfold State.accessScr
  extract_lets +onlyGivenNames a u
  have hu : Steady s u := by
    unfold u
    split
    · exact h.writeNum.ite h
    · exact h
  exact hu.modVat
theorem writeHistSel {w} : Steady s (t.writeHistSel w) := by
  unfold State.writeHistSel
  extract_lets +onlyGivenNames v p same u
  have hu : Steady s u := h.setReg.setReg.setReg
  exact hu.ite (hu.updHistSnap.ite hu.updHistSnap)
theorem readHist : Steady s t.readHist := h.setReg
theorem execRetirePage {a b} : NextIs (execRetirePage a b t) (Steady s) := next (h.corrected.ite h.retirePageAt)
theorem execUnretire {a b} : NextIs (execUnretire a b t) (Steady s) := next (h.corrected.ite h.updPageOut)

/-! ### Calibration of converters and margins -/

theorem setPlan {v p q} : Steady s (t.setPlan v p q) := by
  unfold State.setPlan
  extract_lets +onlyGivenNames g a b
  refine h.modGroup.ite ?_
  have hb : Steady s b := h.modGroup.report
  refine hb.ite ?_
  split
  · exact hb.takeOver
  · exact hb
theorem planBoundary : Steady s t.planBoundary := by
  refine h.foldl fun _ _ h => ?_
  split
  · exact h.setPlan
  · exact h
theorem startReplan {v p} : Steady s (t.startReplan v p) := h.ite h.modGroup
theorem replanVat {v} : Steady s (t.replanVat v) := h.forAll fun _ _ h => h.startReplan
theorem requestReplan {b v} : Steady s (t.requestReplan b v) := (h.forAll fun _ _ h => h.replanVat).ite h.replanVat
theorem execPeriodicReplan : NextIs (execPeriodicReplan t) (Steady s) := next (h.forAll fun _ _ h => h.replanVat)
theorem endCandidate {v p} : Steady s (t.endCandidate v p) := by
  unfold State.endCandidate
  split
  · exact h
  · extract_lets cand lows found left u
    refine h.modGroup.ite ?_
    split
    · exact h.modGroup.modGroup
    · exact h.modGroup.report.retireGroup
theorem calFailures {v p b l} : Steady s (t.calFailures v p b l) :=
  foldl (h.report.makeDue.ite h) fun _ _ h => h.report.makeDue
theorem takeMargins {v p l n} : Steady s (t.takeMargins v p l n) := by
  unfold State.takeMargins
  split
  · exact h
  · extract_lets +onlyGivenNames a b c
    have ha : Steady s a := h.modGroup
    have hb : Steady s b := ha.modGroup.report.startReplan.ite ha
    exact hb.report.modGroup.makeDue.ite hb
theorem takeBlock {v b} : Steady s (t.takeBlock v b) := by
  unfold State.takeBlock
  extract_lets +onlyGivenNames p g pats cells codes r a c
  have ha : Steady s a := h.modGroup.calFailures
  have hc : Steady s c := by
    unfold c
    split
    · exact ha.modGroup.ite ha
    · exact ha
  exact h.ite (hc.takeMargins.ite hc)
theorem execCalibrationWindow {v l} : NextIs (execCalibrationWindow v l t) (Steady s) :=
  next (h.ite (h.corrected.ite (h.foldl fun _ _ h => h.takeBlock)))
theorem execMarginWindowEnd : NextIs (execMarginWindowEnd t) (Steady s) := next (h.foldl fun _ _ h => h.modGroup)
theorem suspectConv {v p i} : Steady s (t.suspectConv v p i) := h.modGroup.report.makeDue
theorem convDone {v p i m} : Steady s (t.convDone v p i m) := by
  refine h.ite ?_
  split
  · exact h.modGroup.modGroup
  · exact h.modGroup.suspectConv
theorem correctStep : Steady s t.correctStep := h.ite (h.foldl fun _ _ h => h.modGroup)
theorem execFallbackStart {v} : NextIs (execFallbackStart v t) (Steady s) := by
  refine next (h.ite (h.corrected.ite ?_))
  split
  · exact h
  · exact h.modGroup
theorem reportSuspects {v p l} : Steady s (t.reportSuspects v p l) := h.foldl fun _ _ h => h.report
theorem endFall {v p l m} : Steady s (t.endFall v p l m) := by
  unfold State.endFall
  extract_lets +onlyGivenNames r x a
  have ha : Steady s a := h.modGroup.reportSuspects
  split
  · exact ha.modGroup.calFailures.modGroup
  · exact ha.report.retireGroup
theorem execFallbackEnd {v l m} : NextIs (execFallbackEnd v l m t) (Steady s) := by
  refine next ?_
  split
  · exact h
  · exact h.ite h.endFall
theorem initCalOne {v} : Steady s (t.initCalOne v) := h.ite (h.corrected.ite h.modVat)
theorem requestInit {m} : Steady s (t.requestInit m) := by
  unfold State.requestInit
  extract_lets u
  have hu : Steady s u := h.forAll fun _ _ h => h.initCalOne
  exact hu.report.ite hu
theorem initRecords {v p x} : Steady s (t.initRecords v p x) := by
  unfold State.initRecords
  extract_lets +onlyGivenNames a b
  have ha : Steady s a := by
    unfold a
    split
    · exact h.suspectConv
    · exact h.reportSuspects
  exact ha.ite (ha.calFailures.ite ha.calFailures.makeDue)
theorem initVat {v l} : Steady s (t.initVat v l).1 := by
  unfold State.initVat
  extract_lets +onlyGivenNames live res pass ranked serve slow a b c
  have ha : Steady s a := by
    refine h.foldl fun _ _ h => h.ite ?_
    split
    · exact h.modGroup
    · split
      · exact h.modGroup
      · exact h.modGroup
  have hb : Steady s b := ha.foldl fun _ _ h => h.initRecords
  exact hb.modVat
theorem refill {v l} : Steady s (t.refill v l) := by
  unfold State.refill
  extract_lets found
  refine h.foldl fun _ _ h => ?_
  split
  · exact h
  · refine h.ite (h.foldl fun _ _ h => ?_)
    extract_lets u
    have hu : Steady s u := h.writeGroup
    split
    · exact hu.verifyGroup.ite hu
    · exact hu
theorem execInitCalDone {v l} : NextIs (execInitCalDone v l t) (Steady s) :=
  next (h.ite (h.initVat.modVat.refill.ite h.initVat.modVat.report))
theorem ageStrobe : Steady s t.ageStrobe :=
  (h.foldl fun _ _ h => h.ite h.modVat).foldl fun _ _ h => h.startReplan.ite h
theorem beginRecord : Steady s t.beginRecord := by
  unfold State.beginRecord
  split
  · exact h
  · exact h.ite h.updUpd
theorem wantRecord {c} : Steady s (t.wantRecord c) := h.updUpd.beginRecord
theorem requestShut : Steady s t.requestShut := h.setWwr.ite h.wantRecord
theorem recordDone {b} : Steady s (t.recordDone b) := by
  unfold State.recordDone
  split
  · exact h
  · exact beginRecord (ite h.updUpd (report h.updUpd))

/-! ### The test engine, sequencer faults -/

theorem startStress : Steady s t.startStress := ite (report h.updTest) h.updTest
theorem testTaken : Steady s t.testTaken := h.setReg
theorem execStart : NextIs (execStart t) (Steady s) := next (h.ite h.testTaken.startStress)
theorem abortStress {c} : Steady s (t.abortStress c) := h.updTest.ite h
theorem execAbort : NextIs (execAbort t) (Steady s) := next (h.ite h.testTaken.abortStress)
theorem stressCheck : Steady s t.stressCheck := h.abortStress.ite (h.abortStress.ite (h.abortStress.ite h))
theorem takeResults {l} : Steady s (t.takeResults l) := h.foldl fun _ _ h => report (ite h.updTest h.updTest)
theorem stressDone {l} : Steady s (t.stressDone l) := by
  unfold State.stressDone
  extract_lets +onlyGivenNames v res a r b c test d
  have hr : Steady s r.1 := initVat (h.foldl fun _ _ h => h.modGroup)
  have hb : Steady s b := hr.foldl fun _ _ h => h.ite h.suspectConv
  have hc : Steady s c := hb.report.retireVat.ite (hb.report.ite hb)
  have hd : Steady s d := hc.updTest
  exact hd.report.ite hd
theorem stressNext {l m} : Steady s (t.stressNext l m) := by
  unfold State.stressNext
  extract_lets go u
  have hgo {p u} (hu : Steady s u) : Steady s (go p u) := hu.updTest
  split
  · exact h
  · exact h
  · exact hgo h
  · exact hgo h
  · exact hgo h.takeResults
  · have hu : Steady s u := hgo (h.takeResults.ite h)
    exact hu.report.ite hu
  · exact h.stressDone
theorem count {u} : Steady s (t.count u) := h.updErrs
theorem routerFault {p} : Steady s (t.routerFault p) := ite h.count.portFail h.count
theorem seqFault {b} : Steady s (t.seqFault b) := by
  unfold State.seqFault
  split
  extract_lets +onlyGivenNames a c d
  have ha : Steady s a := h.report
  have hc : Steady s c := ha.loseOps
  have hd : Steady s d := by
    unfold d
    split
    · exact hc.routerFault
    · exact hc.abortStress
    · exact hc
  exact ha.ite (hd.ite hd.updReloads)
theorem reloadsEnd : Steady s t.reloadsEnd := h.updReloads
theorem reloadDone {b o} : Steady s (t.reloadDone b o) := by
  refine h.ite (ite (h.ite h.updReloads) ?_)
  split
  exact h.report
theorem sendEvent : Steady s t.sendEvent := by
  unfold State.sendEvent
  split
  · exact h
  · exact h.updErrs.ite h

/-! ### The scheduler -/

theorem putStep {a} : Steady s (t.putStep a) := h.modDeckle
theorem saveStep {d a x} (e : t.saveStep d a = some x) : Steady s x.2 := by
  delta State.saveStep at e
  generalize htake : Machine.takePages = take at e
  split at e
  · cases e
  next hp =>
    cases e
    exact (h.takePages (htake ▸ hp)).modSession.releaseTiles.modStep
theorem saveSteps {d l ops x} (e : saveSteps d l ops t = some x) : Steady s x.2 := by
  rw [saveSteps_eq] at e
  exact h.saveStepsWith (fun _ _ _ _ h e => h.saveStep e) e
theorem bindOrSave {d p n l x} (e : t.bindOrSave d p n l = x) : Steady s x.2 := by
  subst e
  unfold State.bindOrSave
  split
  · exact h
  · split
    next hroom =>
      have hu := h.makeRoom hroom
      split
      · exact hu
      next hsave =>
        have hv := hu.saveSteps hsave
        split
        · exact hu
        · exact hv.updSched
    next hroom => exact h.makeRoom hroom
theorem enterOp {o} : Steady s (t.enterOp o) := updSched h.modDeckle
theorem enterSegment {a p g l n w m} : Steady s (t.enterSegment a p g l n w m) :=
  (h.foldl fun _ _ h => h.enterOp).foldl fun _ _ h => h.enterOp
theorem bindStep {a p x} (e : t.bindStep a p = x) : Steady s x.2 := by
  unfold State.bindStep at e
  split at e
  · split at e
    next hbind =>
      subst e
      have hu := h.bindOrSave hbind
      exact hu
    · exact h.bindOrSave e
  · split at e
    · exact h.bindOrSave e
    · subst e; exact h
theorem failIssue {a e o} : Steady s (t.failIssue a e o) := h.report
theorem issueSeg {a n l x} (e : t.issueSeg a n l = x) : Steady s x.2 := by
  subst e
  unfold State.issueSeg
  split
  · exact h
  split
  · exact h
  split
  · exact h
  split
  · exact h
  extract_lets +onlyGivenNames w start units need convs
  clear_value w start units need convs
  split
  · exact h
  split
  · exact h
  split
  · exact h.failIssue
  split
  · exact h
  split
  · exact h.failIssue
  split
  next hbind => exact h.bindStep hbind
  next hbind =>
    have hu := h.bindStep hbind
    extract_lets +onlyGivenNames extra
    split
    · exact h
    · exact hu.putStep.modDeckle.enterSegment
theorem dropUnbound {d l} : Steady s (t.dropUnbound d l) := h.foldl fun _ _ h => h.ite h.endActive.startWaiting
theorem tryStep {a n l} : Steady s (t.tryStep a n l) := by
  unfold State.tryStep
  split
  next hi => exact (h.issueSeg hi).modDeckle
  next hi => exact h.issueSeg hi
theorem formBatches {d n l k r} : Steady s (t.formBatches d n l k r) := by
  induction k generalizing r t with
  | zero => exact h
  | succ k ih =>
    unfold State.formBatches
    split
    · exact h
    · exact h
    next hk =>
      cases hk
      extract_lets +onlyGivenNames m
      split
      · exact ih h
      split
      · exact ih h
      split
      · exact ih h
      · exact ite (ih h) (ih h.tryStep)
theorem tryPrefill {d n l i} : Steady s (t.tryPrefill d n l i) := by
  unfold State.tryPrefill
  extract_lets +onlyGivenNames m
  split
  · exact h
  split
  · exact h
  split
  · exact h
  · exact h.ite h.tryStep
theorem reissueOp {o n l} : Steady s (t.reissueOp o n l) := by
  unfold State.reissueOp
  split
  · extract_lets +onlyGivenNames m
    split
    · exact h
    · exact h.ite (updSched h.modDeckle)
  · exact h
theorem runBegun {d n l} : Steady s (t.runBegun d n l) := by
  refine h.foldl fun _ _ h => ?_
  split
  · exact ite (h.issueSeg rfl) h
  · exact h
theorem tryServe {d n l i} : Steady s (t.tryServe d n l i) := by
  unfold State.tryServe
  extract_lets +onlyGivenNames m
  split
  · exact h
  · exact h.ite h.tryStep
theorem runReady {d n l} : Steady s (t.runReady d n l) := by
  unfold State.runReady
  extract_lets +onlyGivenNames a b dec c dec' held e dec'' f g pre i
  have hb : Steady s b := runBegun (h.foldl fun _ _ h => h.reissueOp)
  have hc : Steady s c := hb.dropUnbound
  have he : Steady s e := hc.modDeckle.ite hc
  have hf : Steady s f := he.formBatches
  have hg : Steady s g := hf.foldl fun _ _ h => h.tryServe
  have hi : Steady s i := hg.dropUnbound
  exact hi.foldl fun _ _ h => h.tryPrefill
theorem offer {f l n} (hf : ∀ u e, Steady s u → Steady s (f u e)) : Steady s (t.offer f l n) :=
  h.ite (h.foldl fun _ _ h => (hf _ _ h).ite h)
theorem issueNext {a n l} : Steady s (t.issueNext a n l) := by
  induction l generalizing t with
  | nil => exact h
  | cons m r ih =>
    unfold State.issueNext
    split
    next hi => exact h.issueSeg hi
    next hi => exact ih (h.issueSeg hi)
theorem noFitEnd {d i} : Steady s (t.noFitEnd d i) := by
  unfold State.noFitEnd
  split
  · exact h.modSession.reject
  · exact startWaiting (updRejects h.corrected.endActive)
theorem serveSwaps {d} : Steady s (t.serveSwaps d) := by
  unfold State.serveSwaps
  extract_lets +onlyGivenNames a want b
  have ha : Steady s a := h.foldl fun _ _ h => h.tryOpen.ite h
  have hb : Steady s b := by
    refine ha.foldl fun u i h => ?_
    have hin {x} (e : u.beginSwapIn i = x) : Steady s x.2 := e ▸ h.beginSwapIn
    split
    next hs => exact (hin hs).noFitEnd
    next hs => exact hin hs
  exact hb.swapsOf
theorem watermarkRecal : Steady s t.watermarkRecal := h.foldl fun _ _ h => h.modGroup
theorem allocate : Steady s t.allocate := by
  refine h.ite ?_
  extract_lets +onlyGivenNames tick a sched b c d open_ e f
  have ha : Steady s a := h.updTick
  have hb : Steady s b := ha.updSched
  have hd : Steady s d := hb.watermarkRecal.foldl fun _ _ h => h.modDeckle
  have he : Steady s e := hd.foldl fun _ _ h => h.serveSwaps
  have hf : Steady s f := he.foldl fun _ _ h => h.runReady
  exact he.ite (hf.foldl fun _ _ h => h.offer fun _ _ h => h.runReady)

/-! ### The ends of operations, steps and segments -/

theorem modOp {d n f} : Steady s (t.modOp d n f) := h.updSched
theorem endMember {a i n} : Steady s (t.endMember a i n) := by
  unfold State.endMember
  split
  · exact h
  · exact h.ite (h.publish.modSession.ite h.publish.modSession.endActive.startWaiting)
theorem endStep {a} : Steady s (t.endStep a) := h.modDeckle.releaseTiles
theorem endChunk {a n} : Steady s (t.endChunk a n) := by
  unfold State.endChunk
  extract_lets +onlyGivenNames u i
  have hu : Steady s u := h.endStep
  split
  · exact hu
  · exact hu.publish.modSession.ite hu.publish.modSession.endActive.startWaiting
theorem endBatch {a n} : Steady s (t.endBatch a n) := by
  unfold State.endBatch
  extract_lets +onlyGivenNames u l v
  have hu : Steady s u := h.endStep.foldl fun _ _ h => h.endMember
  have hv : Steady s v := hu.dropUnbound
  exact hv.ite hv.putStep.issueNext
theorem endServe {a} : Steady s (t.endServe a) := h.endStep.ite h.endStep.modSession
theorem ringSkip {i} : Steady s (t.ringSkip i) := h.ite h.endChunk
theorem endSegment {d i n l} : Steady s (t.endSegment d i n l) := by
  unfold State.endSegment
  split
  · exact h
  · extract_lets +onlyGivenNames a u k v
    have hu : Steady s u := h.putStep
    have hv : Steady s v := hu.issueNext.ite (hu.endChunk.ite (hu.endServe.ite hu.endBatch))
    exact hv.offer fun _ _ h => h.runBegun
theorem endOp {o n} : Steady s (t.endOp o n) := by
  unfold State.endOp
  extract_lets +onlyGivenNames u
  have hu : Steady s u := h.modOp
  split
  · exact hu
  · exact ite hu.releaseTiles.putStep.endSegment hu.releaseTiles.putStep
theorem dropStaged {o} : Steady s (t.dropStaged o) := by
  unfold State.dropStaged
  split
  · exact h
  · exact h.updSched
theorem abandon {o n} : Steady s (t.abandon o n) := h.modOp.dropStaged
theorem failOp {o r l n} : Steady s (t.failOp o r l n) := h.modOp.dropStaged.report
theorem badPage {k} : Steady s (t.badPage k) := ite h.memCount (updPageOut h.memCount)
theorem opFault {o f n u} (e : t.opFault o f n = some u) : Steady s u := by
  unfold State.opFault at e
  extract_lets +onlyGivenNames all fail at e
  have hfail {v r l} (hv : Steady s v) (e : fail v r l = some u) : Steady s u := by
    cases e; exact hv.failOp
  split at e
  · cases e
  · cases e
  · exact hfail h.modVat e
  · split at e
    · exact hfail h e
    · cases e
  · split at e
    · exact hfail h e
    · cases e
  · exact hfail h.badPage e
  · cases e
  · exact hfail h.badPage e
  · exact hfail h e
  · exact hfail h e
  · exact hfail h e
  · exact hfail h e
  · cases e
theorem softFault {f} : Steady s (t.softFault f) := by
  unfold State.softFault
  split
  · exact h.modVat.report
  · exact h.memCount.report
  · exact h
theorem runWith {r ty f fin} (hf : ∀ u o a m x, Steady s u → f u o a m = .ok x → Steady s x)
    (hfin : ∀ u o n, Steady s u → Steady s (fin u o n)) : Steady s (t.runWith r ty f fin) := by
  unfold State.runWith
  split
  · exact h
  split
  · refine h.ite (h.failOp.ite (h.failOp.ite ?_))
    split
    · exact h.failOp
    · split
      next hfault => exact h.opFault hfault
      · extract_lets u
        have hu : Steady s u := h.softFault
        split
        next hok => exact hfin _ _ _ (hf _ _ _ _ _ hu hok)
        · exact hu.failOp
  · exact h
theorem runOp {r ty f} (hf : ∀ u o a m x, Steady s u → f u o a m = .ok x → Steady s x) : Steady s (t.runOp r ty f) :=
  h.runWith hf fun _ _ _ h => h.endOp
theorem overrun {d n} : Steady s (t.overrun d n) := by
  unfold State.overrun
  split
  · exact h
  · refine h.ite (h.abandon.ite ?_)
    split
    · exact h.failOp
    · extract_lets +onlyGivenNames k u v tick w x
      have hu : Steady s u := h.abandon
      have hw : Steady s w := ite (updTick hu.modVat) hu
      have hx : Steady s x := hw.modDeckle
      exact hx.ite hx.failOp

/-! ### Passes of the arrays -/

theorem storePairs {a m v l} : Steady s (t.storePairs a m v l) := by
  unfold State.storePairs
  split
  · exact h.writeMem
  · exact h
theorem countPass {d v b} : Steady s (t.countPass d v b).2 := h.modDeckle
theorem evalPasses {a fs l ps} : Steady s (evalPasses a fs l ps t).2 := by
  induction ps generalizing t with
  | nil => exact h
  | cons p r ih => exact ih h.countPass
theorem noteMiscount {v p} : Steady s (t.noteMiscount v p) := h.modVat.modGroup.report
theorem noteOverflow {v p c} : Steady s (t.noteOverflow v p c) := h.modVat.modGroup.report
theorem noteMismatch {v p} : Steady s (t.noteMismatch v p) := h.modVat.report.modGroup.makeDue
theorem notePass {a x} : Steady s (t.notePass a x) := by
  unfold State.notePass
  extract_lets +onlyGivenNames v q u w y
  have hw : Steady s w := h.modVat.foldl fun _ _ h => h.noteMiscount
  have hy : Steady s y := hw.foldl fun _ _ h => h.noteOverflow
  exact hy.noteMismatch.ite hy
theorem noteOp {a o ps l} : Steady s (t.noteOp a o ps l) := modVat (h.foldl fun _ _ h => h.notePass)
theorem storeSums {a m l} : Steady s (t.storeSums a m l) := h.foldl fun _ _ h => h.foldl fun _ _ h => h.storePairs
theorem holdD {a m l} : Steady s (t.holdD a m l) := h.modVat
theorem dropHeld {a m l} : Steady s (t.dropHeld a m l) := h.modVat
theorem passWork {fs l o a m x} (e : passWork fs l t o a m = .ok x) : Steady s x := by
  unfold Machine.passWork at e
  extract_lets +onlyGivenNames ps at e
  split at e
  · cases e
  · have hev {y} (e : Machine.evalPasses a fs l ps t = y) : Steady s y.2 := e ▸ h.evalPasses
    split at e
    next u heval =>
      have hu : Steady s u := hev heval
      split at e
      · cases e
      · cases e
        exact noteOp (ite hu.storeSums.dropHeld (ite hu.holdD hu.storeSums))
theorem execTileMvm {o fs l} : NextIs (execTileMvm o fs l t) (Steady s) :=
  next (h.runOp fun _ _ _ _ _ h e => h.passWork e)
theorem execResidual {o x} : NextIs (execResidual o x t) (Steady s) :=
  next (h.runOp fun _ _ _ _ _ h e => h.passWork e)

/-! ### Couching, and the parts of an image -/

theorem couchSend {k n l} : Steady s (t.couchSend k n l) := h.foldl fun _ _ h => h.sendTransfer
theorem couchOpen {k} : Steady s (t.couchOpen k) := by
  unfold State.couchOpen
  split
  · exact h
  split
  · exact h
  · exact h.failLoad.ite h.couchSend
theorem couchForward {k b f} : Steady s (t.couchForward k b f) := by
  unfold State.couchForward
  split
  · exact h
  split
  · exact h
  · exact h.failLoad.ite h.modSlot.couchSend
theorem execLoad {r c} : NextIs (execLoad r c t) (Steady s) := by
  refine next (h.withDesc fun b => ?_)
  split
  · exact h.reamRefused
  · generalize (if dChainAddr b = 0 then HostRead.data [] else c) = l
    cases l with
    | late => exact h
    | fail => exact h.reamRefused
    | data l => exact h.reamRefused.ite (h.reamRefused.ite h.startLoad.couchOpen)
theorem execCouchRecv {r} : NextIs (execCouchRecv r t) (Steady s) := by
  refine next (h.withDesc fun b => ?_)
  split
  · exact h.reamRefused
  · exact h.reamRefused.ite h.startLoad
theorem streamHead {k p g e c} : Steady s (t.streamHead k p g e c) := by
  unfold State.streamHead
  split
  · exact h.ite h.modSlot.couchOpen
  · exact h
theorem imagePart {k p} : Steady s (t.imagePart k p) := by
  unfold State.imagePart
  split
  · refine h.ite ?_
    extract_lets part u
    have hu : Steady s u := h.couchForward
    exact hu.ite hu.takePart
  · exact h
theorem execReamImageData {k p} : NextIs (execReamImageData k p t) (Steady s) := by
  refine next (h.ite ?_)
  split
  · extract_lets op
    refine h.ite ?_
    split
    · exact h
    · exact h.quireEnd
    · exact h.quireArrives
  · exact h.streamHead
  · exact h.imagePart

/-! ### The side unit's operations -/

theorem eachVec {f l x} (hf : ∀ u a v, Steady s u → f u a = .ok v → Steady s v) (e : eachVec f l t = .ok x) :
    Steady s x := by
  induction l generalizing t with
  | nil => cases e; exact h
  | cons a r ih =>
    unfold Machine.eachVec at e
    split at e
    next hok => exact ih (hf _ _ _ h hok) e
    · cases e
theorem sizeVec {o a m v x} (e : t.sizeVec o a m v = .ok x) : Steady s x := by
  unfold State.sizeVec at e
  extract_lets +onlyGivenNames pair bs bad ts outs low u macs at e
  have hu : Steady s u := by
    refine h.foldl fun _ _ h => ?_
    exact h.storePairs.writeMem.ite h.storePairs
  split at e
  · cases e
  split at e
  · cases e
  · cases e; exact hu.modVat
theorem execSizing {o} : NextIs (execSizing o t) (Steady s) :=
  next (h.runOp fun _ _ _ _ _ h e => h.eachVec (fun _ _ _ h e => h.sizeVec e) e)
theorem vectorVec {o a m v x} (e : t.vectorVec o a m v = .ok x) : Steady s x := by
  unfold State.vectorVec at e
  split at e
  · cases e
  · cases e; exact h.foldl fun _ _ h => h.writeMem
theorem execVector {o} : NextIs (execVector o t) (Steady s) :=
  next (h.runOp fun _ _ _ _ _ h e => h.eachVec (fun _ _ _ h e => h.vectorVec e) e)

/-! ### The KV unit's operations and the samplers -/

theorem appendOne {g kp l k p v x} : Steady s (t.appendOne g kp l k p v x) := by
  unfold State.appendOne
  extract_lets +onlyGivenNames b a u cs w
  have hu : Steady s u := h.writeNum.ite h
  have hw : Steady s w := hu.writeMem
  exact hw.updKvSat
theorem appendVec {o a m v x} (e : t.appendVec o a m v = .ok x) : Steady s x := by
  unfold State.appendVec at e
  extract_lets +onlyGivenNames g kp ks u w at e
  have hu : Steady s u := h.foldl fun _ _ h => h.appendOne.appendOne
  split at e
  · cases e
  split at e
  · cases e; exact h
  · cases e; exact hu.memCount.raiseWritten
theorem execKvAppend {o} : NextIs (execKvAppend o t) (Steady s) :=
  next (h.runOp fun _ _ _ _ _ h e => h.eachVec (fun _ _ _ h e => h.appendVec e) e)
theorem noteAttn {o m v} : Steady s (t.noteAttn o m v) := h.modVat.memCount
theorem attnWork {o a m x} (e : attnWork t o a m = .ok x) : Steady s x := by
  cases e
  exact h.modStep.foldl fun _ _ h => h.noteAttn
theorem execAttnBlock {o} : NextIs (execAttnBlock o t) (Steady s) := next (h.runOp fun _ _ _ _ _ h e => h.attnWork e)
theorem sampleVec {o m n v x} (e : t.sampleVec o m n v = .ok x) : Steady s x := by
  unfold State.sampleVec at e
  extract_lets +onlyGivenNames z at e
  split at e
  · cases e; exact h
  split at e
  · cases e; exact h.modStep
  split at e
  · cases e
  · cases e; exact h.modStep
theorem execSample {o} : NextIs (execSample o t) (Steady s) :=
  next (h.runOp fun _ _ _ _ _ h e => h.eachVec (fun _ _ _ h e => h.sampleVec e) e)

/-! ### Exchanges -/

theorem copyWork {a m} : Steady s (copyWork t a m) := h.foldl fun _ _ h => h.writeMem
theorem handOverWork {a m} : Steady s (handOverWork t a m) := by
  refine h.foldl fun _ _ h => ?_
  split
  · exact h.writeMem
  · exact h
theorem mergeWork {o a m} : Steady s (mergeWork t o a m) := by
  unfold Machine.mergeWork
  extract_lets +onlyGivenNames vs n outs got u w
  have hw : Steady s w := modStep (h.foldl fun _ _ h => h.writeMem)
  exact hw.ite hw.modVat
theorem logitsWork {o a m} : Steady s (logitsWork t o a m) := by
  refine h.foldl fun _ _ h => ?_
  split
  · exact h
  · exact h.ite (h.foldl fun _ _ h => h.post)
theorem sendWork {o a m k e} : Steady s (sendWork t o a m k e) := h.foldl fun _ _ h => h.sendTransfer
theorem recvWork {o a k n x} (e : recvWork t o a k n = .ok x) : Steady s x := by
  unfold Machine.recvWork at e
  extract_lets +onlyGivenNames node at e
  split at e
  · cases e
  · cases e
    split
    · exact h
    · exact h.sendFrame
theorem commitStaged {o} : Steady s (t.commitStaged o) := by
  unfold State.commitStaged
  split
  · exact h
  · exact dropStaged (h.foldl fun _ _ h => h.writeMem)
theorem setTile {f v p k n x} : Steady s (setTile f t v p k n x) := by
  unfold Machine.setTile
  extract_lets +onlyGivenNames found x u w y
  have hw : Steady s w := h.modGroup.makeDue.ite h.modGroup
  exact hw.ite hw.report.retireGroup
theorem setWork {f a l} : Steady s (setWork f t a l) := by
  unfold Machine.setWork
  split
  · exact h
  · refine h.foldl fun _ _ h => ?_
    split
    · split
      · exact h.setTile
      · exact h
    · exact h
theorem exchWork {f p o a m x} (e : exchWork f p t o a m = .ok x) : Steady s x := by
  unfold Machine.exchWork at e
  split at e
  · cases e
  split at e
  · cases e; exact h.copyWork
  · cases e; exact h.handOverWork
  · cases e; exact h.mergeWork
  · cases e; exact h.logitsWork
  · cases e; exact h.sendWork
  · exact h.recvWork e
  · obtain rfl := Except.ok.inj e; exact ite h.setWork h
theorem finishExchange {l o n} : Steady s (t.finishExchange l o n) :=
  endOp (ite h.commitStaged h.commitStaged.modStep)
theorem endExchange {p o n} : Steady s (endExchange p t o n) := h.modOp.ite h.finishExchange
theorem execExchange {o p} : NextIs (execExchange o p t) (Steady s) :=
  next (h.runWith (fun _ _ _ _ _ h e => h.exchWork e) fun _ _ _ h => h.endExchange)
theorem exchangeDone {d n k f} : Steady s (t.exchangeDone d n k f) := by
  unfold State.exchangeDone
  split
  · exact h
  · exact h.ite (h.failOp.ite (h.finishExchange.ite h.modOp))

/-! ### Saved contexts -/

theorem runCtx {r ty f fin} (hf : ∀ u o a x, Steady s u → f u o a = .ok x → Steady s x)
    (hfin : ∀ u o n, Steady s u → Steady s (fin u o n)) : Steady s (t.runCtx r ty f fin) := by
  unfold State.runCtx
  split
  · exact h
  split
  · exact h
  · refine h.ite (h.failOp.ite ?_)
    split
    next hfault => exact h.opFault hfault
    · extract_lets u
      have hu : Steady s u := h.softFault
      split
      next hok => exact hfin _ _ _ (hf _ _ _ _ hu hok)
      · exact hu.failOp
theorem saveWork {o a x} (e : saveWork t o a = .ok x) : Steady s x := by
  unfold Machine.saveWork at e
  extract_lets +onlyGivenNames pages u at e
  have hu : Steady s u := h.foldl fun _ _ h => h.writePaged.ite h
  cases e
  exact hu.writePaged
theorem endSave {o n} : Steady s (endSave t o n) := h.modOp.modStep
theorem execCtxSave {o} : NextIs (execCtxSave o t) (Steady s) :=
  next (h.runCtx (fun _ _ _ _ h e => h.saveWork e) fun _ _ _ h => h.endSave)
theorem restoreWork {n o a x} (e : restoreWork n t o a = .ok x) : Steady s x := by
  unfold Machine.restoreWork at e
  extract_lets +onlyGivenNames i pages at e
  split at e
  · cases e
  split at e
  · cases e; exact h.endActive.startWaiting
  · cases e
    refine h.foldl fun _ _ h => ?_
    split
    · exact h.writeMem.ite h
    · exact h
theorem endRestore {o n} : Steady s (endRestore t o n) := endOp (h.ite h.release.modSession)
theorem execCtxRestore {o} : NextIs (execCtxRestore o t) (Steady s) :=
  next (h.runCtx (fun _ _ _ _ h e => h.restoreWork e) fun _ _ _ h => h.endRestore)
theorem sweepContexts : Steady s t.sweepContexts := h.foldl fun _ _ h => h.ite h.release.modSession

/-! ### Deckles, and failed reads of host memory -/

theorem writeDeckRun {d r e} : Steady s (t.writeDeckRun d r e) :=
  (h.ite h.modDeckle).ite (h.corrected.ite h.modDeckle)
theorem dropSnaps {d} : Steady s (t.dropSnaps d) := h.foldl fun _ _ h => h.dropSnap
theorem openDeckle {d} : Steady s (t.openDeckle d) := by
  unfold State.openDeckle
  split
  · exact h
  · exact h.modDeckle.ite (h.modDeckle.modDeckle.newKeys.ite h.modDeckle.keyGenFailed)
  · exact h.modDeckle.ite h.modDeckle.dropSnaps.modDeckle.setReg.setReg.dropKeys
theorem resetTenant {d} : Steady s (t.resetTenant d) := updShadows (h.foldl fun _ _ h => h.setReg)
theorem flrEffect {d} : Steady s (t.flrEffect d) := by
  unfold State.flrEffect
  split
  · exact h
  · extract_lets +onlyGivenNames a b c e f g i
    have hb : Steady s b := h.dropSteps.foldl fun _ _ h => h.closeSession
    have hc : Steady s c := hb.dropSnaps
    have hi : Steady s i := hc.release.modDeckle.resetTenant.dropKeys
    exact hi.ite (hi.newKeys.ite hi.keyGenFailed)
theorem writeSqEn {d b} : Steady s (t.writeSqEn d b) :=
  h.setReg.ite (h.corrected.ite (h.corrected.ite h.setReg.modDeckle))
theorem writeCqEn {d b} : Steady s (t.writeCqEn d b) := h.setReg.ite (h.corrected.ite h.setReg)
theorem execSqEn {d n b} : NextIs (execSqEn d n b t) (Steady s) := next (h.writeSqEn.ite h)
theorem execCqEn {d n b} : NextIs (execCqEn d n b t) (Steady s) := next (h.writeCqEn.ite h)
theorem ringFailed {d} : Steady s (t.ringFailed d) := h.modDeckle.ite h.modDeckle.setReg.report
theorem loadReadFailed {k} : Steady s (t.loadReadFailed k) := by
  unfold State.loadReadFailed
  split
  · exact h.failLoad.ite h
  · exact h
theorem execHostReadFail {k} : NextIs (execHostReadFail k t) (Steady s) := by
  refine next ?_
  split
  · exact h.ringFailed
  · exact h.promptFailed
  · exact h.swapInFailed.ite h
  · exact h.loadReadFailed
  · exact h.loadReadFailed
  · exact h.quireEnd.ite h
  · exact h.corrected
  · exact h.report
  · exact h.ownerDenied
  · exact h.corrected

end

end Steady
end Sys2Proof.Machine

namespace Sys2Proof.Machine

set_option Elab.async false

namespace Steady

section
variable {s t : State} (h : Steady s t)
include h
/-! ### The tick -/

theorem startTick : Steady s t.startTick := by
  unfold State.startTick
  extract_lets +onlyGivenNames tick upd a torus b
  have ha : Steady s a := h.updUpd
  have hb : Steady s b := ha.updTorus
  exact h.ite (h.corrected.ite (h.corrected.ite (h.updTick.ite (hb.updTorus.ite hb.updTick))))
theorem stopRun : Steady s (({ t with torus := { t.torus with waiting := false } }).stopTick) := h.updTorus.stopTick
/-- A period that is accepted lies within the bounds (R31). -/
theorem writePeriod {v} : Steady s (t.writePeriod v) := by
  unfold State.writePeriod
  extract_lets
  refine h.setWwr.ite ?_
  split
  · exact h.corrected
  next hv =>
    refine h.corrected.ite (h.trans ⟨rfl, fun hs => ⟨hs.1, hs.2.1, fun p hp => ?_⟩⟩)
    cases hp
    unfold periodOk
    simpa using hv
/-- The boundary takes the period that was accepted, which is within the bounds. -/
theorem takePeriod : Steady s t.takePeriod := by
  refine h.trans ⟨rfl, fun hs => ⟨hs.1, ?_, fun _ hn => nomatch hn⟩⟩
  obtain ⟨-, hper, hnext⟩ := hs
  show periodOk (t.tick.periodNext.getD t.tick.period)
  cases hp : t.tick.periodNext with
  | none => exact hper
  | some p => exact hnext p hp
theorem acceptEntry {d e} : Steady s (t.acceptEntry d e) := h.modDeckle.reject.ite h.modDeckle.modDeckle
theorem ringLate : Steady s t.ringLate := h.updTick
theorem takeCredits {d l} : Steady s (t.takeCredits d l) := by
  refine h.foldl fun _ _ h => ?_
  split
  · exact h.ite h.modSession
  · exact h
theorem fetchFrom {d p l} : Steady s (t.fetchFrom d p l) := by
  unfold State.fetchFrom
  extract_lets +onlyGivenNames ci a pi b n got c
  have ha : Steady s a := h.report.ite h
  have hc : Steady s c := ha.modDeckle.ringLate.ite ha.modDeckle
  exact ha.setReg.report.ite (hc.foldl fun _ _ h => h.acceptEntry)
theorem fetchRing {r} : Steady s (t.fetchRing r) := by
  unfold State.fetchRing
  extract_lets +onlyGivenNames d a bad b c e
  have ha : Steady s a := h.modDeckle
  have hb : Steady s b := by
    unfold b
    split
    · exact ha.modDeckle
    · exact ha
  have hc : Steady s c := hb.takeCredits
  have he : Steady s e := by
    unfold e
    split
    · exact hc.fetchFrom
    · exact hc.ringLate
  exact ha.ite (ha.takeCredits.ite (he.ringFailed.ite he.modDeckle))
theorem fetchAll {l} : Steady s (t.fetchAll l) := h.foldl fun _ _ h => h.fetchRing
theorem runActions {l : List (State → State)} (hl : ∀ f ∈ l, ∀ u, Steady s u → Steady s (f u)) :
    Steady s (runActions l t) := by
  induction l generalizing t with
  | nil => exact h
  | cons f r ih =>
    exact ih ((hl f List.mem_cons_self t h).ite h) fun g hg => hl g (List.mem_cons_of_mem f hg)
theorem commitAll : Steady s t.commitAll := h.commitShadows.foldl fun _ _ h => h.modDeckle
theorem takeBatt : Steady s t.takeBatt := h.updPower
theorem latchPorts : Steady s t.latchPorts := h.foldl fun _ _ h => h.modPort
theorem deckleBoundary : Steady s t.deckleBoundary := h.foldl fun _ _ h => h.flrEffect.openDeckle
theorem settleSwaps : Steady s t.settleSwaps := h.foldl fun _ _ h => h.settleSwap
theorem preemptAll : Steady s t.preemptAll := h.foldl fun _ _ h => h.modDeckle
theorem calTurns : Steady s t.calTurns := h.updUpd
omit h in
theorem commonActions : ∀ f ∈ Machine.commonActions, ∀ u, Steady s u → Steady s (f u) := by
  simp only [Machine.commonActions, List.forall_mem_cons]
  exact ⟨fun _ h => h.commitAll, fun _ h => h.takeBatt, fun _ h => h.debugUnlock, fun _ h => h.handOver,
    fun _ h => h.raiseInjected, fun _ h => h.updPause, fun _ h => nomatch h⟩
theorem boundary {i l} : Steady s (t.boundary i l) := by
  refine h.ite (runActions h.updTick ?_)
  simp only [List.forall_mem_append, List.forall_mem_cons]
  exact ⟨⟨⟨fun _ h => h.takeTelem.ageStrobe, fun _ h => h.calTurns, fun _ h => nomatch h⟩, commonActions⟩,
    fun _ h => h.deckleBoundary, fun _ h => h.enterGroups, fun _ h => h.takePeriod, fun _ h => h.planBoundary,
    fun _ h => h.applyMembership, fun _ h => h.vatBoundary, fun _ h => h.reloadsEnd, fun _ h => h.stressCheck,
    fun _ h => h.beginRecord, fun _ h => h.sweepContexts, fun _ h => h.sendTimes, fun _ h => h.preemptAll,
    fun _ h => h.latchPorts, fun _ h => h.stepEffect, fun _ h => h.updTherm, fun _ h => h.latchPower,
    fun _ h => h.stopSessions, fun _ h => h.settleSwaps, fun _ h => h.slotEffects, fun _ h => h.slotBoundary,
    fun _ h => h.correctStep, fun _ h => h.showGroups, fun _ h => h.fetchAll, fun _ h => nomatch h⟩
theorem selfStrobe {i} : Steady s (t.selfStrobe i) := by
  refine h.ite (h.runActions ?_)
  simp only [List.forall_mem_append, List.forall_mem_cons]
  exact ⟨⟨⟨fun _ h => h.takeTelem, fun _ h => nomatch h⟩, commonActions⟩, fun _ h => h.slotEffects,
    fun _ h => h.slotBoundary, fun _ h => h.deckleBoundary, fun _ h => h.enterGroups, fun _ h => h.evalSelf,
    fun _ h => h.stressCheck, fun _ h => h.beginRecord, fun _ h => h.showGroups, fun _ h => nomatch h⟩
theorem enterStage {g} : Steady s (t.enterStage g) := h.updTick
theorem execEvaluationPhase : NextIs (execEvaluationPhase t) (Steady s) := next (h.enterStage.slipTick.evalPhase.ite h)
theorem publishDeckle {d} : Steady s (t.publishDeckle d).1 := by
  unfold State.publishDeckle
  extract_lets +onlyGivenNames k q open_ due held full p pi fresh a v b c
  have ha : Steady s a := h.modDeckle
  have hb : Steady s b := ha.raiseVector.ite ha
  have hc : Steady s c := hb.raiseVector.ite hb
  exact hc
theorem publishAll : Steady s t.publishAll.1 := by
  unfold State.publishAll
  generalize allDeckles.filter _ = l
  suffices ∀ (a : State × List (Nat × PubOut)), Steady s a.1 → Steady s (l.foldl (fun a d =>
      let (s, l) := a.1.publishDeckle d
      (s, a.2 ++ l)) a).1 from this _ h
  induction l with
  | nil => exact fun _ h => h
  | cons d r ih => exact fun a h => ih _ h.publishDeckle
theorem commitLengths : Steady s t.commitLengths :=
  (h.foldl fun _ _ h => h.ringSkip).foldl fun _ _ h => h.ite h.modSession.setCommit
theorem overrunAll : Steady s t.overrunAll := h.foldl fun _ _ h => h.overrun
theorem freeEntries : Steady s t.freeEntries := h.updSched
theorem writeAll : Steady s t.writeAll := by
  unfold State.writeAll
  split
  next hp =>
    have hu := congrArg Prod.fst hp ▸ h.publishAll
    extract_lets +onlyGivenNames l a therm b
    have ha : Steady s a := hu.foldl fun _ _ h => h.post
    have hb : Steady s b := ite (raiseVector ha.updTherm) ha
    exact hb.flushPf.sendVectors
theorem showSessions : Steady s t.showSessions := h.updSessShown
theorem endTick : Steady s t.endTick := h.updTick
theorem publication : Steady s t.publication :=
  h.ite (h.overrunAll.commitLengths.freeEntries.writeAll.showSessions.endTick.ite h.overrunAll)

/-! ### Register writes of the host -/

theorem writeFields {k i w f} : Steady s (t.writeFields k i w f) := h.foldl fun _ _ h => h.writeField
theorem writePageCtl {k i w} : Steady s (t.writePageCtl k i w) :=
  h.ite ((h.startTick.ite h.stopRun).ite (h.writeDeckRun.ite
    ((h.requestService.ite (h.requestDrain.ite (h.requestRun.ite h))).ite h)))
theorem writeCommon {k i w} : Steady s (t.writeCommon k i w) :=
  h.writePageCtl.ite (h.clearPageErr.ite (h.modPage.ite ((h.writeInj.ite h).ite (h.writeLatch.ite h))))
theorem writeRing {d w a b} : Steady s (t.writeRing d w a b) := by
  unfold State.writeRing
  extract_lets +onlyGivenNames size quota v u x
  have hu : Steady s u := h.putField.ite (h.ite h.setWwr)
  have hx : Steady s x := hu.putShadow.ite hu
  exact h.ite (hx.writeSqEn.ite hx.writeCqEn)
theorem writeSess {d w} : Steady s (t.writeSess d w) := h.writeSessRange
theorem writeDeckPf {d w} : Steady s (t.writeDeckPf d w) :=
  h.writeSess.ite (h.writeRing.ite (h.writeRing.ite h.writeFields))
theorem writeDeckVf {d w} : Steady s (t.writeDeckVf d w) :=
  h.clearPageErr.ite (h.writeRing.ite (h.writeRing.ite (h.writeFields.ite (h.corrected.ite h))))
theorem writeMmap {v} : Steady s (t.writeMmap v) := h.setWwr.ite h.modSlot
theorem writeVatPage {k v w} : Steady s (t.writeVatPage k v w) :=
  (h.writeRefEn.ite h).ite (h.accessCorr.ite ((h.modVat.ite h).ite (h.accessScr.ite h.writeFields)))
theorem writeFeltPage {p w} : Steady s (t.writeFeltPage p w) :=
  (h.writeFields.writePortEn.ite h.writeFields).ite ((h.writeDrain.ite h).ite h.writeFields)
theorem writeMemPage {n w} : Steady s (t.writeMemPage n w) :=
  (h.ite (h.corrected.ite (h.updPageOut.ite h.retirePageAt))).ite h.writeFields
theorem writeGlobal {k w} : Steady s (t.writeGlobal k w) := by
  have leave : Steady s (if bit w.word 63 then t.requestLeave else t) := h.requestLeave.ite h
  exact leave.writeFields.ite ((h.writePeriod.ite h).ite (h.challenge.ite ((h.updPower.ite h).ite
    ((h.requestReplan.ite (h.requestReplan.ite h)).ite (h.requestInit.ite ((h.writeHistSel.ite h).ite
      ((h.requestShut.ite h).ite ((h.writeMmap.ite h).ite h.writeFields))))))))
theorem writeMsix {n r w} : Steady s (t.writeMsix n r w) := h.modFunc
theorem writePf {o w} : Steady s (t.writePf o w) := by
  unfold State.writePf
  split
  · exact h.writeMsix.ite h
  · exact h.writeCommon.ite (h.writeDeckPf.ite (h.writeFeltPage.ite (h.writeMemPage.ite (h.writeVatPage.ite h.writeGlobal))))
theorem writeVf {n o w} : Steady s (t.writeVf n o w) := h.writeDeckVf.ite (h.writeMsix.ite h)
theorem execRegisterWrite {n o z v} : NextIs (execRegisterWrite n o z v t) (Steady s) := by
  refine next (h.ite ?_)
  split
  · exact h
  · exact h.writePf.ite h.writeVf

/-! ### Commands with rows of their own -/

theorem execAlwaysOnResetExit {a b} : NextIs (execAlwaysOnResetExit a b t) (Steady s) := next (sampleRef h.updPower)
theorem execCancel {d} : NextIs (execCancel d t) (Steady s) :=
  next (h.command fun _ _ _ h => h.reject.ite (h.finishNow.ite (h.reject.ite (h.reject.ite h.modSession.finishNow))))
theorem execCheckpoint {d} : NextIs (execCheckpoint d t) (Steady s) :=
  next (h.command fun _ _ _ h => h.reject.ite (h.reject.ite (h.reject.ite h.modSession)))
theorem execCheckpointWrite {d i l} : NextIs (execCheckpointWrite d i l t) (Steady s) := by
  unfold Machine.execCheckpointWrite
  extract_lets +onlyGivenNames x
  refine next ?_
  split
  · exact h
  · refine h.ite ?_
    extract_lets +onlyGivenNames c snap cnt no
    have hno {e} : Steady s (no e) := h.modSession.reject
    refine hno.ite (hno.ite (hno.ite (hno.ite ?_)))
    split
    · extract_lets +onlyGivenNames hist seq
      split
      · exact hno
      next u hsnap =>
        have hu : Steady s u := by
          split at hsnap
          · exact h.beginSwapOut hsnap
          · cases hsnap; exact h
        exact hu.modSession.post.post
    · exact hno
theorem execCheckpointWritten {i} : NextIs (execCheckpointWritten i t) (Steady s) := by
  unfold Machine.execCheckpointWritten
  extract_lets +onlyGivenNames x d
  refine next ?_
  split
  · exact h
  · refine h.ite ?_
    refine finishNow (modSession ?_)
    split
    · exact h.dropSnap.modDeckle.modSession
    · exact h
theorem execClose {d} : NextIs (execClose d t) (Steady s) := next (h.command fun _ _ _ h => h.reject.ite h.modSession)
theorem execConfigurationWrite {n f} : NextIs (execConfigurationWrite n f t) (Steady s) := by
  refine next (ite ?_ h)
  split
  · exact h.modFunc
  · exact h.updHost.ite h
  · exact h.modFunc
  · exact h.modFunc
theorem execFlrPf {e} : NextIs (execFlrPf e t) (Steady s) :=
  next (ite (stopTick (h.updHost.foldl fun _ _ h => h.modDeckle)) h)
theorem execFlrVf {n e} : NextIs (execFlrVf n e t) (Steady s) := next (h.resetFunc.modDeckle.ite h)
theorem execGenerate {d} : NextIs (execGenerate d t) (Steady s) := by
  refine next (h.command fun c i u h => ?_)
  refine h.reject.ite ?_
  split
  · exact h.reject
  · exact h.reject.ite (h.reject.ite (h.reject.ite h.enqueue))
theorem execPrefill {d r} : NextIs (execPrefill d r t) (Steady s) := by
  refine next (h.ite (h.command fun c i u h => ?_))
  refine h.reject.ite ?_
  split
  · exact h.reject
  · refine h.reject.ite ?_
    split
    · exact h.reject.ite (h.reject.ite h.enqueue)
    · exact h.reject
theorem execHostLinkDown {b} : NextIs (execHostLinkDown b t) (Steady s) := by
  unfold Machine.execHostLinkDown
  extract_lets +onlyGivenNames host a u
  have hu : Steady s u := dropIde h.updHost
  exact next (ite (hu.report.stopTick.ite hu) h.updHost)
theorem execLinkTrained {n} : NextIs (execLinkTrained n t) (Steady s) := next (ite h.upd h)
theorem execOpenSession {d a b} : NextIs (execOpenSession d a b t) (Steady s) := by
  refine next ?_
  split
  · exact h
  next htake =>
    rename_i c u
    have hu : Steady s (u.expire (eSession c.entry)) := (h.take htake).expire
    refine hu.reject.ite (ite ?_ ?_)
    · split
      · exact hu.reject
      · exact hu.beginOpen
    · split
      · exact h
      · exact hu.reject
      · refine hu.reject.ite (h.ite ?_)
        split
        · exact hu.reject
        · exact hu.openCkpt
theorem execPause {d} : NextIs (execPause d t) (Steady s) :=
  next (h.command fun _ _ _ h => h.reject.ite (h.reject.ite h.modSession))
theorem execQload {d r} : NextIs (execQload d r t) (Steady s) :=
  next (h.withQuireDesc fun _ => h.quireRefused.ite h.modDeckle)
theorem execQunload {d r} : NextIs (execQunload d r t) (Steady s) :=
  next (h.withQuireDesc fun _ => h.quireRefused.ite (h.quireRefused.ite (quireStatus h.release.updQuires)))
theorem execResume {d} : NextIs (execResume d t) (Steady s) :=
  next (h.command fun _ _ _ h => h.reject.ite (h.reject.ite (h.reject.ite h.modSession)))
theorem execSetQuire {d} : NextIs (execSetQuire d t) (Steady s) :=
  next (h.command fun _ _ _ h => h.reject.ite (h.reject.ite (h.reject.ite h.modSession.finishNow)))
theorem execSpareRewriteDone {v p l} : NextIs (execSpareRewriteDone v p l t) (Steady s) :=
  next (ite (h.verifyGroup.ite h.verifyGroup.modGroup) h)
theorem execSwapInComplete {i l} : NextIs (execSwapInComplete i l t) (Steady s) := by
  refine next (ite ?_ h)
  split
  · exact h
  · exact h.swapInFailed
  · exact h.swapInDone
theorem execVin64AlwaysOnLoss : NextIs (execVin64AlwaysOnLoss t) (Steady s) := next h.corePowerOff.upd
theorem execVin64Loss : NextIs (execVin64Loss t) (Steady s) := next h.corePowerOff.updPower
theorem execVin64Qualified : NextIs (execVin64Qualified t) (Steady s) := next (ite (enterBoot h.updPower) h.updPower)

/-! ### Every command -/

theorem exec {c : Instr} : NextIs (exec c t) (Steady s) := by
  cases c with
  | vin64Loss => exact h.execVin64Loss
  | vin64Qualified => exact h.execVin64Qualified
  | alwaysOnResetExit => exact h.execAlwaysOnResetExit
  | modResetN => exact next (h.moduleReset.ite h)
  | hostLinkDown => exact h.execHostLinkDown
  | hostLinkUp => exact next (h.updHost.ite h)
  | flrVf => exact h.execFlrVf
  | flrPf => exact h.execFlrPf
  | d3hot => exact next (h.modFunc.ite h)
  | pwrOnBatt => exact next h.updPower
  | refLost => exact next (h.report.ite h)
  | thermTrip => exact next h.trip
  | thermtripRelease => exact next (h.enterBoot.ite h)
  | pstageFault => exact next (h.report.ite h)
  | clkLock => exact next (h.report.ite h)
  | ideFail => exact next h.ideLost
  | bootDirectory => exact h.execBootDirectory
  | bootImages => exact h.execBootImages
  | bootIdentity => exact h.execBootIdentity
  | hostPortStart => exact next (h.upd.ite h)
  | linkTrained => exact h.execLinkTrained
  | tickBoundary => exact next h.boundary
  | calibrationWindow => exact h.execCalibrationWindow
  | evaluationPhase => exact h.execEvaluationPhase
  | intermediateStrobe => exact next (h.ite h.midStrobe)
  | allocationPhase => exact next h.allocate
  | publicationPhase => exact next h.publication
  | selfStrobe => exact next h.selfStrobe
  | tickRunSet => exact next h.startTick
  | tickRunClear => exact next h.stopRun
  | tickPeriod => exact next h.writePeriod
  | tileMvm => exact h.execTileMvm
  | residual => exact h.execResidual
  | sizing => exact h.execSizing
  | attnBlock => exact h.execAttnBlock
  | vector => exact h.execVector
  | kvAppend => exact h.execKvAppend
  | exchange => exact h.execExchange
  | sample => exact h.execSample
  | ctxSave => exact h.execCtxSave
  | ctxRestore => exact h.execCtxRestore
  | overrun => exact next h.overrun
  | openSession => exact h.execOpenSession
  | prefill => exact h.execPrefill
  | generate => exact h.execGenerate
  | pause => exact h.execPause
  | resume => exact h.execResume
  | cancel => exact h.execCancel
  | checkpoint => exact h.execCheckpoint
  | checkpointWrite => exact h.execCheckpointWrite
  | close => exact h.execClose
  | setQuire => exact h.execSetQuire
  | ttlExpired => exact next h.expire
  | swapOutComplete => exact next (h.modSession.ite h)
  | swapInComplete => exact h.execSwapInComplete
  | hostReadFail => exact h.execHostReadFail
  | load => exact h.execLoad
  | reamImageData => exact h.execReamImageData
  | switch => exact h.execSwitch
  | discard => exact h.execDiscard
  | unload => exact h.execUnload
  | stuckExport => exact h.execStuckExport
  | couchRecv => exact h.execCouchRecv
  | qload => exact h.execQload
  | qunload => exact h.execQunload
  | rewriteComplete => exact h.execRewriteComplete
  | drainLimitExpiry => exact next h.expireDrain
  | vatReplace => exact next h.replaceVat
  | spareRewriteDone => exact h.execSpareRewriteDone
  | converterCalDone => exact next h.convDone
  | fallbackStart => exact h.execFallbackStart
  | fallbackEnd => exact h.execFallbackEnd
  | marginWindowEnd => exact h.execMarginWindowEnd
  | periodicReplan => exact h.execPeriodicReplan
  | replanCandidateEnd => exact next h.endCandidate
  | replanReq => exact next h.requestReplan
  | initCal => exact next h.requestInit
  | initCalDone => exact h.execInitCalDone
  | marginRecordDue => exact next h.wantRecord
  | recordWriteDone => exact next h.recordDone
  | recShut => exact next h.requestShut
  | refbufEn => exact next h.writeRefEn
  | refbufReady => exact h.execRefbufReady
  | corrData => exact next h.accessCorr
  | histSel => exact next h.writeHistSel
  | histData => exact next h.readHist
  | scrData => exact next h.accessScr
  | seqFault => exact next h.seqFault
  | seqReloadDone => exact next h.reloadDone
  | hubHang => exact h.execHubHang
  | managementEvent => exact next h.sendEvent
  | pageErrClear => exact next (h.clearPageErr.ite h)
  | pageErrInj => exact next (h.writeInj.ite h)
  | pageLatch => exact next (h.writeLatch.ite h)
  | vatRun => exact next h.requestRun
  | vatDrain => exact next h.requestDrain
  | vatService => exact next h.requestService
  | deckOpen => exact next h.writeDeckRun
  | sqEn => exact h.execSqEn
  | cqEn => exact h.execCqEn
  | retirePage => exact h.execRetirePage
  | unretire => exact h.execUnretire
  | registerWrite => exact h.execRegisterWrite
  | pldmSettingWrite => exact next (h.putShadow.ite h.putShadow)
  | portEn => exact next h.writePortEn
  | laneDrain => exact next h.writeDrain
  | laneFail => exact next h.mapOut
  | laneTestPass => exact next h.modPort
  | portTrained => exact next h.modPort
  | linkSession => exact next h.linkSession
  | sessionRetry => exact next h.modPort
  | rekeyDue => exact h.execRekeyDue
  | rekeyFail => exact next h.rekeyFail
  | frameReceive => exact next h.frameIn
  | exchangeCompletion => exact next h.exchangeDone
  | timeFrame => exact next h.timeFrame
  | timeFrameMissing => exact h.execTimeFrameMissing
  | alignLost => exact h.execAlignLost
  | autoRejoin => exact h.execAutoRejoin
  | firstAlignedStrobe => exact h.execFirstAlignedStrobe
  | membershipProposal => exact h.execMembershipProposal
  | leave => exact next h.requestLeave
  | capWaitSignal => exact next h.updSched
  | setKey => exact next h.ownerCommand
  | clearKey => exact next h.ownerCommand
  | reqSigOn => exact next h.ownerCommand
  | reqSigOff => exact next h.ownerCommand
  | lock => exact next h.ownerCommand.lockEnds
  | unlock => exact next h.ownerCommand
  | chal => exact next h.challenge
  | dbgToken => exact h.execDbgToken
  | keyGen => exact next h.keyGenFailed
  | getCertificate => exact h.execGetCertificate
  | getMeasurements => exact h.execGetMeasurements
  | keyExchange => exact h.execKeyExchange
  | ideKm => exact h.execIdeKm
  | entdaa => exact next (h.updPower.ite h)
  | setdasa => exact next (h.updPower.ite h)
  | write => exact h.execWrite
  | updWin => exact h.execUpdWin
  | imageVerifyDone => exact h.execImageVerifyDone
  | activate => exact h.execActivate
  | updCancel => exact next (h.ite h.cmdTaken.updCancel)
  | queryDeviceIdentifiers => exact next h.pldmReply
  | getFirmwareParameters => exact next h.pldmReply
  | requestUpdate => exact h.execRequestUpdate
  | passComponentTable => exact h.execPassComponentTable
  | updateComponent => exact h.execUpdateComponent
  | firmwareData => exact h.execFirmwareData
  | activateFirmware => exact h.execActivateFirmware
  | getStatus => exact next h.pldmReply
  | cancelUpdateComponent => exact h.execCancelUpdateComponent
  | cancelUpdate => exact h.execCancelUpdate
  | start => exact h.execStart
  | abort => exact h.execAbort
  | stressPhaseEnd => exact next h.stressNext
  | vin64AlwaysOnLoss => exact h.execVin64AlwaysOnLoss
  | perstNRelease => exact next h.upd
  | configurationWrite => exact h.execConfigurationWrite
  | alwaysOnDomainFail => exact next h.updPower
  | tapInstruction => exact next (h.updPower.ite h)
  | i3cHdrEntry => exact next h
  | portLightReceived => exact next h.modPort
  | directoryWritten => exact h.execDirectoryWritten
  | checkpointWritten => exact h.execCheckpointWritten

end

end Steady
end Sys2Proof.Machine

namespace Sys2Proof.Machine

set_option Elab.async false

/-! ### Steps -/

/-- The command in front is carried out on the state with the queue's rest, which differs from the state in its queue alone. -/
theorem step_cons {s : State} {c : Instr} {rest : List Instr} (h : s.pending = c :: rest) :
    step s = exec c { s with pending := rest } := by
  unfold step
  rw [h]

/-- Settles O1. -/
theorem stepRunsFront : Obligations.StepRunsFront := fun _ _ _ => rfl

/-- Settles O3: every function that a command is made of keeps a sound state sound (`Steady`). -/
theorem soundKept : Obligations.SoundKept := by
  intro s t hs hstep
  cases hp : s.pending with
  | nil =>
    unfold step at hstep
    rw [hp] at hstep
    cases hstep
    exact hs
  | cons c rest =>
    obtain ⟨u, hu, -, hsound⟩ := (Steady.refl (s := { s with pending := rest })).exec (c := c)
    rw [step_cons hp, hu] at hstep
    cases hstep
    exact hsound hs

/-- Settles O2: every command answers a next state and leaves the queue's rest as it stands (`Steady`). -/
theorem idleAndConsume : Obligations.IdleAndConsume := by
  refine ⟨fun s h => by unfold step; rw [h], fun s => ?_⟩
  cases hp : s.pending with
  | nil => exact ⟨s, by unfold step; rw [hp], hp⟩
  | cons c rest =>
    obtain ⟨u, hu, hpend, -⟩ := (Steady.refl (s := { s with pending := rest })).exec (c := c)
    exact ⟨u, (step_cons hp).trans hu, hpend⟩

/-- Settles O4. -/
theorem resetSound : Obligations.ResetSound := by
  unfold Obligations.ResetSound State.Sound periodOk
  exact ⟨rfl, by decide, fun p hp => nomatch hp⟩

/-- Settles O5. -/
theorem resetState : Obligations.ResetState := by
  unfold Obligations.ResetState
  refine ⟨by decide, rfl, fun _ _ => rfl, fun _ => rfl, fun _ => rfl, fun _ => rfl, fun _ => rfl, fun _ => rfl, rfl, rfl,
    rfl, rfl, rfl, rfl⟩

end Sys2Proof.Machine

/-! ## One tile pass: counts, assembly, containment (R97, R100 to R103, R112) -/

namespace Sys2Proof.Machine

set_option Elab.async false

open Finset

/-! ### Folds as sums -/

theorem foldl_add_eq_sum {α M : Type} [AddCommMonoid M] (l : List α) (f : α → M) (a : M) :
    l.foldl (fun a x => a + f x) a = a + (l.map f).sum := by
  induction l generalizing a with
  | nil => simp
  | cons x r ih => simp [ih, add_assoc]

theorem foldl_range_eq_sum {M : Type} [AddCommMonoid M] (n : Nat) (f : Nat → M) :
    (List.range n).foldl (fun a r => a + f r) 0 = ∑ r ∈ range n, f r := by
  induction n with
  | zero => rfl
  | succ n ih => rw [List.range_succ, List.foldl_append, ih, sum_range_succ]; rfl

theorem sumTo_eq_sum (n : Nat) (f : Nat → Nat) : sumTo n f = ∑ i ∈ range n, f i := foldl_range_eq_sum n f

theorem overRows_eq_sum (f : Nat → Int) : overRows f = ∑ r ∈ range 256, f r := foldl_range_eq_sum 256 f

/-- A count over a list is a sum over its indices. -/
theorem countP_eq_sum {α : Type} (p : α → Bool) (d : α) (l : List α) :
    l.countP p = ∑ i ∈ range l.length, b2n (p (l.getD i d)) := by
  induction l with
  | nil => rfl
  | cons a r ih =>
    rw [List.length_cons, sum_range_succ', List.countP_cons, ih]
    rfl

/-! ### Exact counts -/

/-- Stored bit of a cell of the tile, before its stuck-bit map. -/
def Tile.stored (t : Tile) (r col : Nat) : Bool := (t.rows.getD r 0#272).getLsbD col

/-- Exact count of a column under a plane over all rows. -/
def exactCnt (t : Tile) (codes : List Nat) (col i : Nat) : Nat := colCount t codes col i 0 256

theorem colCount_eq_countP (t : Tile) (codes : List Nat) (col i lo hi : Nat) :
    colCount t codes col i lo hi =
      (((t.rows.zip codes).take hi).drop lo).countP (fun x => bit x.2 i && x.1.getLsbD col) := by
  unfold colCount
  generalize ((t.rows.zip codes).take hi).drop lo = l
  have step (a : Nat) : l.foldl (fun a x => if bit x.2 i && x.1.getLsbD col then a + 1 else a) a =
      a + l.countP (fun x => bit x.2 i && x.1.getLsbD col) := by
    induction l generalizing a with
    | nil => rfl
    | cons x r ih =>
      rw [List.foldl_cons, ih, List.countP_cons]
      split <;> omega
  exact (step 0).trans (Nat.zero_add _)

theorem colCount_le (t : Tile) (codes : List Nat) (col i lo hi : Nat) : colCount t codes col i lo hi ≤ hi - lo := by
  rw [colCount_eq_countP]
  refine List.countP_le_length.trans ?_
  rw [List.length_drop, List.length_take]
  omega

/-- The two half-counts of plans D and CD make the whole count. -/
theorem colCount_halves (t : Tile) (codes : List Nat) (col i : Nat) :
    colCount t codes col i 0 128 + colCount t codes col i 128 256 = exactCnt t codes col i := by
  unfold exactCnt
  simp only [colCount_eq_countP, List.drop_zero]
  have hcut : (t.rows.zip codes).take 128 = ((t.rows.zip codes).take 256).take 128 := by rw [List.take_take]; rfl
  rw [hcut, ← List.countP_append, List.take_append_drop]

section
variable {t : Tile} {codes : List Nat} (hrows : t.rows.length = 256) (hcodes : codes.length = 256)
include hrows hcodes

theorem exactCnt_eq_sum (col i : Nat) :
    exactCnt t codes col i = ∑ r ∈ range 256, b2n (bit (nth codes r) i && t.stored r col) := by
  have hlen : (t.rows.zip codes).length = 256 := by rw [List.length_zip, hrows, hcodes]; rfl
  unfold exactCnt
  rw [colCount_eq_countP, List.drop_zero, List.take_of_length_le hlen.le, countP_eq_sum _ (0#272, 0), hlen]
  refine sum_congr rfl fun r hr => ?_
  have hr := mem_range.1 hr
  unfold nth Tile.stored
  simp [List.getD_eq_getElem?_getD, hrows, hcodes, hr]

end

theorem bits_below_16 {a : Nat} (h : a < 16) : ∑ i ∈ range 4, 2 ^ i * b2n (bit a i) = a := by
  revert a; decide

theorem b2n_and (a b : Bool) : b2n (a && b) = b2n a * b2n b := by revert a b; decide

section
variable {t : Tile} {codes : List Nat} (hrows : t.rows.length = 256) (hcodes : codes.length = 256)
  (hlt : ∀ c ∈ codes, c < 16)
include hlt

theorem code_lt (r : Nat) : nth codes r < 16 := by
  unfold nth
  rw [List.getD_eq_getElem?_getD]
  cases h : codes[r]? with
  | none => decide
  | some c => exact hlt c (List.mem_of_getElem? h)

include hcodes

include hrows in
/-- The planes of a column add up to the sum of the row codes over the cells that are set (R93). -/
theorem planes_eq_sum (col : Nat) :
    ∑ i ∈ range 4, 2 ^ i * exactCnt t codes col i = ∑ r ∈ range 256, nth codes r * b2n (t.stored r col) := by
  simp only [exactCnt_eq_sum hrows hcodes, b2n_and, mul_sum]
  rw [sum_comm]
  refine sum_congr rfl fun r _ => ?_
  simp only [← mul_assoc, ← sum_mul, bits_below_16 (code_lt hlt r)]

theorem inputSum_eq : inputSum codes = (∑ r ∈ range 256, (nth codes r : Int)) - 2048 := by
  unfold inputSum
  have hplane (i : Nat) : activeRows codes i = ∑ r ∈ range 256, b2n (bit (nth codes r) i) := by
    unfold activeRows
    rw [← List.countP_eq_length_filter, countP_eq_sum _ 0, hcodes]
    rfl
  have hsum : sumTo 4 (fun i => 2 ^ i * activeRows codes i) = ∑ r ∈ range 256, nth codes r := by
    simp only [sumTo_eq_sum, hplane, mul_sum]
    rw [sum_comm]
    exact sum_congr rfl fun r _ => bits_below_16 (code_lt hlt r)
  rw [hsum, Nat.cast_sum]

end

/-! ### Stuck cells -/

/-- The bit of a cell under a list of stuck cells. -/
def bitUnder (t : Tile) (l : List Stuck) (r col : Nat) : Bool :=
  match l.find? (fun c => c.row == r && c.col == col) with
  | some c => c.wanted
  | none => t.stored r col

theorem bitUnder_stuck (t : Tile) : bitUnder t t.stuck = t.bitAt := rfl

theorem bitUnder_cons (t : Tile) (c : Stuck) (l : List Stuck) (r col : Nat) :
    bitUnder t (c :: l) r col = if r = c.row ∧ col = c.col then c.wanted else bitUnder t l r col := by
  unfold bitUnder
  rw [List.find?_cons]
  by_cases h : r = c.row ∧ col = c.col
  · obtain ⟨rfl, rfl⟩ := h; simp
  · have hne : (c.row == r && c.col == col) = false := by
      rw [Bool.and_eq_false_iff, beq_eq_false_iff_ne, beq_eq_false_iff_ne]
      exact (not_and_or.1 h).imp Ne.symm Ne.symm
    rw [hne, if_neg h]

theorem bitUnder_of_unnamed (t : Tile) {l : List Stuck} {r col : Nat} (h : ∀ c ∈ l, r ≠ c.row ∨ col ≠ c.col) :
    bitUnder t l r col = t.stored r col := by
  unfold bitUnder
  rw [List.find?_eq_none.2]
  intro c hc
  simp only [Bool.and_eq_true, beq_iff_eq, not_and]
  rintro rfl rfl
  exact (h c hc).elim (fun h => h rfl) fun h => h rfl

/-- Sum of the terms of the stuck cells in columns `base` to `base` + m − 1, each times its column's weight. -/
def stuckBand (codes : List Nat) (l : List Stuck) (base m : Nat) : Int :=
  ((l.filter (fun c => decide (base ≤ c.col) && decide (c.col < base + m))).map
    (fun c => stuckTerm codes c * (2 ^ (c.col - base) : Nat))).sum

/-- The terms of the stuck cells turn the stored bits of a band of columns into those the cells should hold (R112). -/
theorem stuckBand_eq (t : Tile) (codes : List Nat) (base m : Nat) (l : List Stuck)
    (hin : ∀ c ∈ l, c.row < 256 ∧ t.stored c.row c.col = c.held) (hone : l.Pairwise (fun a b => a.row ≠ b.row ∨ a.col ≠ b.col)) :
    stuckBand codes l base m = ∑ r ∈ range 256, ∑ j ∈ range m,
      2 ^ j * ((nth codes r : Int) * ((b2n (bitUnder t l r (base + j)) : Int) - b2n (t.stored r (base + j)))) := by
  induction l with
  | nil =>
    refine (sum_eq_zero fun r _ => sum_eq_zero fun j _ => ?_).symm
    rw [bitUnder_of_unnamed t (fun _ h => absurd h List.not_mem_nil), sub_self, mul_zero, mul_zero]
  | cons c l ih =>
    obtain ⟨hc, hone⟩ := List.pairwise_cons.1 hone
    obtain ⟨hrow, hheld⟩ := hin c List.mem_cons_self
    have hfree : bitUnder t l c.row c.col = c.held := (bitUnder_of_unnamed t hc).trans hheld
    have hterm (r j : Nat) :
        (2 : Int) ^ j * ((nth codes r : Int) * ((b2n (bitUnder t (c :: l) r (base + j)) : Int) - b2n (t.stored r (base + j)))) =
          (if r = c.row then (if base + j = c.col then stuckTerm codes c * (2 ^ (c.col - base) : Nat) else 0) else 0) +
          2 ^ j * ((nth codes r : Int) * ((b2n (bitUnder t l r (base + j)) : Int) - b2n (t.stored r (base + j)))) := by
      rw [bitUnder_cons]
      by_cases h : r = c.row ∧ base + j = c.col
      · obtain ⟨rfl, hcol⟩ := h
        have hj : c.col - base = j := by omega
        rw [if_pos ⟨rfl, hcol⟩, if_pos rfl, if_pos hcol, hcol, hfree, hheld, hj]
        unfold stuckTerm
        push_cast
        ring
      · have hz : (if r = c.row then (if base + j = c.col then stuckTerm codes c * (2 ^ (c.col - base) : Nat) else 0)
            else 0) = (0 : Int) := by
          split
          · rw [if_neg (fun hj => h ⟨‹_›, hj⟩)]
          · rfl
        rw [if_neg h, hz, zero_add]
    simp only [hterm, sum_add_distrib, ← ih (fun c h => hin c (List.mem_cons_of_mem _ h)) hone]
    rw [sum_comm]
    simp only [sum_ite_eq', mem_range, hrow, if_true]
    unfold stuckBand
    rw [List.filter_cons]
    by_cases hb : base ≤ c.col ∧ c.col < base + m
    · have hj (j : Nat) : base + j = c.col ↔ j = c.col - base := by omega
      simp only [hb.1, hb.2, decide_true, Bool.and_self, if_true, List.map_cons, List.sum_cons, hj, sum_ite_eq', mem_range]
      rw [if_pos (by omega)]
    · have hno : (decide (base ≤ c.col) && decide (c.col < base + m)) = false := by
        rw [← Bool.not_eq_true]; simpa using hb
      rw [hno, sum_eq_zero fun j hj => if_neg (by have := mem_range.1 hj; omega)]
      simp

end Sys2Proof.Machine

namespace Sys2Proof.Machine

set_option Elab.async false

open Finset

/-! ### Array results and check values from exact counts -/

/-- What the counts of the columns of a band give, each column times its weight. -/
def bandSum4 (cnt : Nat → Nat → Nat) (base m : Nat) : Nat :=
  ∑ i ∈ range 4, ∑ j ∈ range m, 2 ^ (i + j) * cnt (base + j) i

theorem stuckData_eq (t : Tile) (codes : List Nat) {n : Nat} (hn : n < 64) :
    stuckData t codes n = stuckBand codes t.stuck (4 * n) 4 := by
  unfold stuckData stuckBand
  have hfilter : (fun c : Stuck => decide (c.col < 256) && c.col / 4 == n) =
      fun c => decide (4 * n ≤ c.col) && decide (c.col < 4 * n + 4) := by
    funext c
    rw [Bool.eq_iff_iff]
    simp only [Bool.and_eq_true, decide_eq_true_eq, beq_iff_eq]
    omega
  rw [foldl_add_eq_sum, zero_add, hfilter]
  refine congrArg List.sum (List.map_congr_left fun c hc => ?_)
  have hb := (List.mem_filter.1 hc).2
  simp only [Bool.and_eq_true, decide_eq_true_eq] at hb
  rw [show c.col % 4 = c.col - 4 * n by omega]

theorem stuckCheck_eq (t : Tile) (codes : List Nat) (g : Nat) :
    stuckCheck t codes g = stuckBand codes t.stuck (256 + 2 * g) 2 := by
  unfold stuckCheck stuckBand
  have hfilter : (fun c : Stuck => decide (256 ≤ c.col) && (c.col - 256) / 2 == g) =
      fun c => decide (256 + 2 * g ≤ c.col) && decide (c.col < 256 + 2 * g + 2) := by
    funext c
    rw [Bool.eq_iff_iff]
    simp only [Bool.and_eq_true, decide_eq_true_eq, beq_iff_eq]
    omega
  rw [foldl_add_eq_sum, zero_add, hfilter]
  refine congrArg List.sum (List.map_congr_left fun c hc => ?_)
  have hb := (List.mem_filter.1 hc).2
  simp only [Bool.and_eq_true, decide_eq_true_eq] at hb
  rw [show c.col % 2 = c.col - (256 + 2 * g) by omega]

theorem assembleD_eq (t : Tile) (codes : List Nat) (cnt : Nat → Nat → Nat) {n : Nat} (hn : n < 64) :
    assembleD t codes cnt n = (bandSum4 cnt (4 * n) 4 : Int) + stuckBand codes t.stuck (4 * n) 4 - 8 * inputSum codes -
      8 * t.sw.getD n 0 - 16384 := by
  unfold assembleD bandSum4
  simp only [sumTo_eq_sum, stuckData_eq t codes hn]
  ring

theorem assembleE_eq (t : Tile) (codes : List Nat) (cnt : Nat → Nat → Nat) (g : Nat) :
    assembleE t codes cnt g = (bandSum4 cnt (256 + 2 * g) 2 : Int) + stuckBand codes t.stuck (256 + 2 * g) 2 -
      8 * (nth t.sc g : Nat) := by
  unfold assembleE bandSum4
  simp only [sumTo_eq_sum, stuckCheck_eq]
  ring

theorem Tile.weight_eq (t : Tile) (r n : Nat) :
    t.weight r n = ((∑ j ∈ range 4, 2 ^ j * b2n (t.bitAt r (4 * n + j)) : Nat) : Int) - 8 :=
  congrArg (fun k : Nat => (k : Int) - 8) (sumTo_eq_sum 4 _)

theorem goldenD_eq_sum (codes : List Nat) (w : Nat → Nat → Int) (n : Nat) (hcodes : codes.length = 256) :
    goldenD codes w n = ∑ r ∈ range 256, ((nth codes r : Int) - 8) * w r n := by
  unfold goldenD
  rw [foldl_range_eq_sum]
  refine sum_congr rfl fun r hr => ?_
  have hr : r < codes.length := hcodes ▸ mem_range.1 hr
  unfold xAt nth
  rw [List.getD_eq_getElem _ _ hr, List.getD_eq_getElem _ _ hr]

section
variable {t : Tile} {codes : List Nat} (ht : t.Sound) (hcodes : codes.length = 256) (hlt : ∀ c ∈ codes, c < 16)
include ht hcodes hlt

/-- Exact counts of a band of columns and its stuck-cell terms give the sum over the bits the cells should hold (R112). -/
theorem band_exact (base m : Nat) :
    (bandSum4 (exactCnt t codes) base m : Int) + stuckBand codes t.stuck base m =
      ∑ r ∈ range 256, (nth codes r : Int) * (∑ j ∈ range m, 2 ^ j * b2n (t.bitAt r (base + j)) : Nat) := by
  obtain ⟨hrows, -, -, -, hstuck, hone⟩ := ht
  have hcols : bandSum4 (exactCnt t codes) base m =
      ∑ j ∈ range m, 2 ^ j * ∑ r ∈ range 256, nth codes r * b2n (t.stored r (base + j)) := by
    unfold bandSum4
    rw [sum_comm]
    refine sum_congr rfl fun j _ => ?_
    rw [← planes_eq_sum hrows hcodes hlt, mul_sum]
    exact sum_congr rfl fun i _ => by ring
  have hin : ∀ c ∈ t.stuck, c.row < 256 ∧ t.stored c.row c.col = c.held := fun c hc =>
    ⟨(hstuck c hc).1, (hstuck c hc).2.2⟩
  rw [hcols, stuckBand_eq t codes base m t.stuck hin hone, bitUnder_stuck]
  push_cast
  simp only [mul_sum]
  rw [sum_comm, ← sum_add_distrib]
  refine sum_congr rfl fun r _ => ?_
  rw [← sum_add_distrib]
  exact sum_congr rfl fun j _ => by ring

/-- Exact counts give the exact product of the inputs and the weights (R97). -/
theorem assembleD_exact {n : Nat} (hn : n < 64) : assembleD t codes (exactCnt t codes) n = goldenD codes t.weight n := by
  have hsw : t.sw.getD n 0 = ∑ r ∈ range 256, t.weight r n := (ht.2.1 n hn).trans (overRows_eq_sum _)
  have hbits (r : Nat) : ((∑ j ∈ range 4, 2 ^ j * b2n (t.bitAt r (4 * n + j)) : Nat) : Int) = t.weight r n + 8 := by
    rw [Tile.weight_eq, sub_add_cancel]
  rw [assembleD_eq t codes _ hn, band_exact ht hcodes hlt, inputSum_eq hcodes hlt, hsw, goldenD_eq_sum codes _ n hcodes]
  simp only [hbits, sub_mul, mul_add, sum_sub_distrib, sum_add_distrib, ← sum_mul, ← mul_sum]
  ring

theorem assembleE_exact {g : Nat} (hg : g < 8) :
    assembleE t codes (exactCnt t codes) g = ∑ r ∈ range 256, ((nth codes r : Int) - 8) * (t.checkAt r g : Nat) := by
  have hsc : ((nth t.sc g : Nat) : Int) = ∑ r ∈ range 256, (t.checkAt r g : Int) :=
    (ht.2.2.1 g hg).trans (overRows_eq_sum _)
  have hbits (r : Nat) : (∑ j ∈ range 2, 2 ^ j * b2n (t.bitAt r (256 + 2 * g + j)) : Nat) = t.checkAt r g := by
    rw [sum_range_succ, sum_range_one]
    unfold Tile.checkAt
    rw [show 257 + 2 * g = 256 + 2 * g + 1 by omega]
    simp
  rw [assembleE_eq, band_exact ht hcodes hlt, hsc]
  simp only [hbits, sub_mul, sum_sub_distrib, ← mul_sum]

/-- The residue check of exact counts holds (R100). -/
theorem residue_exact {g : Nat} (hg : g < 8) :
    assembleE t codes (exactCnt t codes) g % 3 =
      (∑ k ∈ range 8, assembleD t codes (exactCnt t codes) (8 * g + k)) % 3 := by
  have hsum : ∑ k ∈ range 8, assembleD t codes (exactCnt t codes) (8 * g + k) =
      ∑ r ∈ range 256, ((nth codes r : Int) - 8) * ∑ k ∈ range 8, t.weight r (8 * g + k) := by
    rw [sum_congr rfl fun k hk => (assembleD_exact ht hcodes hlt (n := 8 * g + k) (by have := mem_range.1 hk; omega)).trans
      (goldenD_eq_sum codes _ _ hcodes), sum_comm]
    exact sum_congr rfl fun r _ => (mul_sum ..).symm
  rw [assembleE_exact ht hcodes hlt hg, hsum]
  refine Int.ModEq.sum fun r hr => Int.ModEq.mul_left _ ?_
  exact (ht.2.2.2.1 r (mem_range.1 hr) g hg).trans (congrArg (· % 3) (foldl_range_eq_sum 8 _))

end

end Sys2Proof.Machine

namespace Sys2Proof.Machine

set_option Elab.async false

open Finset

/-! ### The assembly of a pass -/

/-- The count of a column under a plane that the assembly works with. -/
def passCnt (split : Bool) (cor : Corr) (t : Tile) (codes : List Nat) (fs : List CodeFault) (col i : Nat) : Nat :=
  (colCodes split cor t codes fs col i).foldl (· + ·) 0

theorem exactCnt_of_skipped (t : Tile) {codes : List Nat} {i : Nat} (h : activeRows codes i = 0) (col : Nat) :
    exactCnt t codes col i = 0 := by
  unfold exactCnt
  rw [colCount_eq_countP, List.countP_eq_zero]
  intro x hx hbit
  have hmem : x.2 ∈ codes := (List.of_mem_zip (List.mem_of_mem_take (List.mem_of_mem_drop hx))).2
  have hnone : codes.filter (fun c => bit c i) = [] := List.length_eq_zero_iff.1 h
  have := List.filter_eq_nil_iff.1 hnone x.2 hmem
  simp only [Bool.and_eq_true] at hbit
  exact this hbit.1

theorem readCode_exact (cor : Corr) {fs : List CodeFault} {col i half : Nat} (exact_ : Nat)
    (h : ∀ f ∈ fs, ¬(f.col = col ∧ f.plane = i ∧ f.half = half)) : readCode cor fs col i half exact_ = exact_ := by
  unfold readCode
  rw [List.find?_eq_none.2]
  intro f hf hm
  simp only [Bool.and_eq_true, beq_iff_eq] at hm
  exact h f hf ⟨hm.1.1, hm.1.2, hm.2⟩

section
variable (split : Bool) (cor : Corr) (t : Tile) {codes : List Nat} {fs : List CodeFault}

/-- A column that no misread code names under a plane has its exact count there. -/
theorem passCnt_exact {col i : Nat} (h : ∀ f ∈ fs, ¬(f.col = col ∧ f.plane = i)) :
    passCnt split cor t codes fs col i = exactCnt t codes col i := by
  have hread (half n : Nat) : readCode cor fs col i half n = n :=
    readCode_exact cor n fun f hf hm => h f hf ⟨hm.1, hm.2.1⟩
  unfold passCnt colCodes
  split
  next hskip => rw [exactCnt_of_skipped t hskip]; rfl
  · simp only [hread]
    split
    · simp only [List.foldl_cons, List.foldl_nil, Nat.zero_add, colCount_halves]
    · simp only [List.foldl_cons, List.foldl_nil, Nat.zero_add]
      rfl

/-- The count of a driven plane under one misread code is off by what that code is off. -/
theorem passCnt_misread {f : CodeFault} (hhalf : f.half < if split then 2 else 1) (hdriven : activeRows codes f.plane ≠ 0)
    {exact_ : Nat} (hexact : exact_ = if split then colCount t codes f.col f.plane (128 * f.half) (128 * f.half + 128)
      else colCount t codes f.col f.plane 0 256) :
    passCnt split cor t codes [f] f.col f.plane + exact_ =
      exactCnt t codes f.col f.plane + readCode cor [f] f.col f.plane f.half exact_ := by
  have other {half : Nat} (h : f.half ≠ half) (n : Nat) : readCode cor [f] f.col f.plane half n = n :=
    readCode_exact cor n fun g hg hm => h (List.mem_singleton.1 hg ▸ hm.2.2)
  unfold passCnt colCodes
  rw [if_neg hdriven]
  cases split with
  | false =>
    have h0 : f.half = 0 := by simpa using hhalf
    subst hexact
    simp only [Bool.false_eq_true, if_false, List.foldl_cons, List.foldl_nil, h0, exactCnt]
    omega
  | true =>
    have hsum := colCount_halves t codes f.col f.plane
    subst hexact
    simp only [if_true, List.foldl_cons, List.foldl_nil, Nat.zero_add]
    have h01 : f.half = 0 ∨ f.half = 1 := by simp only [if_true] at hhalf; omega
    rcases h01 with h | h
    · rw [other (half := 1) (by omega), h]
      simp only [Nat.mul_zero, Nat.zero_add, ← hsum]
      omega
    · rw [other (half := 0) (by omega), h]
      simp only [Nat.mul_one, Nat.reduceAdd, ← hsum]
      omega

end

theorem bandSum4_congr {f g : Nat → Nat → Nat} {base m : Nat}
    (h : ∀ col i, base ≤ col → col < base + m → i < 4 → f col i = g col i) : bandSum4 f base m = bandSum4 g base m := by
  unfold bandSum4
  refine sum_congr rfl fun i hi => sum_congr rfl fun j hj => ?_
  have hj := mem_range.1 hj
  rw [h _ _ (by omega) (by omega) (mem_range.1 hi)]

/-- Counts that differ in one column and plane alone. -/
theorem bandSum4_differ {f g : Nat → Nat → Nat} {c p : Nat} (hp : p < 4) {e k : Nat} (hat : f c p + e = g c p + k)
    (hother : ∀ col i, ¬(col = c ∧ i = p) → f col i = g col i) (base m : Nat) :
    (bandSum4 f base m : Int) = bandSum4 g base m +
      if base ≤ c ∧ c < base + m then 2 ^ (p + (c - base)) * ((k : Int) - e) else 0 := by
  unfold bandSum4
  have hterm (i j : Nat) : ((2 ^ (i + j) * f (base + j) i : Nat) : Int) = (2 ^ (i + j) * g (base + j) i : Nat) +
      if i = p then (if base + j = c then 2 ^ (p + (c - base)) * ((k : Int) - e) else 0) else 0 := by
    by_cases h : base + j = c ∧ i = p
    · obtain ⟨hc, rfl⟩ := h
      have hj : c - base = j := by omega
      rw [if_pos rfl, if_pos hc, hc, hj]
      have : (f c i : Int) = g c i + (k - e) := by omega
      push_cast
      rw [this]
      ring
    · rw [hother _ _ h]
      split
      · rw [if_neg (fun hc => h ⟨hc, ‹_›⟩), add_zero]
      · rw [add_zero]
  simp only [Nat.cast_sum, hterm, sum_add_distrib]
  congr 1
  rw [sum_comm]
  simp only [sum_ite_eq', mem_range, hp, if_true]
  by_cases hb : base ≤ c ∧ c < base + m
  · have hj (j : Nat) : base + j = c ↔ j = c - base := by omega
    simp only [hj, sum_ite_eq', mem_range]
    rw [if_pos (by omega), if_pos hb]
  · rw [if_neg hb]
    exact sum_eq_zero fun j hj => if_neg (by have := mem_range.1 hj; omega)

/-- A power of two times an error of 1 or 2 is no multiple of 3. -/
theorem pow_two_mul_mod_three {n : Nat} {d : Int} (h : d ≠ 0) (hlo : -2 ≤ d) (hhi : d ≤ 2) : (2 ^ n * d) % 3 ≠ 0 := by
  intro h0
  have h3 : (3 : Int) ∣ 2 ^ n * d := Int.dvd_of_emod_eq_zero h0
  have hp : Prime (3 : Int) := Int.prime_three
  rcases hp.dvd_or_dvd h3 with h2 | hd
  · have := hp.dvd_of_dvd_pow h2
    omega
  · omega

end Sys2Proof.Machine

namespace Sys2Proof.Machine

set_option Elab.async false

open Finset

section
variable {split : Bool} {cor : Corr} {t : Tile} {codes : List Nat} {fs : List CodeFault} {gold : Nat → Nat → Int}

/-- A check group is repaired where its residue check fails or one of its columns gave an overflow code (R101, R103). -/
theorem mem_assemble_fixed {g : Nat} : g ∈ (assemble split cor t codes fs gold).fixed ↔ g < 8 ∧
    (assembleE t codes (passCnt split cor t codes fs) g % 3 ≠
        (∑ k ∈ range 8, assembleD t codes (passCnt split cor t codes fs) (8 * g + k)) % 3 ∨
      ∃ c ∈ (assemble split cor t codes fs gold).tooHigh, colGroup c = g) := by
  unfold assemble
  simp only [List.mem_filter, List.mem_range, Bool.or_eq_true, decide_eq_true_eq, List.any_eq_true, beq_iff_eq]
  refine and_congr_right fun hg => or_congr ?_ Iff.rfl
  rw [foldl_range_eq_sum]
  refine Iff.of_eq (congrArg (fun x : Int => assembleE t codes (passCnt split cor t codes fs) g % 3 ≠ x % 3) ?_)
  refine sum_congr rfl fun k hk => ?_
  have hk : 8 * g + k < 64 := by have := mem_range.1 hk; omega
  rw [List.getD_eq_getElem _ _ (by simpa using hk), List.getElem_map, List.getElem_range]
  rfl

/-- D of a neuron: recomputed digitally in a repaired group, else the array's result. -/
theorem assemble_d {n : Nat} (hn : n < 64) : (assemble split cor t codes fs gold).d.getD n 0 =
    if n / 8 ∈ (assemble split cor t codes fs gold).fixed then goldenD codes gold n
    else assembleD t codes (passCnt split cor t codes fs) n := by
  conv_lhs => unfold assemble
  dsimp only
  rw [List.getD_eq_getElem _ _ (by simpa using hn), List.getElem_map, List.getElem_range]
  simp only [List.contains_iff_mem]
  refine if_congr Iff.rfl rfl ?_
  rw [List.getD_eq_getElem _ _ (by simpa using hn), List.getElem_map, List.getElem_range]
  rfl

/-- Right codes lie in the count's range, so none is an overflow code (R103). -/
theorem assemble_no_overflow : (assemble split cor t codes [] gold).tooHigh = [] := by
  unfold assemble
  have hnone (col i : Nat) : (colCodes split cor t codes [] col i).filter (overCode split) = [] := by
    have hread (half n : Nat) : readCode cor [] col i half n = n := rfl
    unfold colCodes
    simp only [hread]
    have hle := colCount_le t codes col i
    split
    · refine List.filter_eq_nil_iff.2 fun c hc => ?_
      rw [List.mem_singleton.1 hc]
      unfold overCode
      split <;> decide
    · split
      next hs =>
        have h0 := hle 0 128
        have h1 := hle 128 256
        simp only [List.filter_eq_nil_iff, List.mem_cons, overCode, hs, if_true, decide_eq_true_eq]
        rintro c (rfl | rfl | hc)
        · omega
        · omega
        · cases hc
      next hs =>
        have h0 := hle 0 256
        simp only [List.filter_eq_nil_iff, List.mem_cons, overCode, hs, decide_eq_true_eq]
        rintro c (rfl | hc)
        · rw [if_neg (by simp)]; omega
        · cases hc
  simp only [hnone, List.map_nil, List.nil_append]
  simp

theorem assembleD_congr {f g : Nat → Nat → Nat} {n : Nat} (hn : n < 64)
    (h : ∀ col i, col < 256 → col / 32 = n / 8 → f col i = g col i) : assembleD t codes f n = assembleD t codes g n := by
  rw [assembleD_eq t codes f hn, assembleD_eq t codes g hn,
    bandSum4_congr fun col i hlo hhi _ => h col i (by omega) (by omega)]

theorem colGroup_data {col : Nat} (h : col < 256) : colGroup col = col / 32 := if_pos h

theorem colGroup_check {col : Nat} (h : ¬col < 256) : colGroup col = (col - 256) / 2 := if_neg h

variable (ht : t.Sound) (hcodes : codes.length = 256) (hlt : ∀ c ∈ codes, c < 16)
include ht hcodes hlt

/-- A neuron whose check group no misread code names has its exact result, as it has when the group was repaired. -/
theorem assemble_d_exact {n : Nat} (hn : n < 64)
    (h : (∀ f ∈ fs, colGroup f.col ≠ n / 8) ∨ n / 8 ∈ (assemble split cor t codes fs t.weight).fixed) :
    (assemble split cor t codes fs t.weight).d.getD n 0 = goldenD codes t.weight n := by
  rw [assemble_d hn]
  split
  · rfl
  next hfixed =>
    rw [← assembleD_exact ht hcodes hlt hn]
    refine assembleD_congr hn fun col i hcol hg => passCnt_exact split cor t fun f hf hm => ?_
    exact h.resolve_right hfixed f hf (by rw [hm.1, colGroup_data hcol, hg])

/-- One misread code of a driven plane that is off by 1 or 2 fails the residue check of its group: it changes either the
check value or one array result, by a power of two times the error. -/
theorem assemble_catches {f : CodeFault} (hcol : f.col < 272) (hplane : f.plane < 4)
    {cnt : Nat → Nat → Nat} {e k : Nat} (hat : cnt f.col f.plane + e = exactCnt t codes f.col f.plane + k)
    (hother : ∀ col i, ¬(col = f.col ∧ i = f.plane) → cnt col i = exactCnt t codes col i)
    (hne : k ≠ e) (hlo : k ≤ e + 2) (hhi : e ≤ k + 2) :
    assembleE t codes cnt (colGroup f.col) % 3 ≠
      (∑ j ∈ range 8, assembleD t codes cnt (8 * colGroup f.col + j)) % 3 := by
  have hg : colGroup f.col < 8 := by unfold colGroup; split <;> omega
  have hres := residue_exact ht hcodes hlt hg
  have hdiff := bandSum4_differ (f := cnt) (g := exactCnt t codes) hplane hat hother
  have hpow (n : Nat) : (2 ^ n * ((k : Int) - e)) % 3 ≠ 0 := pow_two_mul_mod_three (by omega) (by omega) (by omega)
  have hE : assembleE t codes cnt (colGroup f.col) = assembleE t codes (exactCnt t codes) (colGroup f.col) +
      if 256 ≤ f.col then 2 ^ (f.plane + (f.col - (256 + 2 * colGroup f.col))) * ((k : Int) - e) else 0 := by
    rw [assembleE_eq, assembleE_eq, hdiff]
    have hin : (256 + 2 * colGroup f.col ≤ f.col ∧ f.col < 256 + 2 * colGroup f.col + 2) ↔ 256 ≤ f.col := by
      unfold colGroup; split <;> omega
    simp only [hin]
    ring
  have hD (j : Nat) (hj : j ∈ range 8) : assembleD t codes cnt (8 * colGroup f.col + j) =
      assembleD t codes (exactCnt t codes) (8 * colGroup f.col + j) +
      if j = f.col / 4 % 8 then (if f.col < 256 then 2 ^ (f.plane + f.col % 4) * ((k : Int) - e) else 0) else 0 := by
    have hj := mem_range.1 hj
    have hn : 8 * colGroup f.col + j < 64 := by omega
    have hterm : (if 4 * (8 * colGroup f.col + j) ≤ f.col ∧ f.col < 4 * (8 * colGroup f.col + j) + 4 then
        2 ^ (f.plane + (f.col - 4 * (8 * colGroup f.col + j))) * ((k : Int) - e) else 0) =
        if j = f.col / 4 % 8 then (if f.col < 256 then 2 ^ (f.plane + f.col % 4) * ((k : Int) - e) else 0) else 0 := by
      by_cases hc : f.col < 256
      · rw [colGroup_data hc, if_pos hc]
        refine if_ctx_congr (by omega) (fun hj => ?_) fun _ => rfl
        rw [show f.col - 4 * (8 * (f.col / 32) + j) = f.col % 4 by omega]
      · rw [if_neg hc, ite_self, if_neg (by omega)]
    rw [assembleD_eq t codes _ hn, assembleD_eq t codes _ hn, hdiff, hterm]
    ring
  have hpos : f.col / 4 % 8 ∈ range 8 := mem_range.2 (Nat.mod_lt _ (by decide))
  rw [hE, sum_congr rfl hD, sum_add_distrib, sum_ite_eq', if_pos hpos]
  by_cases hc : f.col < 256
  · rw [if_pos hc, if_neg (by omega)]
    have := hpow (f.plane + f.col % 4)
    omega
  · rw [if_neg hc, if_pos (by omega)]
    have := hpow (f.plane + (f.col - (256 + 2 * colGroup f.col)))
    omega

end

/-! ### The obligation -/

/-- Settles O26: the array results and the check values are linear in the counts, so right codes pass the residue check, and a
code off by 1 or 2 moves one side of it by a power of two times the error. -/
theorem passContained : Obligations.PassContained := by
  intro split cor t codes fs ht hcodes hlt
  refine ⟨?noFault, ?contained, ?repaired⟩
  case noFault =>
    rintro rfl
    refine ⟨List.eq_nil_iff_forall_not_mem.2 fun g hg => ?_, assemble_no_overflow⟩
    obtain ⟨hg, hbad | ⟨c, hc, -⟩⟩ := mem_assemble_fixed.1 hg
    · have hcnt : passCnt split cor t codes [] = exactCnt t codes :=
        funext fun col => funext fun i => passCnt_exact split cor t fun _ h => nomatch h
      rw [hcnt] at hbad
      exact hbad (residue_exact ht hcodes hlt hg)
    · rw [assemble_no_overflow] at hc
      cases hc
  case contained => exact fun n hn h => assemble_d_exact ht hcodes hlt hn h
  case repaired =>
    rintro f rfl hcol hplane hhalf hdriven exact_ code hne hhi hlo
    have hat : passCnt split cor t codes [f] f.col f.plane + exact_ = exactCnt t codes f.col f.plane + code :=
      passCnt_misread split cor t hhalf hdriven rfl
    have hother : ∀ col i, ¬(col = f.col ∧ i = f.plane) → passCnt split cor t codes [f] col i = exactCnt t codes col i :=
      fun col i h => passCnt_exact split cor t fun g hg hm => h (by
        obtain rfl := List.mem_singleton.1 hg
        exact ⟨hm.1.symm, hm.2.symm⟩)
    have hg : colGroup f.col < 8 := by unfold colGroup; split <;> omega
    have hfixed : colGroup f.col ∈ (assemble split cor t codes [f] t.weight).fixed :=
      mem_assemble_fixed.2 ⟨hg, .inl (assemble_catches ht hcodes hlt hcol hplane hat hother hne hhi hlo)⟩
    refine ⟨hfixed, fun n hn => assemble_d_exact ht hcodes hlt hn ?_⟩
    by_cases hn' : colGroup f.col = n / 8
    · exact .inr (hn' ▸ hfixed)
    · exact .inl fun g hg => List.mem_singleton.1 hg ▸ hn'

end Sys2Proof.Machine

/-! ## Supplies, resets and events that remove core power (R131, R440, R458, R492, R502, R507, R522 to R527) -/

namespace Sys2Proof.Machine

set_option Elab.async false

/-! ### What a change of error registers and host port leaves -/

theorem State.enterBoot_errHost (s : State) : ErrHost
    { s with power := { s.power with phase := .boot, stage := 1, shutCause := 0, thermTripN := false } } s.enterBoot := by
  unfold State.enterBoot
  dsimp only
  split
  · exact State.modPage_errHost _ _ _
  · exact .refl _

theorem State.sampleRef_errHost (s : State) (refSel clock : Bool) : ErrHost
    { s with power := { s.power with refExt := refSel && clock, refFell := refSel && !clock } } (s.sampleRef refSel clock) := by
  unfold State.sampleRef when
  dsimp only
  split
  · exact State.report_errHost _ { err := .refFallback } rfl rfl rfl
  · exact .refl _

theorem State.moduleState_boot {s : State} (h : s.power.phase = .boot) : s.moduleState = 1 := by
  unfold State.moduleState; rw [h]

theorem State.moduleState_off {s : State} (h : s.power.phase = .off) : s.moduleState = 0 := by
  unfold State.moduleState; rw [h]

theorem State.moduleState_shutdown {s : State} (h : s.power.phase = .shutdown) : s.moduleState = 5 := by
  unfold State.moduleState; rw [h]

/-- What a module reset leaves (R527). -/
theorem State.moduleReset_leaves (s : State) (refSel clock : Bool) :
    let t := s.moduleReset refSel clock
    t.power.phase = (if s.power.vinOk then .boot else .off) ∧ (s.power.vinOk = true → t.power.stage = 1) ∧
    t.power.i3cAddr = 0 ∧ t.power.refExt = (refSel && clock) ∧ t.sessions = [] ∧ t.regs = [] ∧ t.mem = [] ∧ t.slots = [] ∧
    t.tick.running = false ∧ t.sec.owners = s.sec.owners ∧ t.sec.unlocked = false ∧ t.upd.flash = s.upd.flash := by
  unfold State.moduleReset
  extract_lets +onlyGivenNames u power v w
  have hw : w.power.vinOk = s.power.vinOk ∧ w.power.i3cAddr = 0 ∧ w.power.refExt = (refSel && clock) ∧ w.sessions = [] ∧
      w.regs = [] ∧ w.mem = [] ∧ w.slots = [] ∧ w.tick.running = false ∧ w.sec.owners = s.sec.owners ∧
      w.sec.unlocked = false ∧ w.upd.flash = s.upd.flash := by
    obtain ⟨e, h, hw⟩ := v.sampleRef_errHost refSel clock
    rw [show w = _ from hw]
    exact ⟨rfl, rfl, rfl, rfl, rfl, rfl, rfl, rfl, rfl, rfl, rfl⟩
  clear_value w
  obtain ⟨hvin, hrest⟩ := hw
  cases hon : s.power.vinOk with
  | true =>
    obtain ⟨e, h, hb⟩ := w.enterBoot_errHost
    rw [if_pos (hvin.trans hon), hb]
    exact ⟨rfl, fun _ => rfl, hrest⟩
  | false =>
    rw [if_neg (by rw [hvin, hon]; decide)]
    exact ⟨rfl, fun h => (nomatch h), hrest⟩

/-! ### The obligations on supplies -/

/-- Settles O7: what a loss of power and a module reset write; that the records of the always-on domain last until 40 V is the
model's own reading (log entry 39). -/
theorem resets : Obligations.Resets := by
  refine ⟨fun s => ⟨⟨_, rfl, rfl, rfl, rfl, rfl, rfl, rfl, rfl, rfl, rfl, rfl, rfl, rfl⟩,
    ⟨_, rfl, rfl, rfl, rfl, rfl, rfl, rfl, rfl, rfl, rfl, rfl, rfl, rfl⟩⟩, fun s sel clock => ⟨rfl, ?_⟩⟩
  obtain ⟨hphase, -, haddr, href, hsess, hregs, hmem, hslots, hrun, howners, hunlocked, hflash⟩ :=
    s.moduleReset_leaves sel clock
  refine ⟨_, rfl, ?_, hsess, hregs, hmem, hslots, hrun, haddr, howners, hunlocked, hflash, href⟩
  split at hphase
  next hvin => rw [if_pos hvin]; exact State.moduleState_boot hphase
  next hvin => rw [if_neg hvin]; exact State.moduleState_off hphase

/-- Settles O8. -/
theorem supplyReturn : Obligations.SupplyReturn := by
  refine ⟨fun s sel clock => ⟨fun hoff hon => ?qualified, fun h => ?elsewhere, ?perst, ?reset⟩, fun s =>
    ⟨fun hphase hcause => ?release, fun h1 h2 => ?other⟩⟩
  case qualified =>
    obtain ⟨e, h, hb⟩ := State.enterBoot_errHost { s with power := { s.power with vinOk := true } }
    refine ⟨_, congrArg Host.Outcome.next (if_pos ⟨hoff, hon⟩), ?_⟩
    rw [hb]
    exact ⟨rfl, rfl, rfl, rfl, rfl, rfl, rfl⟩
  case elsewhere => exact congrArg Host.Outcome.next (if_neg fun hc => h hc.1)
  case perst =>
    refine ⟨_, rfl, rfl, fun h => ?_, rfl⟩
    rcases h with h | h | h <;> simp [h, State.tapDecode]
  case reset =>
    obtain ⟨e, h, ht⟩ := State.sampleRef_errHost { s with power := { s.power with alwaysOn := true, i3cUp := true } } sel clock
    refine ⟨_, rfl, ?_⟩
    rw [ht]
    exact ⟨rfl, rfl, rfl, rfl, rfl, rfl, rfl, rfl⟩
  case release =>
    obtain ⟨e, h, hb⟩ := s.enterBoot_errHost
    refine ⟨_, congrArg Host.Outcome.next (if_pos ⟨hphase, hcause⟩), ?_⟩
    rw [hb]
    exact ⟨rfl, rfl, rfl, rfl, rfl⟩
  case other => exact congrArg Host.Outcome.next (if_neg fun hc => hc.2.elim h1 h2)

/-! ### Reports that shut the module down, or retire a vat -/

/-- A report of class MODULE_FATAL leaves the module in SHUTDOWN with LAST_SHUT of its own cause (R458). -/
theorem State.report_fatal_leaves (s : State) (r : Report) (hc : r.cls = none) (h4 : (errInfo r.err).cls = 4) {c i : Nat}
    (hcause : (if r.err = .thermTrip then r.cause else if r.err = .pstageFault then 4 else 3) = c)
    (hindex : (if r.err = .thermTrip then r.detail else 0) = i) :
    let t := s.report r
    t.power.phase = .shutdown ∧ t.sessions = [] ∧ t.mem = [] ∧ t.regs = [] ∧ t.tick.running = false ∧
    t.power.shutCause = c ∧ t.therm.lastShut = (c, i, s.tick.now % 2 ^ 32) ∧ t.power.thermTripN = s.power.thermTripN := by
  obtain ⟨u, ⟨e, h, rfl⟩, ht⟩ := s.report_fatal r hc h4
  subst hcause hindex
  dsimp only
  rw [ht]
  exact ⟨rfl, rfl, rfl, rfl, rfl, rfl, rfl, rfl⟩

/-- A VAT_FATAL report against a vat that serves, with no error counted against its die, retires the vat (R499). -/
theorem State.report_retires (s : State) (r : Report) {v : Nat} (h3 : r.cls.getD (errInfo r.err).cls = 3) (hv : r.vat = some v)
    (hn : r.named = []) (hserve : (s.vat v).state ≠ .retired) (hdie : s.counted (unitDie (dieOf v)) = false) :
    ∃ t, ErrHost s t ∧ s.report r = t.retireVat v r.cause r.order := by
  have hgone : s.gone (some v) = false := by simpa [State.gone] using hserve
  have he : s.escalate r = (3, false, s.count (unitDie (dieOf v))) := by
    unfold State.escalate
    simp [hgone, h3, hv, hdie]
  unfold State.report
  simp only [he, hv, hgone, hn, List.foldl_nil, ite_self]
  rw [if_neg (by decide), if_pos (by decide)]
  exact ⟨_, ErrHost.trans ⟨_, _, rfl⟩ (State.route_errHost ..), rfl⟩

/-- With an error counted against the die the same report shuts the module down (R498). -/
theorem State.report_escalates (s : State) (r : Report) {v : Nat} (h3 : r.cls.getD (errInfo r.err).cls = 3)
    (hv : r.vat = some v) (hserve : (s.vat v).state ≠ .retired) (hdie : s.counted (unitDie (dieOf v)) = true) :
    (s.report r).power.phase = .shutdown := by
  have hgone : s.gone (some v) = false := by simpa [State.gone] using hserve
  have he : s.escalate r = (4, true, s.count (unitDie (dieOf v))) := by
    unfold State.escalate
    simp [hgone, h3, hv, hdie]
  unfold State.report
  simp only [he, if_true]
  rfl

/-! ### Requests that end leave no new operation -/

/-- Every operation of the scoreboard was in it before. -/
def FewerOps (s t : State) : Prop := ∀ o ∈ t.sched.ops, o ∈ s.sched.ops

theorem ErrHost.fewerOps {s t : State} (h : ErrHost s t) : FewerOps s t := by
  obtain ⟨_, _, rfl⟩ := h; exact fun _ h => h

namespace FewerOps

theorem refl {s : State} : FewerOps s s := fun _ h => h

section
variable {s t u : State} (h : FewerOps s t)
include h

theorem trans (h' : FewerOps t u) : FewerOps s u := fun o ho => h o (h' o ho)
theorem sameSched (he : u.sched.ops = t.sched.ops := by rfl) : FewerOps s u := fun o ho => h o (he ▸ ho)
theorem foldl {α : Type} {f : State → α → State} {l : List α} (hf : ∀ u a, FewerOps s u → FewerOps s (f u a)) :
    FewerOps s (l.foldl f t) := by
  induction l generalizing t with
  | nil => exact h
  | cons a r ih => exact ih (hf t a h)

theorem modSession {i f} : FewerOps s (t.modSession i f) := h.sameSched
theorem modStep {d i f} : FewerOps s (t.modStep d i f) := h.sameSched
theorem publish {d i r o q w} : FewerOps s (t.publish d i r o q w) := h.sameSched
theorem finish {d c st e en l w n o} : FewerOps s (t.finish d c st e en l w n o) := h.sameSched
theorem toDeckle {d c n} : FewerOps s (t.toDeckle d c n) := h.trans (t.toDeckle_errHost d c n).fewerOps
theorem raiseVector {n v} : FewerOps s (t.raiseVector n v) := h.trans (t.raiseVector_errHost n v).fewerOps
theorem reject {d c e} : FewerOps s (t.reject d c e) := by
  unfold State.reject
  extract_lets +onlyGivenNames u w
  have hw : FewerOps s w := h.sameSched
  split
  · exact hw.trans (State.corrected_errHost ..).fewerOps
  · exact hw
theorem dropStep {d i} : FewerOps s (t.dropStep d i) := by
  unfold State.dropStep
  split
  · exact h
  · exact fun o ho => h o (List.mem_of_mem_filter ho)
theorem withdraw {d i} : FewerOps s (t.withdraw d i) := by
  refine h.foldl fun _ _ h => ?_
  extract_lets dead
  split
  · exact h.dropStep
  · exact h.modStep
theorem endActive {i st e en l o} : FewerOps s (t.endActive i st e en l o) := by
  unfold State.endActive
  split
  · exact h
  · exact h.finish.withdraw.modSession
theorem startRequest {i r o} : FewerOps s (t.startRequest i r o) := by
  unfold State.startRequest
  extract_lets d x toks r'
  split
  · exact h.reject
  · split
    · split
      · exact h.modSession.publish.finish
      · exact h.modSession
    · exact h.modSession
theorem startWaiting {i o} : FewerOps s (t.startWaiting i o) := by
  unfold State.startWaiting
  split
  · split
    · exact h
    · exact h.modSession.startRequest
  · exact h
theorem failSession {i c o} : FewerOps s (t.failSession i c o) := by
  unfold State.failSession
  extract_lets +onlyGivenNames d x a b e f
  have hb : FewerOps s b := h.withdraw.endActive
  have he : FewerOps s e := by
    unfold e
    split
    · exact hb
    · exact hb.finish
  split
  · exact h
  · exact he.modSession.startWaiting

end

end FewerOps

section
variable (s : State)

/-- An operation that a unit held and that had not ended runs again (R499). -/
theorem State.loseOps_reissues (hold : OpRec → Bool) (order : Nat) :
    ∀ o ∈ (s.loseOps hold order).sched.ops, o.state = .waiting → o.reissue = true ∨ o ∈ s.sched.ops ∧ hold o = false := by
  unfold State.loseOps
  extract_lets +onlyGivenNames lost hit sched u w
  intro o ho hwait
  have hu : o ∈ u.sched.ops := by
    have hw : FewerOps u w := FewerOps.refl.foldl fun _ _ h => h.failSession
    exact (hw.foldl fun _ _ h => h.toDeckle.raiseVector : FewerOps u _) o ho
  obtain ⟨x, hx, rfl⟩ := List.mem_map.1 hu
  by_cases hl : lost x = true
  · rw [if_pos hl]
    exact .inl rfl
  · rw [if_neg hl] at hwait ⊢
    refine .inr ⟨hx, ?_⟩
    rw [← Bool.not_eq_true]
    intro hh
    exact hl (by simp only [lost, hwait, hh, Bool.and_true]; decide)

/-- What a retirement leaves. -/
theorem State.retireVat_leaves {v : Nat} (c o : Nat) (hserve : (s.vat v).state ≠ .retired) :
    let t := s.retireVat v c o
    (t.vat v).state = .retired ∧ (t.vat v).retCause = c ∧
    (∀ o ∈ t.sched.ops, o.unit = v → o.state = .waiting → o.reissue = true) ∧ t.power = s.power := by
  unfold State.retireVat
  rw [if_neg (by simpa using hserve)]
  dsimp only
  generalize hu : s.modVat v _ = u
  have hlose := u.loseOps_reissues (fun o => o.unit == v && !o.reissue) o
  obtain ⟨e, h, ds, sc, ss, r, hw⟩ := u.loseOps_workEnds (fun o => o.unit == v && !o.reissue) o
  have hvat : (u.loseOps (fun o => o.unit == v && !o.reissue) o).vat v = u.vat v := by rw [hw]; rfl
  refine ⟨?_, ?_, fun o ho hunit hwait => ?_, ?_⟩
  · rw [hvat, ← hu, State.vat_modVat_same]
  · rw [hvat, ← hu, State.vat_modVat_same]
  · rcases hlose o ho hwait with h | ⟨-, h⟩
    · exact h
    · simpa [hunit] using h
  · rw [hw, ← hu]; rfl

end

/-! ### The obligation on events -/

/-- Settles O9. -/
theorem corePowerRemoved : Obligations.CorePowerRemoved := by
  refine ⟨fun s model sel clock i => ?_, fun s v => ⟨fun hon hdie hserve => ?retires, fun hon hdie hserve => ?escalates,
    fun hoff => congrArg Host.Outcome.next (if_neg (by rw [hoff]; decide))⟩⟩
  case retires =>
    obtain ⟨t, ⟨e, h, rfl⟩, ht⟩ := s.report_retires
      { err := .clkLock, inst := v.val, unit := v.val, vat := some v.val, cause := 2 } rfl rfl rfl hserve hdie
    refine ⟨_, congrArg Host.Outcome.next ((if_pos hon).trans ht), ?_⟩
    obtain ⟨hstate, hcause, hops, hpower⟩ := State.retireVat_leaves { s with errs := e, host := h } 2 0 hserve
    exact ⟨hstate, hcause, hops, congrArg Power.phase hpower⟩
  case escalates =>
    exact ⟨_, congrArg Host.Outcome.next (if_pos hon), State.moduleState_shutdown (s.report_escalates _ rfl rfl hserve hdie)⟩
  · refine ⟨fun hon => ⟨?trip, ?stage, ?ref, fun hauto => ?hang, fun hauto hvin => ?reset⟩, fun hoff => ?off⟩
    case trip =>
      refine ⟨_, congrArg Host.Outcome.next (if_pos hon), ?_⟩
      obtain ⟨hphase, hsess, hmem, hregs, hrun, hcause, hlast, -⟩ := s.report_fatal_leaves
        { err := .thermTrip, cause := if model then 2 else 1, detail := i.val } rfl rfl rfl rfl
      exact ⟨⟨State.moduleState_shutdown hphase, hsess, hmem, hregs, hrun, hcause, hlast⟩, rfl⟩
    case stage =>
      refine ⟨_, congrArg Host.Outcome.next (if_pos hon), ?_⟩
      obtain ⟨hphase, hsess, hmem, hregs, hrun, hcause, hlast, htrip⟩ := s.report_fatal_leaves
        { err := .pstageFault } rfl rfl rfl rfl
      exact ⟨⟨State.moduleState_shutdown hphase, hsess, hmem, hregs, hrun, hcause, hlast⟩, htrip⟩
    case ref =>
      refine ⟨_, congrArg Host.Outcome.next (if_pos hon), ?_⟩
      obtain ⟨hphase, hsess, hmem, hregs, hrun, hcause, hlast, htrip⟩ := s.report_fatal_leaves
        { err := .refLost } rfl rfl rfl rfl
      exact ⟨⟨State.moduleState_shutdown hphase, hsess, hmem, hregs, hrun, hcause, hlast⟩, htrip⟩
    case hang =>
      refine ⟨_, congrArg Host.Outcome.next ((if_pos hon).trans (if_neg (by rw [hauto]; decide))), ?_⟩
      obtain ⟨hphase, hsess, hmem, hregs, hrun, hcause, hlast, -⟩ := s.report_fatal_leaves
        { err := .hubHang } rfl rfl rfl rfl
      exact ⟨State.moduleState_shutdown hphase, hsess, hmem, hregs, hrun, hcause, hlast⟩
    case reset =>
      refine ⟨_, congrArg Host.Outcome.next ((if_pos hon).trans (if_pos hauto)), ?_⟩
      obtain ⟨hphase, hstage, -, -, hsess, -, hmem, -⟩ := State.moduleReset_leaves _ sel clock
      exact ⟨State.moduleState_boot (hphase.trans (if_pos hvin)), hstage hvin, hsess, hmem⟩
    case off =>
      have hoff : ¬s.coreOn = true := by rw [hoff]; decide
      exact ⟨congrArg Host.Outcome.next (if_neg hoff), congrArg Host.Outcome.next (if_neg hoff),
        congrArg Host.Outcome.next (if_neg hoff), congrArg Host.Outcome.next (if_neg hoff)⟩

/-- Settles O10. -/
theorem sideband : Obligations.Sideband := by
  intro s a b c r
  refine ⟨rfl, rfl, rfl, fun hport => ⟨congrArg Host.Outcome.next (if_pos hport), ?_, fun x hx => ?_, fun hev => ?_⟩,
    fun hon => ⟨fun x hx => ?_, ?_, fun x hx => ?_⟩⟩
  · exact congrArg Host.Outcome.next (if_pos (by rw [hport]; decide))
  · refine congrArg Host.Outcome.next (if_neg ?_)
    have : x.val ≠ 0x2D := fun h => hx (Fin.ext h)
    simpa using fun _ => this
  · show Host.Outcome.next s.sendEvent = _
    unfold State.sendEvent
    rw [hev]
    exact congrArg Host.Outcome.next (if_pos hport)
  · refine congrArg Host.Outcome.next ((if_pos hon).trans ?_)
    have hdec : s.tapDecode x = if s.host.perstN = false ∧ s.tick.running = false then x else .bypass := by
      rcases hx with rfl | rfl | rfl <;> simp [State.tapDecode]
    rw [hdec]
  · refine congrArg Host.Outcome.next ((if_pos hon).trans ?_)
    have hdec : s.tapDecode .scan = if s.sec.unlocked = true ∧ s.sec.scopeScan = true then .scan else .bypass := by
      simp [State.tapDecode]
    rw [hdec]
  · refine congrArg Host.Outcome.next ((if_pos hon).trans ?_)
    rcases hx with rfl | rfl | rfl <;> rfl

end Sys2Proof.Machine

/-! ## The host port: loss of the link or of a stream, and commands to one function (R392, R394, R405, R408, R410) -/

namespace Sys2Proof.Machine

set_option Elab.async false

/-! ### What a report and a stop of the tick write of the host port -/

/-- A route is page captures, captured events and vectors, one after the other: what each of them keeps, it keeps. -/
theorem State.route_keeps {P : State → Prop} (hpage : ∀ u p f, P u → P (State.modPage u p f))
    (herrs : ∀ u e, P u → P { u with errs := e }) (hraise : ∀ u fn v, P u → P (State.raiseVector u fn v))
    (hpf : ∀ u v, P u → P (State.pfVector u v)) (s : State) (e : Err) (inst cls : Nat) (d : Option Nat) (c : Capture)
    (hs : P s) : P (s.route e inst cls d c) := by
  have event (t : State) (ht : P t) : P (t.queueEvent c) := by
    unfold State.queueEvent
    extract_lets +onlyGivenNames x u
    have hu : P u := herrs t x ht
    split
    · exact hu
    · extract_lets w
      have hw : P w := hpage u _ _ hu
      split
      · exact hw
      · exact hpf w 2 hw
  have htake (t : State) (d code : Nat) (ht : P t) : P (t.toDeckle d c code) := by
    unfold State.toDeckle; exact hpage t _ _ ht
  unfold State.route
  extract_lets +onlyGivenNames i page u w mask v
  have hu : P u := by
    unfold u
    split
    · exact htake s _ _ hs
    · exact hpage s _ _ hs
  clear_value u
  have hw : P w := by
    unfold w
    split
    · exact hu
    next d =>
      extract_lets x
      have hx : P x := by
        unfold x
        split
        · exact htake u _ _ hu
        · exact hu
      clear_value x
      split
      · exact hraise x _ _ hx
      · exact hx
  clear_value w
  have hv : P v := by
    unfold v
    split
    · split
      · exact hpf w 1 hw
      · exact hw
    · split
      · exact hw
      · exact hpf w 2 hw
  clear_value v
  split
  · exact event v hv
  · exact hv

/-- A report of class CORRECTED that names no session is its route. -/
theorem State.report_corrected (s : State) (r : Report) (hc : r.cls = none) (h1 : (errInfo r.err).cls = 1)
    (hn : r.named = []) : ∃ k, s.report r = s.route r.err r.inst 1 r.deckle k := by
  have he : s.escalate r = (1, false, s) := by simp [State.escalate, hc, h1]
  unfold State.report
  simp only [he, hn, List.foldl_nil, ite_self]
  rw [if_neg (by decide)]
  cases r.vat with
  | none => exact ⟨_, rfl⟩
  | some v => exact ⟨_, if_neg (by simp)⟩

/-- Of the host port only the functions' vectors, the PF's records and the posted writes differ. -/
def Sends (s t : State) : Prop :=
  ∃ fs rs ps, t = { s with host := { s.host with funcs := fs, pfRecs := rs, posted := ps } }

theorem Sends.refl (s : State) : Sends s s := ⟨_, _, _, rfl⟩
theorem Sends.trans {s t u : State} : Sends s t → Sends t u → Sends s u := by
  rintro ⟨fs, rs, ps, rfl⟩ ⟨fs', rs', ps', rfl⟩; exact ⟨fs', rs', ps', rfl⟩
theorem Sends.foldl {α : Type} {f : State → α → State} (hf : ∀ s a, Sends s (f s a)) :
    ∀ (l : List α) (s : State), Sends s (l.foldl f s)
  | [], s => .refl s
  | a :: l, s => (hf s a).trans (Sends.foldl hf l (f s a))

theorem State.raiseVector_sends (s : State) (fn v : Nat) : Sends s (s.raiseVector fn v) := by
  unfold State.raiseVector
  split
  · exact .refl s
  · exact ⟨_, _, _, rfl⟩

theorem State.sendVector_sends (s : State) (fn v : Nat) : Sends s (s.sendVector fn v) := by
  unfold State.sendVector
  extract_lets
  split
  · exact ⟨_, _, _, rfl⟩
  · split
    · exact ⟨_, _, _, rfl⟩
    · exact .refl s

theorem State.pfVector_sends (s : State) (v : Nat) : Sends s (s.pfVector v) := by
  have h := s.raiseVector_sends 0 v
  unfold State.pfVector
  extract_lets t
  split
  · exact h
  · split
    · exact h.trans (t.sendVector_sends 0 v)
    · exact h

theorem State.sendVectors_sends (s : State) : Sends s s.sendVectors :=
  Sends.foldl (fun t fn => Sends.foldl (fun u v => u.sendVector_sends fn v) _ t) _ s

theorem State.flushPf_sends (s : State) : Sends s s.flushPf := by
  unfold State.flushPf
  split
  · have hpost (u : State) (r : Nat × Bytes) : Sends u (u.post 0 r.1 r.2) := ⟨_, _, _, rfl⟩
    exact Sends.trans ⟨_, _, _, rfl⟩ (Sends.foldl hpost _ _)
  · exact .refl s

theorem State.report_corrected_sends (s : State) (r : Report) (hc : r.cls = none) (h1 : (errInfo r.err).cls = 1)
    (hn : r.named = []) : ∃ e, Sends { s with errs := e } (s.report r) := by
  obtain ⟨k, hk⟩ := s.report_corrected r hc h1 hn
  rw [hk]
  refine State.route_keeps (P := fun t => ∃ e, Sends { s with errs := e } t) ?_ ?_ ?_ ?_ s _ _ _ _ k ⟨_, .refl s⟩
  · rintro u p f ⟨e, fs, rs, ps, rfl⟩; exact ⟨_, fs, rs, ps, rfl⟩
  · rintro u e' ⟨e, fs, rs, ps, rfl⟩; exact ⟨e', fs, rs, ps, rfl⟩
  · rintro u fn v ⟨e, h⟩; exact ⟨e, h.trans (u.raiseVector_sends fn v)⟩
  · rintro u v ⟨e, h⟩; exact ⟨e, h.trans (u.pfVector_sends v)⟩

/-! ### Functions at reset send nothing -/

section
variable {s : State} (hfn : ∀ n, s.func n = {})
include hfn

theorem State.raiseVector_idle (fn v : Nat) : s.raiseVector fn v = s := by
  unfold State.raiseVector
  rw [hfn]
  exact if_pos rfl

theorem State.pfVector_idle (v : Nat) : s.pfVector v = s := by
  unfold State.pfVector
  simp only [State.raiseVector_idle hfn, hfn]
  simp

theorem State.sendVectors_idle : s.sendVectors = s := by
  have h (n : Nat) : (List.range 32).filter (fun v => (s.func n).due.contains v || (s.func n).pendBits.contains v) = [] := by
    rw [hfn]; rfl
  have all (l : List Nat) : l.foldl (fun s fn =>
      ((List.range 32).filter (fun v => (State.func s fn).due.contains v || (State.func s fn).pendBits.contains v)).foldl
        (fun s v => State.sendVector s fn v) s) s = s := by
    induction l with
    | nil => rfl
    | cons n l ih => rw [List.foldl_cons, h, List.foldl_nil, ih]
  exact all _

theorem State.report_corrected_idle (r : Report) (hc : r.cls = none) (h1 : (errInfo r.err).cls = 1)
    (hn : r.named = []) : ∃ e, s.report r = { s with errs := e } := by
  obtain ⟨k, hk⟩ := s.report_corrected r hc h1 hn
  rw [hk]
  refine State.route_keeps (P := fun t => ∃ e, t = { s with errs := e }) ?_ ?_ ?_ ?_ s _ _ _ _ k ⟨_, rfl⟩
  · rintro u p f ⟨e, rfl⟩; exact ⟨_, rfl⟩
  · rintro u e' ⟨e, rfl⟩; exact ⟨e', rfl⟩
  · rintro u fn v ⟨e, rfl⟩; exact ⟨e, State.raiseVector_idle (s := { s with errs := e }) hfn fn v⟩
  · rintro u v ⟨e, rfl⟩; exact ⟨e, State.pfVector_idle (s := { s with errs := e }) hfn v⟩
end

/-- The tick after a stop is asked for (R47). -/
def Tick.stopped (t : Tick) : Tick :=
  if !t.running then { t with starting := false } else if t.inTick then { t with stopReq := true }
  else { t with running := false, stopReq := false, starting := false }

theorem Tick.stopped_in {t : Tick} (hr : t.running = true) (hi : t.inTick = true) :
    t.stopped = { t with stopReq := true } := by simp [Tick.stopped, hr, hi]

theorem Tick.stopped_between {t : Tick} (hr : t.running = true) (hi : t.inTick = false) :
    t.stopped = { t with running := false, stopReq := false, starting := false } := by simp [Tick.stopped, hr, hi]

theorem State.stopTick_sends (s : State) : Sends { s with tick := s.tick.stopped } s.stopTick := by
  unfold State.stopTick Tick.stopped
  split
  · exact .refl _
  · split
    · exact .refl _
    · exact (State.flushPf_sends _).trans (State.sendVectors_sends _)

theorem State.stopTick_idle {s : State} (hfn : ∀ n, s.func n = {}) : s.stopTick = { s with tick := s.tick.stopped } := by
  unfold State.stopTick Tick.stopped
  split
  · rfl
  · split
    · rfl
    · have hsend (t : State) (ht : ∀ n, t.func n = {}) : t.flushPf.sendVectors = t := by
        unfold State.flushPf State.mayIssue
        rw [ht, if_neg (by simp), State.sendVectors_idle ht]
      exact hsend _ hfn

end Sys2Proof.Machine

namespace Sys2Proof.Machine

set_option Elab.async false

/-! ### Loss of the link and of a stream -/

theorem Tick.stopped_stopped (t : Tick) : t.stopped.stopped = t.stopped := by
  unfold Tick.stopped
  cases hr : t.running
  · simp
  · cases hi : t.inTick <;> simp

/-- The streams end, and where IDE is demanded the tick is asked to stop; functions at reset send nothing. -/
theorem State.dropIde_idle {s : State} (hfn : ∀ n, s.func n = {}) : ∃ e b tk, (tk = s.tick ∨ tk = s.tick.stopped) ∧
    s.dropIde = { s with errs := e, tick := tk, host := { s.host with
      stopIssue := b, ideLink := (false, false), ideSel := (false, false) } } := by
  by_cases h : (s.host.ideLink.2 || s.host.ideSel.2) = true ∧ s.reg .ideReq = 1
  · obtain ⟨e, he⟩ := State.report_corrected_idle (s := { s with host := { s.host with
      ideLink := (s.host.ideLink.1, false), ideSel := (s.host.ideSel.1, false), stopIssue := true } }) hfn
      { err := .ideFail } rfl rfl rfl
    have hlost : s.ideLost = _ :=
      (if_pos h).trans ((congrArg State.stopTick he).trans (State.stopTick_idle hfn))
    unfold State.dropIde
    rw [hlost]
    exact ⟨e, true, s.tick.stopped, .inr rfl, rfl⟩
  · have hlost : s.ideLost = _ := if_neg h
    unfold State.dropIde
    rw [hlost]
    exact ⟨s.errs, s.host.stopIssue, s.tick, .inl rfl, rfl⟩

/-- Settles O12: a lost link leaves every function at reset, so the report of the loss and the stop of the tick send nothing
and change the error registers and the tick alone. -/
theorem hostLink : Obligations.HostLink := by
  intro s perst hup hstarted
  refine ⟨?down, fun hp => congrArg Host.Outcome.next (if_pos ⟨hup, hstarted, hp⟩)⟩
  have hfn : ∀ n, State.func { s with host := { s.host with
      linkUp := false, vfs := 0, funcs := [], perstN := s.host.perstN && !perst } } n = {} := fun _ => rfl
  obtain ⟨e, b, tk, htk, hdrop⟩ := State.dropIde_idle hfn
  have hstop : tk.stopped = s.tick.stopped := by
    rcases htk with rfl | rfl
    · rfl
    · exact s.tick.stopped_stopped
  have hexec : ∃ e', execHostLinkDown perst s = .next { s with
      errs := e', tick := s.tick.stopped, host := { s.host with
        linkUp := false, vfs := 0, funcs := [], perstN := s.host.perstN && !perst
        stopIssue := b, ideLink := (false, false), ideSel := (false, false) } } := by
    unfold execHostLinkDown
    rw [if_pos hstarted]
    simp only [hdrop]
    rw [if_pos hup]
    obtain ⟨e', he⟩ := State.report_corrected_idle (s := { s with
      errs := e, tick := tk, host := { s.host with
        linkUp := false, vfs := 0, funcs := [], perstN := s.host.perstN && !perst
        stopIssue := b, ideLink := (false, false), ideSel := (false, false) } }) (fun _ => rfl)
      { err := .hostLinkDown } rfl rfl rfl
    rw [he, State.stopTick_idle (fun _ => rfl), ← hstop]
    exact ⟨e', rfl⟩
  obtain ⟨e', hexec⟩ := hexec
  exact ⟨_, hexec, rfl, rfl, fun _ => rfl, rfl, rfl, rfl, Tick.stopped_in, Tick.stopped_between, rfl⟩

/-- Settles O13: the report and the stop of the tick write of the host port only vectors, records and posted writes, so the
stop of issuing and the ended streams stand. -/
theorem streamLost : Obligations.StreamLost := by
  intro s
  refine ⟨fun hon hreq => ?demanded, fun hreq => congrArg Host.Outcome.next (if_neg fun h => ?free)⟩
  case demanded =>
    obtain ⟨e, fs, rs, ps, hr⟩ := State.report_corrected_sends { s with host := { s.host with
      ideLink := (s.host.ideLink.1, false), ideSel := (s.host.ideSel.1, false), stopIssue := true } } { err := .ideFail }
      rfl rfl rfl
    have hexec : execIdeFail s = .next (State.stopTick _) :=
      congrArg Host.Outcome.next ((if_pos ⟨by simpa using hon, hreq⟩).trans (congrArg State.stopTick hr))
    obtain ⟨fs', rs', ps', ht⟩ := State.stopTick_sends { s with errs := e, host := { s.host with
      ideLink := (s.host.ideLink.1, false), ideSel := (s.host.ideSel.1, false), stopIssue := true
      funcs := fs, pfRecs := rs, posted := ps } }
    exact ⟨_, hexec.trans (congrArg Host.Outcome.next ht), rfl, rfl, rfl, fun fn => by simp [State.mayIssue],
      Tick.stopped_in, Tick.stopped_between, rfl⟩
  case free => exact absurd (hreq.symm.trans h.2) (by decide)

/-! ### Commands to one function -/

theorem get_filter_le {α : Type} (d : α) (n m : Nat) : ∀ l : SMap α,
    get d (l.filter (fun x => decide (x.1 ≤ n))) m = if m ≤ n then get d l m else d
  | [] => by simp
  | (i, v) :: l => by
    have ih := get_filter_le d n m l
    by_cases hi : i ≤ n
    · rw [List.filter_cons_of_pos (by simpa using hi)]
      by_cases him : i = m
      · subst him; simp [get, hi]
      · simp [get, him, ih]
    · rw [List.filter_cons_of_neg (by simpa using hi), ih]
      split
      next hm => simp [get, show i ≠ m by omega]
      next => rfl

/-- Every deckle of the list is marked, the others stay, and nothing else changes. -/
theorem State.foldl_modDeckle (f : Deckle → Deckle) (hf : ∀ k, f (f k) = f k) : ∀ (l : List Nat) (s : State),
    l.foldl (fun s d => s.modDeckle d f) s = { s with deckles := (l.foldl (fun s d => s.modDeckle d f) s).deckles } ∧
    ∀ d, (l.foldl (fun s d => s.modDeckle d f) s).deckle d = if d ∈ l then f (s.deckle d) else s.deckle d
  | [], s => ⟨rfl, fun _ => by simp⟩
  | a :: l, s => by
    obtain ⟨hframe, hd⟩ := State.foldl_modDeckle f hf l (s.modDeckle a f)
    refine ⟨hframe, fun d => ?_⟩
    rw [List.foldl_cons, hd d]
    by_cases hda : d = a
    · subst hda
      simp [State.deckle_modDeckle_same, hf]
    · rw [State.deckle_modDeckle, if_neg (Ne.symm hda)]
      simp [hda]

/-- Settles O14. -/
theorem functionControl : Obligations.FunctionControl := by
  intro s fn n v b entropy hstarted hlink
  refine ⟨fun hfn => ?one, ?vfs, fun hr => ?enter, fun hr => ?stays, ?leave, fun hv => ?vf, ?pf⟩
  case one =>
    have hok : s.host.started = true ∧ s.host.linkUp = true ∧ fn.val ≤ s.host.vfs := ⟨hstarted, hlink, hfn⟩
    exact ⟨congrArg Host.Outcome.next (if_pos hok), congrArg Host.Outcome.next (if_pos hok),
      congrArg Host.Outcome.next (if_pos hok),
      fun h0 => congrArg Host.Outcome.next (if_pos ⟨hlink, hfn, fun h => h0 h.1⟩)⟩
  case vfs =>
    exact ⟨_, congrArg Host.Outcome.next (if_pos ⟨hstarted, hlink, Nat.zero_le _⟩), rfl,
      fun m => get_filter_le ({} : Func) n.val m s.host.funcs, rfl⟩
  case enter =>
    exact congrArg Host.Outcome.next (if_pos ⟨hlink, Nat.zero_le _, fun h => by simp [hr] at h⟩)
  case stays => exact congrArg Host.Outcome.next (if_neg fun h => h.2.2 ⟨rfl, rfl, hr⟩)
  case leave => exact congrArg Host.Outcome.next (if_pos ⟨hlink, Nat.zero_le _, fun h => nomatch h.2.1⟩)
  case vf =>
    refine ⟨_, congrArg Host.Outcome.next (if_pos ⟨hlink, hv⟩), get_put_same ({} : Func) s.host.funcs (v.val + 1) {}, ?_,
      fun m hm => get_put_ne ({} : Func) s.host.funcs {} hm.symm, fun d hd => get_put_ne ({} : Deckle) _ _ hd.symm, rfl⟩
    exact congrArg Deckle.flrDue (get_put_same ({} : Deckle) _ _ _)
  case pf =>
    obtain ⟨hframe, hd⟩ := State.foldl_modDeckle (fun k => { k with flrDue := some entropy }) (fun _ => rfl) allDeckles
      { s with host := { s.host with funcs := [], vfs := 0 } }
    have hexec : execFlrPf entropy s = .next (State.stopTick
        (allDeckles.foldl (fun s d => s.modDeckle d (fun k => { k with flrDue := some entropy }))
          { s with host := { s.host with funcs := [], vfs := 0 } })) := congrArg Host.Outcome.next (if_pos hlink)
    generalize allDeckles.foldl _ _ = u at hframe hd hexec
    rw [hframe, State.stopTick_idle (fun _ => rfl)] at hexec
    refine ⟨_, hexec, fun _ => rfl, rfl, fun d => ?_, Tick.stopped_in, Tick.stopped_between, rfl⟩
    exact (hd d.val).trans (if_pos (List.mem_range.2 d.isLt))

end Sys2Proof.Machine

/-! ## The stages of boot (R467, R474, R530, R542 to R544) -/

namespace Sys2Proof.Machine

set_option Elab.async false

/-- A stage of boot that cannot go on writes its capture and its event, and the module stays where it is. -/
theorem State.bootFail_errs (s : State) : ∃ e, s.bootFail = { s with errs := e } := by
  unfold State.bootFail
  extract_lets
  split
  · exact ⟨_, rfl⟩
  · exact ⟨_, rfl⟩

theorem State.atStage_of {s : State} {n : Nat} (hphase : s.power.phase = .boot) (hstage : s.power.stage = n) :
    s.atStage n = true := by simp [State.atStage, hphase, hstage]

theorem execBootDirectory_chosen {s : State} {c0 c1 : Bytes} {d : Directory} {n : Nat} (hat : s.atStage 1 = true)
    (hd : chooseDirectory [parseDirectory c0, parseDirectory c1] = some (d, n)) :
    execBootDirectory c0 c1 s = .next { s with
      upd := { s.upd with dirs := [parseDirectory c0, parseDirectory c1], dirUse := d, dirCopy := n }
      power := { s.power with stage := 2 } } := by
  unfold execBootDirectory
  rw [if_pos hat]
  simp only [hd]

theorem execBootDirectory_none {s : State} {c0 c1 : Bytes} (hat : s.atStage 1 = true)
    (hd : chooseDirectory [parseDirectory c0, parseDirectory c1] = none) : ∃ e,
    execBootDirectory c0 c1 s = .next { s with
      upd := { s.upd with dirs := [parseDirectory c0, parseDirectory c1] }, errs := e } := by
  obtain ⟨e, he⟩ := State.bootFail_errs { s with upd := { s.upd with dirs := [parseDirectory c0, parseDirectory c1] } }
  refine ⟨e, ?_⟩
  unfold execBootDirectory
  rw [if_pos hat]
  simp only [hd]
  exact congrArg Host.Outcome.next he

/-- Without entropy the identity stage only derives the device's keys. -/
theorem execBootIdentity_dry {s : State} (r0 r1 : Bytes) (hat : s.atStage 3 = true) : ∃ c e,
    execBootIdentity r0 r1 false s = .next { s with sec := c, errs := e } := by
  unfold execBootIdentity
  rw [if_pos hat]
  extract_lets +onlyGivenNames u hub c v
  obtain ⟨e, he⟩ := v.bootFail_errs
  exact ⟨_, e, congrArg Host.Outcome.next ((if_pos rfl).trans he)⟩

/-- With entropy the identity stage takes the newer authentic margin record as the seed. -/
theorem execBootIdentity_seeded {s : State} (r0 r1 : Bytes) (hphase : s.power.phase = .boot) (hstage : s.power.stage = 3) :
    ∃ t, execBootIdentity r0 r1 true s = .next t ∧ t.power.stage = 4 ∧ t.power.phase = .boot ∧
      t.upd.seed = (if recordOk t.sec.recKey r0 then
          (if recordOk t.sec.recKey r1 then some (if recSeqOf r0 < recSeqOf r1 then r1 else r0) else some r0)
        else if recordOk t.sec.recKey r1 then some r1 else none) := by
  unfold execBootIdentity
  rw [if_pos (State.atStage_of hphase hstage)]
  extract_lets +onlyGivenNames u hub c v
  rw [if_neg (by decide)]
  extract_lets +onlyGivenNames w ok q seed
  refine ⟨_, rfl, rfl, hphase, ?_⟩
  show seed = _
  unfold seed ok
  cases h0 : recordOk w.sec.recKey r0 with
  | true =>
    cases h1 : recordOk w.sec.recKey r1 with
    | true => rfl
    | false => rfl
  | false => rfl

/-- The seven images as a map. -/
def imageMap (img : Nat → ImgRec) : SMap ImgRec :=
  [(1, img 1), (2, img 2), (3, img 3), (4, img 4), (5, img 5), (6, img 6), (7, img 7)]

theorem get_imageMap (img : Nat → ImgRec) {k : Nat} (h1 : 1 ≤ k) (h7 : k ≤ 7) : get {} (imageMap img) k = img k := by
  interval_cases k <;> rfl

theorem mem_imageMap {img : Nat → ImgRec} {a : ImgRec} (h : a ∈ (imageMap img).map (fun x => x.2)) :
    ∃ k, 1 ≤ k ∧ k ≤ 7 ∧ a = img k := by
  simp only [imageMap, List.map_cons, List.map_nil, List.mem_cons, List.not_mem_nil, or_false] at h
  rcases h with rfl | rfl | rfl | rfl | rfl | rfl | rfl
  · exact ⟨1, by omega, by omega, rfl⟩
  · exact ⟨2, by omega, by omega, rfl⟩
  · exact ⟨3, by omega, by omega, rfl⟩
  · exact ⟨4, by omega, by omega, rfl⟩
  · exact ⟨5, by omega, by omega, rfl⟩
  · exact ⟨6, by omega, by omega, rfl⟩
  · exact ⟨7, by omega, by omega, rfl⟩

theorem mem_bootOrder {k : Nat} (h : k ∈ bootOrder) : 1 ≤ k ∧ k ≤ 7 := by
  simp only [bootOrder, List.mem_cons, List.not_mem_nil, or_false] at h
  omega

theorem compatibleSet_imageMap {img : Nat → ImgRec}
    (h : ∀ j k, 1 ≤ j → j ≤ 7 → 1 ≤ k → k ≤ 7 → compatible (img j) (img k) = true) :
    compatibleSet ((imageMap img).map (fun x => x.2)) = true := by
  unfold compatibleSet
  rw [List.all_eq_true]
  intro a ha
  rw [List.all_eq_true]
  intro b hb
  obtain ⟨j, hj1, hj7, rfl⟩ := mem_imageMap ha
  obtain ⟨k, hk1, hk7, rfl⟩ := mem_imageMap hb
  exact h j k hj1 hj7 hk1 hk7

theorem State.slotImage_fslot {s : State} {slots : List ImageIn} {k n : Nat} {r : ImgRec}
    (h : s.slotImage slots k n = some r) : r.fslot = n := by
  unfold State.slotImage at h
  split at h
  · cases h
  · split at h
    · rw [← Option.some.inj h]
    · cases h

/-- Where each kind verifies in the slot the directory names, the boot order gathers the seven images. -/
theorem firstImages {f : Nat → Nat → Option ImgRec} {named : Nat → Nat} {img : Nat → ImgRec}
    (h : ∀ k, 1 ≤ k → k ≤ 7 → f k (named k) = some (img k)) :
    bootOrder.foldl (fun m k =>
      match f k (named k) with
      | some r => ins m k r
      | none => match f k (1 - named k) with
        | some r => ins m k r
        | none => m) [] = imageMap img := by
  simp only [bootOrder, List.foldl_cons, List.foldl_nil, h 1 (by omega) (by omega), h 2 (by omega) (by omega),
    h 3 (by omega) (by omega), h 4 (by omega) (by omega), h 5 (by omega) (by omega), h 6 (by omega) (by omega),
    h 7 (by omega) (by omega)]
  rfl

/-- Settles O11: with every kind in the slot the directory names and the set compatible, the first set gathered is the active
one and no kind fell back. -/
theorem bootStages : Obligations.BootStages := by
  refine ⟨fun s c0 c1 hphase hstage => ⟨fun a b ha hb => ?_, fun a ha hb => ?_, fun b ha hb => ?_, fun ha hb => ?_⟩,
    fun s slots img hphase hstage hslot hcomp => ?images, fun s r0 r1 hphase hstage => ⟨?_, ?_⟩,
    fun s ms hphase => ⟨fun h4 => ?_, fun h5 hp hr => ?_, fun h5 hp => ?_⟩⟩
  · have hat := State.atStage_of hphase hstage
    by_cases hlt : a.seq < b.seq
    · rw [if_pos hlt, if_pos hlt]
      refine ⟨_, execBootDirectory_chosen hat (by rw [ha, hb]; exact if_pos hlt), rfl, State.moduleState_boot hphase, rfl, rfl, ?_⟩
      rw [ha, hb]
    · rw [if_neg hlt, if_neg hlt]
      refine ⟨_, execBootDirectory_chosen hat (by rw [ha, hb]; exact if_neg hlt), rfl, State.moduleState_boot hphase, rfl, rfl, ?_⟩
      rw [ha, hb]
  · exact ⟨_, execBootDirectory_chosen (State.atStage_of hphase hstage) (by rw [ha, hb]; rfl), rfl, rfl, rfl⟩
  · exact ⟨_, execBootDirectory_chosen (State.atStage_of hphase hstage) (by rw [ha, hb]; rfl), rfl, rfl, rfl⟩
  · obtain ⟨e, he⟩ := execBootDirectory_none (c0 := c0) (c1 := c1) (State.atStage_of hphase hstage)
      (by rw [ha, hb]; rfl)
    exact ⟨_, he, hstage, State.moduleState_boot hphase, rfl⟩
  case images =>
    have hused : bootOrder.filter (fun k => (get {} (imageMap img) k).fslot != s.upd.dirUse.slotOf k) = [] := by
      rw [List.filter_eq_nil_iff]
      intro k hk
      obtain ⟨h1, h7⟩ := mem_bootOrder hk
      simp [get_imageMap img h1 h7, State.slotImage_fslot (hslot k h1 h7)]
    have hexec : ∃ flash inactive, execBootImages slots s = .next { s with
        upd := { s.upd with flash, active := imageMap img, inactive }, power := { s.power with stage := 3 } } := by
      unfold execBootImages
      rw [if_pos (State.atStage_of hphase hstage)]
      extract_lets +onlyGivenNames named f flash first u
      have hfirst : first = imageMap img := firstImages hslot
      clear_value first
      subst hfirst
      rw [if_neg (by simp [imageMap])]
      have hrep (other : Nat → Option ImgRec) : repairSet other bootOrder (imageMap img) = some (imageMap img) :=
        if_pos (compatibleSet_imageMap hcomp)
      simp only [hrep, named, hused, List.isEmpty_nil, if_true, List.foldl_nil]
      exact ⟨_, _, rfl⟩
    obtain ⟨flash, inactive, hexec⟩ := hexec
    exact ⟨_, hexec, rfl, State.moduleState_boot hphase, fun k h1 h7 => get_imageMap img h1 h7, rfl, rfl⟩
  · obtain ⟨t, he, hstage, hphase, hseed⟩ := execBootIdentity_seeded r0 r1 hphase hstage
    exact ⟨t, he, hstage, State.moduleState_boot hphase, hseed⟩
  · obtain ⟨c, e, he⟩ := execBootIdentity_dry r0 r1 (State.atStage_of hphase hstage)
    exact ⟨_, he, hstage, State.moduleState_boot hphase, rfl⟩
  · exact congrArg Host.Outcome.next (if_pos (State.atStage_of hphase h4))
  · exact ⟨_, congrArg Host.Outcome.next (if_pos (by simp [State.atStage_of hphase h5, hp])), by
      simp [State.moduleState, hr], rfl, rfl, rfl, rfl, rfl⟩
  · exact congrArg Host.Outcome.next (if_neg (by simp [hp]))

end Sys2Proof.Machine

/-! ## RUN of the tick, its period and its boundary (R31, R32, R34, R46, R47) -/

namespace Sys2Proof.Machine

set_option Elab.async false

theorem State.startTick_starts {s : State} (hup : s.power.phase = .up) (hlevel : s.reg .hostIfl = s.activeIfLevel)
    (hide : s.reg .ideReq = 0) (hrun : s.tick.running = false) : s.startTick =
      if s.reg .join = 1
      then { s with upd := { s.upd with recDone := false }, torus := { s.torus with member := 0, waiting := true } }
      else { s with upd := { s.upd with recDone := false }, torus := { s.torus with member := 0 }
                    tick := { s.tick with running := true, starting := true, stopReq := false } } := by
  unfold State.startTick
  rw [if_neg (not_not.2 hup), if_neg (not_not.2 hlevel), if_neg (by simp [hide]), if_neg (by simp [hrun])]
  rfl

theorem State.corrected_tick (s : State) (e : Err) : (s.corrected e 0 none).tick = s.tick := by
  obtain ⟨e', h, ht⟩ := s.corrected_errHost e 0 none 0xFFFFFFFF
  rw [show s.corrected e 0 none = _ from ht]

theorem allVats_any_run (s : State) : allVats.any (fun w => (s.vat w).state == .run) = true ↔
    ∃ v : Fin 64, (s.vat v.val).state = .run := by
  rw [List.any_eq_true]
  constructor
  · rintro ⟨w, hw, hrun⟩
    exact ⟨⟨w, List.mem_range.1 hw⟩, by simpa using hrun⟩
  · rintro ⟨v, hrun⟩
    exact ⟨v.val, List.mem_range.2 v.isLt, by simpa using hrun⟩

/-- No plan of an image that is done loading asks for a longer period. -/
theorem plans_any_longer {s : State} {n : Nat} (h : ∀ k : Fin 16, ∀ m ∈ (s.slot k.val).images, m.state ≠ .loading →
    ∀ p, m.plan = some p → p.minPeriod ≤ n) :
    (allSlots.foldl (fun a k => a ++ ((s.slot k).images.filter (fun m => m.state != .loading)).filterMap
      (fun m => m.plan)) []).any (fun p => decide (n < p.minPeriod)) = false := by
  rw [List.foldl_append_eq_append, List.any_eq_false]
  intro p hp
  simp only [List.nil_append, List.mem_flatten, List.mem_map, exists_exists_and_eq_and, List.mem_filterMap, List.mem_filter,
    bne_iff_ne] at hp
  obtain ⟨k, hk, m, ⟨hm, hstate⟩, hplan⟩ := hp
  have := h ⟨k, List.mem_range.1 hk⟩ m hm hstate p hplan
  simpa using this

/-- Settles O15. -/
theorem tickRun : Obligations.TickRun := by
  refine ⟨fun s hup hlevel hide => ⟨fun hrun hjoin => ?starts, fun hrun hjoin => ?waits, fun hrun => ?again⟩,
    fun s hup => ⟨fun hlevel => ⟨?_, State.corrected_tick s _⟩, fun hlevel hide h1 h2 => ⟨?_, State.corrected_tick s _⟩⟩,
    fun s => ?clear, fun s n => ⟨fun hrest => ⟨fun hplans hlo hhi => ?accepted, fun hout => ?outside⟩, fun hrun => ?refused⟩⟩
  case starts =>
    have hstart := (State.startTick_starts hup hlevel hide hrun).trans (if_neg (by rw [hjoin]; decide))
    exact ⟨_, congrArg Host.Outcome.next hstart, rfl, by simp [State.moduleState, hup], rfl, rfl, rfl⟩
  case waits =>
    have hstart := (State.startTick_starts hup hlevel hide hrun).trans (if_pos hjoin)
    exact ⟨_, congrArg Host.Outcome.next hstart, rfl, rfl, rfl, rfl, rfl⟩
  case again =>
    refine congrArg Host.Outcome.next ?_
    unfold State.startTick
    rw [if_neg (not_not.2 hup), if_neg (not_not.2 hlevel), if_neg (by simp [hide]), if_pos hrun]
  · refine congrArg Host.Outcome.next ?_
    unfold State.startTick
    rw [if_neg (not_not.2 hup), if_pos hlevel]
  · refine congrArg Host.Outcome.next ?_
    unfold State.startTick
    rw [if_neg (not_not.2 hup), if_neg (not_not.2 hlevel), if_pos (by simp [hide, h1, h2])]
  case clear =>
    obtain ⟨fs, rs, ps, ht⟩ := State.stopTick_sends { s with torus := { s.torus with waiting := false } }
    exact ⟨_, congrArg Host.Outcome.next ht, rfl, rfl, rfl, rfl, rfl, Tick.stopped_in, Tick.stopped_between⟩
  case accepted =>
    refine congrArg Host.Outcome.next ?_
    unfold State.writePeriod
    rw [if_neg (by rw [allVats_any_run]; exact fun ⟨v, hv⟩ => hrest v hv), if_neg (by omega),
      if_neg (by rw [plans_any_longer hplans]; decide)]
  case outside =>
    obtain ⟨e, h, ht⟩ := s.corrected_errHost .periodRange 0 none 0xFFFFFFFF
    refine ⟨s.corrected .periodRange 0 none, congrArg Host.Outcome.next ?_, ?_⟩
    · unfold State.writePeriod
      rw [if_neg (by rw [allVats_any_run]; exact fun ⟨v, hv⟩ => hrest v hv), if_pos hout]
    · rw [show s.corrected .periodRange 0 none = _ from ht]
  case refused =>
    exact ⟨_, congrArg Host.Outcome.next (if_pos ((allVats_any_run s).2 hrun)),
      congrArg PageRegs.wwr (get_put_same ({} : PageRegs) _ _ _), rfl⟩

/-- Settles O16. -/
theorem boundaryActions : Obligations.BoundaryActions := by
  intro s inp rings t both
  refine ⟨fun hon hrun hin => ⟨by simp [t, Tick.begin], rfl, rfl, ?_⟩, fun hon hrun => ?_, fun h => ?_, fun h => ?_⟩
  · exact congrArg Host.Outcome.next (if_neg (by simp [hon, hrun, hin]))
  · exact congrArg Host.Outcome.next (if_neg (by simp [hon, hrun]))
  · exact congrArg Host.Outcome.next (if_pos (by simpa using h))
  · exact congrArg Host.Outcome.next (if_pos (by simpa using h))

end Sys2Proof.Machine

/-! ## The evaluation phase (R137, R141, R452) -/

namespace Sys2Proof.Machine

set_option Elab.async false

/-- Only the thermal state, the error registers and the host port differ, and what `f` reads of the thermal state does not. -/
def ThermKeeps {α : Type} (f : Therm → α) (s t : State) : Prop :=
  ∃ m e h, t = { s with therm := m, errs := e, host := h } ∧ f m = f s.therm

/-- The count of power values, and what an intermediate strobe saw. -/
def Therm.counts (m : Therm) : Nat × Bool := (m.pCnt, m.hotMid)

/-- The counts and the hottest point. -/
def Therm.reading (m : Therm) : Nat × Bool × Int := (m.pCnt, m.hotMid, m.hi)

namespace ThermKeeps

section
variable {α : Type} {f : Therm → α} {s t u : State}

theorem refl : ThermKeeps f s s := ⟨_, _, _, rfl, rfl⟩

theorem trans (h : ThermKeeps f s t) (h' : ThermKeeps f t u) : ThermKeeps f s u := by
  obtain ⟨m, e, h, rfl, hf⟩ := h
  obtain ⟨m', e', h', rfl, hf'⟩ := h'
  exact ⟨m', e', h', rfl, hf'.trans hf⟩

theorem ite {p : Prop} [Decidable p] (ht : ThermKeeps f s t) (hu : ThermKeeps f s u) :
    ThermKeeps f s (if p then t else u) := by
  split
  · exact ht
  · exact hu

theorem updTherm (h : ThermKeeps Therm.counts s t) {m : Therm} (hcnt : m.pCnt = t.therm.pCnt := by rfl)
    (hmid : m.hotMid = t.therm.hotMid := by rfl) : ThermKeeps Therm.counts s { t with therm := m } :=
  h.trans ⟨m, _, _, rfl, Prod.ext hcnt hmid⟩

theorem updStep (h : ThermKeeps Therm.reading s t) {m : Therm} (hcnt : m.pCnt = t.therm.pCnt := by rfl)
    (hmid : m.hotMid = t.therm.hotMid := by rfl) (hhi : m.hi = t.therm.hi := by rfl) :
    ThermKeeps Therm.reading s { t with therm := m } :=
  h.trans ⟨m, _, _, rfl, Prod.ext hcnt (Prod.ext hmid hhi)⟩

theorem report (h : ThermKeeps f s t) {r : Report} (hc : r.cls = none := by rfl) (h1 : (errInfo r.err).cls = 1 := by rfl)
    (hn : r.named = [] := by rfl) : ThermKeeps f s (t.report r) := by
  obtain ⟨e, x, hx⟩ := t.report_errHost r hc h1 hn
  exact h.trans ⟨t.therm, e, x, hx, rfl⟩

theorem foldl {β : Type} {g : State → β → State} {l : List β} (h : ThermKeeps f s t)
    (hg : ∀ u a, ThermKeeps f s u → ThermKeeps f s (g u a)) : ThermKeeps f s (l.foldl g t) := by
  induction l generalizing t with
  | nil => exact h
  | cons a l ih => exact ih (hg t a h)
end

section
variable {s t : State} (h : ThermKeeps Therm.counts s t)
include h

theorem excludeDiode {n : Nat} : ThermKeeps Therm.counts s (t.excludeDiode n) :=
  ite h (ite (report (updTherm (report h.updTherm))) (report h.updTherm))

theorem dropDead : ThermKeeps Therm.counts s t.dropDead := by
  unfold State.dropDead
  exact h.foldl fun u n h => ite h h.excludeDiode
end
end ThermKeeps

/-- The decision of a step leaves the counts and the hottest point. -/
theorem State.decideStep_keeps (s : State) : ThermKeeps Therm.reading s s.decideStep := by
  unfold State.decideStep
  extract_lets +onlyGivenNames m tooHigh u
  obtain ⟨w, hw, hm⟩ : ∃ w, u = w ∧ ThermKeeps Therm.reading s w :=
    ⟨u, rfl, .ite (ThermKeeps.refl.updStep.report) .refl⟩
  rw [hw]
  extract_lets +onlyGivenNames since hi m' v
  have hv : ThermKeeps Therm.reading s v := .ite hm.updStep hm
  exact .ite (.ite hv.updStep hv.updStep) (.ite hv.updStep (.ite hv.updStep hv.updStep))

/-- The module trips, or takes one power value more and measures. -/
theorem State.evaluate_cases (s : State) (hon : s.coreOn = true) : s.evaluate.power.phase = .shutdown ∨
    ThermKeeps Therm.counts { s with therm :=
      { s.therm with pSum := s.therm.pSum + s.powerNow, pCnt := s.therm.pCnt + 1 } } s.evaluate := by
  have htrip {t u : State} (h : ThermKeeps Therm.counts t u) (ht : t.coreOn = true) (b : Bool) (n : Nat) :
      (u.trip b n).power.phase = .shutdown := by
    have hu : u.coreOn = true := by
      obtain ⟨m, e, h, rfl, -⟩ := h
      exact ht
    unfold State.trip
    rw [if_pos hu]
    exact (u.report_fatal_leaves _ rfl rfl rfl rfl).1
  unfold State.evaluate
  extract_lets +onlyGivenNames img th a b n c incl rl r g pts th' d pt dd top hiTick th'' e f hi th₁ w th₂ x
  have hc : ThermKeeps Therm.counts a c := ThermKeeps.refl.dropDead.foldl fun _ _ h => h.updTherm
  clear_value c
  have hf : ThermKeeps Therm.counts a f := ThermKeeps.foldl (hc.updTherm.updTherm) fun _ _ h =>
    .ite (ThermKeeps.excludeDiode h.updTherm) h.updTherm
  have hw : ThermKeeps Therm.counts a w := .ite (ThermKeeps.report hf.updTherm) (.ite hf.updTherm hf)
  have hx : ThermKeeps Therm.counts a x := .ite (ThermKeeps.report hw.updTherm) hw
  clear_value x
  split
  · exact .inl (htrip hx hon _ _)
  · exact .inr hx

end Sys2Proof.Machine

namespace Sys2Proof.Machine

set_option Elab.async false

theorem State.slipTick_torus (s : State) : ∃ x, s.slipTick = { s with torus := x } := by
  unfold State.slipTick
  split
  · exact ⟨s.torus, rfl⟩
  · exact ⟨_, rfl⟩

theorem State.evaluate_off {s : State} (h : s.evaluate.power.phase = .shutdown) : s.evaluate.coreOn = false := by
  unfold State.coreOn; rw [h]; rfl

theorem State.evalPhase_trips {s : State} (hload : s.reloading (seqCode .therm) = false)
    (hoff : s.evaluate.coreOn = false) : s.evalPhase = s.evaluate :=
  (if_neg (by simp [hload])).trans (if_pos (by simp [hoff]))

/-- The thermal state after an evaluation phase. -/
def Therm.decided (m : Therm) (fast : Bool) : Therm := { m with fastNext := fast, hotMid := false }

/-- The state an evaluation phase selects the rate in. -/
def State.evaluated (s : State) : State := if s.evaluate.therm.fast then s.evaluate else s.evaluate.decideStep

theorem State.evalPhase_measures {s : State} (hload : s.reloading (seqCode .therm) = false)
    (hon : s.evaluate.coreOn = true) : s.evalPhase =
      { s.evaluated with therm := s.evaluated.therm.decided s.evaluated.selectFast } := by
  unfold State.evalPhase State.evaluated Therm.decided
  generalize s.evaluate = u at hon
  rw [if_neg (by simp [hload])]
  exact if_neg (by simp [hon])

theorem State.decideStep_reading (s : State) : ∃ m e h, s.decideStep = { s with therm := m, errs := e, host := h } ∧
    m.pCnt = s.therm.pCnt ∧ m.hotMid = s.therm.hotMid ∧ m.hi = s.therm.hi := by
  obtain ⟨m, e, h, hd, hreading⟩ := s.decideStep_keeps
  obtain ⟨hcnt, hrest⟩ := Prod.ext_iff.1 hreading
  obtain ⟨hmid, hhi⟩ := Prod.ext_iff.1 hrest
  exact ⟨m, e, h, hd, hcnt, hmid, hhi⟩

theorem State.evaluate_reading {s : State} (hon : s.coreOn = true) : s.evaluate.power.phase = .shutdown ∨
    ∃ m e h, s.evaluate = { s with therm := m, errs := e, host := h } ∧ m.pCnt = s.therm.pCnt + 1 ∧
      m.hotMid = s.therm.hotMid :=
  (s.evaluate_cases hon).imp_right fun ⟨m, e, h, hu, hcounts⟩ => ⟨m, e, h, hu, Prod.ext_iff.1 hcounts⟩

theorem State.evaluated_keeps {s : State} {m : Therm} {e : ErrState} {h : HostPort}
    (hu : s.evaluate = { s with therm := m, errs := e, host := h }) (hcnt : m.pCnt = s.therm.pCnt + 1)
    (hmid : m.hotMid = s.therm.hotMid) : ∃ m e h, s.evaluated = { s with therm := m, errs := e, host := h } ∧
      m.pCnt = s.therm.pCnt + 1 ∧ m.hotMid = s.therm.hotMid := by
  unfold State.evaluated
  split
  · exact ⟨m, e, h, hu, hcnt, hmid⟩
  · obtain ⟨m', e', h', hd, hcnt', hmid', -⟩ := s.evaluate.decideStep_reading
    rw [hu] at hd hcnt' hmid'
    exact ⟨m', e', h', by rw [hu]; exact hd, hcnt'.trans hcnt, hmid'.trans hmid⟩

/-- What an evaluation phase leaves that neither meets a reload nor trips. -/
theorem State.evalPhase_leaves {s : State} (hon : s.coreOn = true) (hload : s.reloading (seqCode .therm) = false) :
    s.evalPhase.power.phase = .shutdown ∨ ∃ m e h, s.evalPhase = { s with therm := m, errs := e, host := h } ∧
      m.pCnt = s.therm.pCnt + 1 ∧ m.hotMid = false ∧ m.fastNext = (decide (degrees 2192 ≤ m.hi) || s.therm.hotMid ||
        m.degraded || s.reg .forceFast == 1) := by
  rcases State.evaluate_reading hon with hoff | ⟨m, e, h, hu, hcnt, hmid⟩
  · rw [State.evalPhase_trips hload (State.evaluate_off hoff)]
    exact .inl hoff
  · have honu : s.evaluate.coreOn = true := by
      rw [hu]
      exact hon
    obtain ⟨m, e, h, hv, hcnt, hmid⟩ := State.evaluated_keeps hu hcnt hmid
    rw [State.evalPhase_measures hload honu, hv]
    refine .inr ⟨_, e, h, rfl, hcnt, rfl, ?_⟩
    have hload' : get 0 s.reloads (seqCode .therm) = 0 := by simpa [State.reloading] using hload
    simp [Therm.decided, State.selectFast, State.reloading, hmid, hload', State.reg, Therm.degraded]

/-- Settles the first part of O17: the evaluation phase. -/
theorem evaluationPhase_leaves {s : State} (hstage : s.tick.stage = .started) (hon : s.coreOn = true) :
    (s.reloading (seqCode .therm) = false → NextIs (execEvaluationPhase s) (fun t => t.moduleState = 5 ∨
      (t.coreOn = true ∧ t.tick = { s.tick with stage := .evaluated } ∧ t.therm.pCnt = s.therm.pCnt + 1 ∧
        t.therm.fastNext = (decide (degrees 2192 ≤ t.therm.hi) || s.therm.hotMid || t.therm.degraded ||
          s.reg .forceFast == 1) ∧
        t.therm.hotMid = false ∧
        t = { s with therm := t.therm, tick := t.tick, torus := t.torus, errs := t.errs, host := t.host }))) ∧
    (s.reloading (seqCode .therm) = true → s.torus.member = 0 → execEvaluationPhase s = .next { s with
      tick := { s.tick with stage := .evaluated }, therm := { s.therm with fastNext := true } }) := by
  refine ⟨fun hload => ?_, fun hload hmember => ?_⟩
  · obtain ⟨x, hx⟩ := (s.enterStage .evaluated).slipTick_torus
    refine ⟨_, congrArg Host.Outcome.next (if_pos hstage), ?_⟩
    rw [hx]
    rcases State.evalPhase_leaves (s := { s.enterStage .evaluated with torus := x }) hon hload with hoff | hleaves
    · exact .inl (State.moduleState_shutdown hoff)
    · obtain ⟨m, e, h, ht, hcnt, hmid, hfast⟩ := hleaves
      rw [ht]
      exact .inr ⟨hon, rfl, hcnt, hfast, hmid, rfl⟩
  · refine congrArg Host.Outcome.next ((if_pos hstage).trans ?_)
    have hslip : (s.enterStage .evaluated).slipTick = s.enterStage .evaluated := if_pos hmember
    rw [hslip]
    exact if_pos hload

/-! ## Intermediate strobes (R137, R141) -/

/-- The corrected value of an analogue channel (R137). -/
def State.channelValue (s : State) (cal : CalConst) (raw : List Nat) (c : Nat) : Nat :=
  let x := get {} s.therm.tconv (s.therm.convOf c)
  correctTelem (nth raw c % 4096) x.tofs x.tgain (get 0 cal.chOfs c) (get 0 cal.chGain c)

/-- The corrected values of the first `n` channels are stored, and nothing else changes. -/
theorem State.storeTelem_range (s : State) (k : Nat) (cal : CalConst) (raw : List Nat) : ∀ n, ∃ m,
    (List.range n).foldl (fun s c => s.storeTelem c k (s.channelValue cal raw c)) s =
      { s with therm := { s.therm with telem := m } } ∧
    (∀ c, c < n → get {} m c = { valid := true, strobe := k, tick := s.tick.now % 65536, value := s.channelValue cal raw c }) ∧
    ∀ c, n ≤ c → get {} m c = get {} s.therm.telem c
  | 0 => ⟨s.therm.telem, rfl, fun c hc => absurd hc (by omega), fun _ _ => rfl⟩
  | n + 1 => by
    obtain ⟨m, hm, hnew, hold⟩ := State.storeTelem_range s k cal raw n
    rw [List.range_succ, List.foldl_append, hm]
    refine ⟨_, rfl, fun c hc => ?_, fun c hc => ?_⟩
    · by_cases h : c = n
      · subst h; exact get_put_same _ _ _ _
      · exact (get_put_ne _ _ _ (Ne.symm h)).trans (hnew c (by omega))
    · exact (get_put_ne _ _ _ (by omega)).trans (hold c (by omega))

theorem State.takeTelem_mid {k : Nat} (s : State) (inp : StrobeIn) (hk : k ≠ 0) : s.takeTelem k inp =
    let cal := (s.activeImage 4).cal
    (List.range (min 194 inp.raw.length)).foldl (fun s c => s.storeTelem c k (s.channelValue cal inp.raw c)) s := by
  unfold State.takeTelem State.channelValue
  rw [if_pos hk, if_pos hk]

theorem State.midStrobe_reloads {s : State} {k : Nat} (inp : StrobeIn)
    (h : (s.takeTelem k inp).reloading (seqCode .therm) = true) : s.midStrobe k inp = s.takeTelem k inp := if_pos h

/-- The thermal state after an intermediate strobe's evaluation: at 97 °C or above it is remembered. -/
def State.sawHot (s : State) : State :=
  if degrees 2192 ≤ s.therm.hi then { s with therm := { s.therm with hotMid := true } } else s

theorem State.sawHot_eq (s : State) : s.sawHot =
    { s with therm := { s.therm with hotMid := s.therm.hotMid || decide (degrees 2192 ≤ s.therm.hi) } } := by
  unfold State.sawHot
  split
  next h => rw [decide_eq_true h, Bool.or_true]
  next h => rw [decide_eq_false h, Bool.or_false]

theorem State.midStrobe_evaluates {s u : State} {k : Nat} (inp : StrobeIn) (hu : s.takeTelem k inp = u)
    (h : u.reloading (seqCode .therm) = false) : s.midStrobe k inp =
      if !u.evaluate.coreOn then u.evaluate
      else if k = 7 ∧ u.evaluate.sawHot.tick.inTick then u.evaluate.sawHot.decideStep else u.evaluate.sawHot := by
  unfold State.midStrobe
  rw [hu]
  extract_lets +onlyGivenNames v
  rw [if_neg (show ¬v.reloading (seqCode .therm) = true by simp [v, h]), show v = u from rfl]
  generalize u.evaluate = w
  unfold State.sawHot
  rfl

/-- Settles O18: the values an intermediate strobe stores are those of R137's correction with the converter in place
(log entry 45). -/
theorem intermediateStrobes : Obligations.IntermediateStrobes := by
  intro s k inp
  refine ⟨fun h => congrArg Host.Outcome.next (if_pos ?_), fun hk hfast hwhen => ?_⟩
  · rcases h with rfl | h
    · exact .inl rfl
    · exact .inr (by simp [h])
  have hk0 : k.val ≠ 0 := fun h => hk (Fin.ext h)
  have hexec : execIntermediateStrobe k inp s = .next (s.midStrobe k.val inp) := by
    refine congrArg Host.Outcome.next (if_neg ?_)
    rintro (h | h)
    · exact hk0 h
    · rcases hwhen with hw | hw <;> simp [State.midStrobes, hfast, hw] at h
  obtain ⟨m, htelem, hnew, hold⟩ := s.storeTelem_range k.val (s.activeImage 4).cal inp.raw (min 194 inp.raw.length)
  rw [← s.takeTelem_mid inp hk0] at htelem
  refine ⟨fun hon hload => ?evaluates, fun hload => ?reloads⟩
  case reloads =>
    refine ⟨_, hexec, ?_⟩
    rw [State.midStrobe_reloads inp (by rw [htelem]; exact hload), htelem]
    exact ⟨rfl, fun c h1 h2 => hnew c (by omega), fun c hc => hold c (by omega)⟩
  case evaluates =>
    refine ⟨_, hexec, ?_⟩
    rw [State.midStrobe_evaluates inp htelem hload]
    have hcases := State.evaluate_reading (s := { s with therm := { s.therm with telem := m } }) hon
    generalize State.evaluate _ = v at hcases ⊢
    rcases hcases with hoff | ⟨m', e, h, hv, hcnt, hmid⟩
    · rw [if_pos (by simp [State.coreOn, hoff])]
      exact .inl (State.moduleState_shutdown hoff)
    · have hv' : v = { s with therm := m', errs := e, host := h } := hv
      have honv : v.coreOn = true := by
        rw [hv']
        exact hon
      refine .inr ?_
      rw [if_neg (by simp [honv]), hv', State.sawHot_eq]
      split
      · obtain ⟨m'', e'', h'', hd, hcnt', hmid', hhi⟩ := State.decideStep_reading { s with
          therm := { m' with hotMid := m'.hotMid || decide (degrees 2192 ≤ m'.hi) }, errs := e, host := h }
        rw [hd]
        refine ⟨hon, hcnt'.trans hcnt, ?_, rfl⟩
        show m''.hotMid = (s.therm.hotMid || decide (degrees 2192 ≤ m''.hi))
        rw [hmid', hhi, ← hmid]
      · refine ⟨hon, hcnt, ?_, rfl⟩
        rw [← hmid]

end Sys2Proof.Machine

/-! ## The allocation and publication phases (R35 to R39, R199) -/

namespace Sys2Proof.Machine

set_option Elab.async false

/-- The groups of the list go to RECAL, and nothing but the groups changes. -/
theorem State.foldl_recal : ∀ (l : List (Nat × Nat)) (s : State), ∃ gs,
    l.foldl (fun s x => s.modGroup x.1 x.2 (fun g => { g with state := .recal, recalNext := false })) s =
      { s with groups := gs } ∧
    ∀ k, (∃ x ∈ l, groupKey x.1 x.2 = k) ∨ (get {} s.groups k).state = .recal → (get {} gs k).state = .recal
  | [], s => ⟨s.groups, rfl, fun k h => by simpa using h⟩
  | x :: l, s => by
    obtain ⟨gs, hfold, hrecal⟩ := State.foldl_recal l
      (s.modGroup x.1 x.2 (fun g => { g with state := .recal, recalNext := false }))
    refine ⟨gs, hfold, fun k h => hrecal k ?_⟩
    by_cases hk : groupKey x.1 x.2 = k
    · right
      rw [← hk]
      exact congrArg Group.state (get_put_same ({} : Group) s.groups (groupKey x.1 x.2)
        { s.group x.1 x.2 with state := .recal, recalNext := false })
    · rcases h with ⟨y, hy, hyk⟩ | h
      · rcases List.mem_cons.1 hy with rfl | hy
        · exact absurd hyk hk
        · exact .inl ⟨y, hy, hyk⟩
      · right
        rw [← h]
        exact congrArg Group.state (get_put_ne ({} : Group) s.groups _ hk)

theorem State.watermarkRecal_leaves (s : State) : ∃ gs, s.watermarkRecal = { s with groups := gs } ∧
    ∀ x ∈ s.groupList, (s.group x.1 x.2).recalNext = true → (get {} gs (groupKey x.1 x.2)).state = .recal := by
  obtain ⟨gs, hfold, hrecal⟩ := State.foldl_recal (s.groupList.filter (fun x => (s.group x.1 x.2).recalNext)) s
  exact ⟨gs, hfold, fun x hx hnext => hrecal _ (.inl ⟨x, List.mem_filter.2 ⟨hx, hnext⟩, rfl⟩)⟩

/-- Every deckle of the list has its share of the cap, and nothing but the deckles changes. -/
theorem State.foldl_deckCap : ∀ (l : List Nat) (s : State), ∃ ds,
    l.foldl (fun s d => s.modDeckle d (fun k => { k with capLeft := s.deckCap d })) s = { s with deckles := ds } ∧
    ∀ d, get {} ds d = if d ∈ l then { s.deckle d with capLeft := s.deckCap d } else s.deckle d
  | [], s => ⟨s.deckles, rfl, fun d => by simp [State.deckle]⟩
  | a :: l, s => by
    obtain ⟨ds, hfold, hget⟩ := State.foldl_deckCap l (s.modDeckle a (fun k => { k with capLeft := s.deckCap a }))
    have hcap (d : Nat) : (s.modDeckle a (fun k => { k with capLeft := s.deckCap a })).deckCap d = s.deckCap d := rfl
    refine ⟨ds, hfold, fun d => ?_⟩
    rw [hget d, hcap d, State.deckle_modDeckle]
    by_cases hd : a = d
    · subst hd
      simp
    · simp [hd, Ne.symm hd]

theorem allocationPhase_leaves {s : State} (hstage : s.tick.stage = .evaluated)
    (hclosed : ∀ d : Fin 16, (s.deckle d.val).opened = false) :
    ∃ ds gs, execAllocationPhase s = .next { s with tick := { s.tick with stage := .execution }
                                                    sched := { s.sched with capNow := s.capTotal }, deckles := ds, groups := gs } ∧
      (∀ d : Fin 16, get {} ds d.val = { s.deckle d.val with capLeft := s.deckCap d.val }) ∧
      ∀ x ∈ s.groupList, (s.group x.1 x.2).recalNext = true → (get {} gs (groupKey x.1 x.2)).state = .recal := by
  obtain ⟨gs, hrecal, hgroups⟩ := State.watermarkRecal_leaves { s with
    tick := { s.tick with stage := .execution }, sched := { s.sched with capNow := s.capTotal } }
  obtain ⟨ds, hcap, hget⟩ := State.foldl_deckCap allDeckles { s with
    tick := { s.tick with stage := .execution }, sched := { s.sched with capNow := s.capTotal }, groups := gs }
  have hds (d : Fin 16) : get {} ds d.val = { s.deckle d.val with capLeft := s.deckCap d.val } :=
    (hget d.val).trans (if_pos (List.mem_range.2 d.isLt))
  refine ⟨ds, gs, ?_, hds, hgroups⟩
  have hnone : allDeckles.filter (fun d => (get {} ds d).opened) = [] := by
    rw [List.filter_eq_nil_iff]
    intro d hd
    rw [hds ⟨d, List.mem_range.1 hd⟩]
    simp [hclosed ⟨d, List.mem_range.1 hd⟩]
  have hend (u : State) (hopen : allDeckles.filter (fun d => (u.deckle d).opened) = []) :
      (let open_ := allDeckles.filter (fun d => (u.deckle d).opened)
       let u := open_.foldl (fun s d => s.serveSwaps d) u
       if u.reloading (seqCode .sched) then u
       else
         let u := open_.foldl (fun s d => s.runReady d 200 d) u
         open_.foldl (fun s l => s.offer (fun s e => s.runReady e 200 l) l 200) u) = u := by
    simp only [hopen, List.foldl_nil, ite_self]
  unfold execAllocationPhase State.allocate
  rw [if_neg (not_not.2 hstage)]
  refine congrArg Host.Outcome.next ?_
  extract_lets +onlyGivenNames tick u sched v w x
  have hx : x = { s with tick := { s.tick with stage := .execution }, sched := { s.sched with capNow := s.capTotal }
                         deckles := ds, groups := gs } := by
    have hw : w = _ := hrecal
    unfold x
    rw [hw]
    exact hcap
  rw [← hx]
  exact hend x (by rw [hx]; exact hnone)

end Sys2Proof.Machine

namespace Sys2Proof.Machine

set_option Elab.async false

/-- The tick and the supplies stay. -/
def SameTick (s t : State) : Prop := t.tick = s.tick ∧ t.power = s.power

namespace SameTick

section
variable {s t : State}

theorem refl : SameTick s s := ⟨rfl, rfl⟩

theorem trans {u : State} (h : SameTick s t) (h' : SameTick t u) : SameTick s u :=
  ⟨h'.1.trans h.1, h'.2.trans h.2⟩

theorem foldl {α : Type} {f : State → α → State} {l : List α} (h : SameTick s t)
    (hf : ∀ u a, SameTick u (f u a)) : SameTick s (l.foldl f t) := by
  induction l generalizing t with
  | nil => exact h
  | cons a l ih => exact ih (h.trans (hf t a))
end
end SameTick

theorem WorkEnds.sameTick {s t : State} (h : WorkEnds s t) : SameTick s t := by
  obtain ⟨e, x, ds, sc, ss, r, rfl⟩ := h
  exact ⟨rfl, rfl⟩

theorem State.endChunk_workEnds (s : State) (t : StepRec) (time : Nat) : WorkEnds s (s.endChunk t time) := by
  unfold State.endChunk
  extract_lets +onlyGivenNames u i
  have hu : WorkEnds s u := ⟨_, _, _, _, _, _, rfl⟩
  split
  · exact hu
  · extract_lets x n c rest log log' v w
    have hw : WorkEnds s w := (hu.trans (u.publish_workEnds ..)).trans (v.modSession_workEnds ..)
    split
    · exact hw
    · exact (hw.trans (w.endActive_workEnds ..)).trans (State.startWaiting_workEnds ..)

theorem State.ringSkip_sameTick (s : State) (i : Nat) : SameTick s (s.ringSkip i) := by
  unfold State.ringSkip
  extract_lets n
  split
  · exact .refl
  · exact (s.endChunk_workEnds _ _).sameTick

theorem State.setCommit_sameTick (s : State) (i n : Nat) : SameTick s (s.setCommit i n) := by
  unfold State.setCommit
  extract_lets
  split
  · exact ⟨rfl, rfl⟩
  · exact ⟨rfl, rfl⟩

theorem State.commitLengths_sameTick (s : State) : SameTick s s.commitLengths := by
  unfold State.commitLengths
  extract_lets u
  refine .foldl (.foldl .refl fun t i => t.ringSkip_sameTick i) fun t i => ?_
  extract_lets x
  split
  · exact .refl
  · exact State.setCommit_sameTick _ i _

/-- A deckle's publication writes its queue and raises vectors. -/
theorem State.publishDeckle_leaves (s : State) (d : Nat) : ∃ ds h, (s.publishDeckle d).1 = { s with deckles := ds, host := h } := by
  have vector {t : State} (h : ∃ ds h, t = { s with deckles := ds, host := h }) (b : Bool) (fn v : Nat) :
      ∃ ds h, (if b then t.raiseVector fn v else t) = { s with deckles := ds, host := h } := by
    split
    · obtain ⟨ds, h, rfl⟩ := h
      obtain ⟨fs, rs, ps, hv⟩ := State.raiseVector_sends { s with deckles := ds, host := h } fn v
      exact ⟨ds, _, hv⟩
    · exact h
  unfold State.publishDeckle
  exact vector (vector ⟨_, _, rfl⟩ _ _ _) _ _ _

theorem State.publishAll_leaves (s : State) : ∃ ds h, s.publishAll.1 = { s with deckles := ds, host := h } := by
  have all (l : List Nat) (a : State × List (Nat × PubOut)) (ha : ∃ ds h, a.1 = { s with deckles := ds, host := h }) :
      ∃ ds h, (l.foldl (fun (a : State × List (Nat × PubOut)) d =>
        ((a.1.publishDeckle d).1, a.2 ++ (a.1.publishDeckle d).2)) a).1 = { s with deckles := ds, host := h } := by
    induction l generalizing a with
    | nil => exact ha
    | cons d l ih =>
      refine ih _ ?_
      obtain ⟨ds, h, hd⟩ := a.1.publishDeckle_leaves d
      obtain ⟨ds', h', ha⟩ := ha
      exact ⟨ds, h, by rw [hd, ha]⟩
  exact all _ (s, []) ⟨s.deckles, s.host, rfl⟩

theorem State.writeAll_leaves (s : State) : ∃ ds h m, s.writeAll = { s with deckles := ds, host := h, therm := m } := by
  obtain ⟨ds, h, hp⟩ := s.publishAll_leaves
  unfold State.writeAll
  generalize s.publishAll = p at hp ⊢
  obtain ⟨u, l⟩ := p
  dsimp -zeta only
  extract_lets +onlyGivenNames l' v th w
  have hv : ∃ h', v = { s with deckles := ds, host := h' } := by
    have hsend : Sends u v := Sends.foldl (fun t x => ⟨_, _, _, rfl⟩) l' u
    obtain ⟨fs, rs, ps, hsend⟩ := hsend
    have hp' : u = _ := hp
    rw [hsend, hp']
    exact ⟨_, rfl⟩
  obtain ⟨h', hv⟩ := hv
  have hw : ∃ h' m, w = { s with deckles := ds, host := h', therm := m } := by
    unfold w th
    rw [hv]
    split
    · obtain ⟨fs, rs, ps, hr⟩ := State.raiseVector_sends { s with
        deckles := ds, host := h', therm := { s.therm with stepSaid := false } } 0 3
      exact ⟨_, _, hr⟩
    · exact ⟨h', s.therm, rfl⟩
  obtain ⟨h'', m, hw⟩ := hw
  obtain ⟨fs, rs, ps, hend⟩ := w.flushPf_sends.trans w.flushPf.sendVectors_sends
  rw [show w.flushPf.sendVectors = _ from hend, hw]
  exact ⟨ds, _, m, rfl⟩

theorem State.overrunAll_none {s : State} (h : ∀ o ∈ s.sched.ops, o.state = .waiting → o.reissue = true) :
    s.overrunAll = s := by
  have hnone : s.sched.ops.filter (fun o => o.state == .waiting && !o.reissue) = [] := by
    rw [List.filter_eq_nil_iff]
    intro o ho
    simp only [Bool.and_eq_true, beq_iff_eq, Bool.not_eq_true', not_and, Bool.not_eq_false]
    exact h o ho
  unfold State.overrunAll
  rw [hnone, List.foldl_nil]

/-- Settles O17. -/
theorem phasesComplete : Obligations.PhasesComplete := by
  intro s
  refine ⟨fun hstage hon => evaluationPhase_leaves hstage hon, fun h => congrArg Host.Outcome.next (if_neg h),
    fun hstage hclosed => ?allocation, fun h => congrArg Host.Outcome.next (if_pos h),
    fun hstage hon hnone => ?publication, fun h => congrArg Host.Outcome.next (if_pos h)⟩
  case allocation =>
    obtain ⟨ds, gs, hexec, hds, hgs⟩ := allocationPhase_leaves hstage hclosed
    exact ⟨_, hexec, rfl, rfl, hds, hgs, rfl⟩
  case publication =>
    have hexec : execPublicationPhase s = .next s.commitLengths.freeEntries.writeAll.showSessions.endTick := by
      unfold execPublicationPhase State.publication
      rw [if_neg (not_not.2 hstage), State.overrunAll_none hnone]
      exact congrArg Host.Outcome.next (if_pos hon)
    obtain ⟨htick, hpower⟩ := s.commitLengths_sameTick
    obtain ⟨ds, h, m, hwrite⟩ := s.commitLengths.freeEntries.writeAll_leaves
    refine ⟨_, hexec, ?_⟩
    rw [hwrite]
    refine ⟨?_, rfl, fun o ho => ?_, rfl, hpower⟩
    · exact congrArg (fun t : Tick => { t with
        inTick := false, stage := .outside, stopReq := false, running := t.running && !t.stopReq }) htick
    · simpa using (List.mem_filter.1 ho).2

end Sys2Proof.Machine

/-! ## Operations of the scoreboard (R42, R43, R49, R220, R231 to R234, R243, R367, R460) -/

namespace Sys2Proof.Machine

set_option Elab.async false

/-! ### The frame of an operation's event -/

section
variable {s u : State} {r : OpRef} {typ : OpType} {o : OpRec} {t : StepRec} {m : Template}
  {f : State → OpRec → StepRec → Template → Except (Report × List Nat) State} {fin : State → OpRec → Nat → State}

/-- An operation that may end, on its own tiles and pages and without a fault, is its work and its end. -/
theorem State.runWith_ok (h : s.Runs r typ o t m) (hw : f s o t m = .ok u) : s.runWith r typ f fin = fin u o r.time := by
  obtain ⟨hop, hstep, htmpl, htyp, hend, htile, hkv, hweb, hfault⟩ := h
  simp [State.runWith, hop, hstep, htmpl, htyp, hend, htile, hkv, hweb, hfault, State.opFault, State.softFault, hw]

theorem State.runWith_error {rep : Report} {named : List Nat} (h : s.Runs r typ o t m) (hw : f s o t m = .error (rep, named)) :
    s.runWith r typ f fin = s.failOp o rep named r.time := by
  obtain ⟨hop, hstep, htmpl, htyp, hend, htile, hkv, hweb, hfault⟩ := h
  simp [State.runWith, hop, hstep, htmpl, htyp, hend, htile, hkv, hweb, hfault, State.opFault, State.softFault, hw]

/-- Outside its time an operation's event changes nothing. -/
theorem State.runWith_early (hop : s.opAt r.deckle.val r.seq = some o) (hstep : s.stepOf o.deckle o.step = some t)
    (htmpl : o.tmpl = some m) (hend : s.mayEnd o r.time = false) : s.runWith r typ f fin = s := by
  simp only [State.runWith, hop, hstep, htmpl]
  exact if_pos (.inr (by simp [hend]))

theorem State.runCtx_early {f : State → OpRec → StepRec → Except (Report × List Nat) State}
    (hop : s.opAt r.deckle.val r.seq = some o) (hstep : s.stepOf o.deckle o.step = some t)
    (hend : s.mayEnd o r.time = false) : s.runCtx r typ f fin = s := by
  simp only [State.runCtx, hop, hstep]
  exact if_pos (.inr (by simp [hend]))
end

/-- Settles O19: every type runs inside one frame. -/
theorem operationsComplete : Obligations.OperationsComplete := by
  intro s u r o t m fs sm peer rep named ends
  have ended {c : Instr} {typ : OpType} {f : State → OpRec → StepRec → Template → Except (Report × List Nat) State}
      (hc : exec c s = .next (s.runOp r typ f)) : ends c typ (f s o t m) := fun h =>
    ⟨fun hw => hc.trans (congrArg Host.Outcome.next (State.runWith_ok h hw)),
      fun hw => hc.trans (congrArg Host.Outcome.next (State.runWith_error h hw))⟩
  have hsample : exec (.sample r) s = .next (s.runOp r .sample (fun s o t m =>
      eachVec (State.sampleVec o m (((s.stepImage t).map (fun i => i.vocab)).getD 0)) (tmplVecs t m) s)) := rfl
  refine ⟨ended (f := passWork fs sm) rfl, ended (f := passWork fs sm) rfl,
    ended (f := fun s o t m => eachVec (State.sizeVec o t m) (tmplVecs t m) s) rfl, ended (f := attnWork) rfl,
    ended (f := fun s o t m => eachVec (State.vectorVec o t m) (tmplVecs t m) s) rfl,
    ended (f := fun s o t m => eachVec (State.appendVec o t m) (tmplVecs t m) s) rfl,
    ended hsample, fun h => ⟨fun hw hx => ?_, fun hw => ?_⟩,
    fun hop hstep htmpl hend c hc => ?early⟩
  · refine congrArg Host.Outcome.next ((State.runWith_ok h hw).trans ?_)
    exact if_neg (by simp [hx])
  · exact congrArg Host.Outcome.next (State.runWith_error h hw)
  case early =>
    simp only [List.mem_cons, List.not_mem_nil, or_false] at hc
    rcases hc with rfl | rfl | rfl | rfl | rfl | rfl | rfl | rfl | rfl | rfl
    case' inr.inr.inr.inr.inr.inr.inr.inr.inl => exact congrArg Host.Outcome.next (State.runCtx_early hop hstep hend)
    case' inr.inr.inr.inr.inr.inr.inr.inr.inr => exact congrArg Host.Outcome.next (State.runCtx_early hop hstep hend)
    all_goals exact congrArg Host.Outcome.next (State.runWith_early hop hstep htmpl hend)

/-! ### Entries of the scoreboard and steps of a deckle -/

section
variable {s : State} {d seq : Nat} {o : OpRec}

/-- The entry of a change that keeps deckle and number. -/
theorem State.opAt_modOp_same {f : OpRec → OpRec} (h : s.opAt d seq = some o)
    (hf : ∀ x : OpRec, (f x).deckle = x.deckle ∧ (f x).seq = x.seq) : (s.modOp d seq f).opAt d seq = some (f o) := by
  unfold State.opAt State.modOp at *
  generalize s.sched.ops = l at h
  show (l.map _).find? _ = _
  rw [List.find?_map]
  have hkey : ((fun x : OpRec => x.deckle == d && x.seq == seq) ∘
      fun x => if x.deckle == d && x.seq == seq then f x else x) = fun x : OpRec => x.deckle == d && x.seq == seq := by
    funext x
    simp only [Function.comp]
    split
    · rw [(hf x).1, (hf x).2]
    · rfl
  rw [hkey, h]
  have ho := List.find?_some h
  simp only [Option.map_some]
  rw [if_pos ho]

theorem State.opAt_modOp_ne {e n : Nat} {f : OpRec → OpRec} (hne : e ≠ d ∨ n ≠ seq)
    (hf : ∀ x : OpRec, (f x).deckle = x.deckle ∧ (f x).seq = x.seq) : (s.modOp d seq f).opAt e n = s.opAt e n := by
  unfold State.opAt State.modOp
  generalize s.sched.ops = l
  show (l.map _).find? _ = _
  rw [List.find?_map]
  have hkey : ((fun x : OpRec => x.deckle == e && x.seq == n) ∘
      fun x => if x.deckle == d && x.seq == seq then f x else x) = fun x : OpRec => x.deckle == e && x.seq == n := by
    funext x
    simp only [Function.comp]
    split
    · rw [(hf x).1, (hf x).2]
    · rfl
  rw [hkey]
  cases hfind : l.find? (fun x : OpRec => x.deckle == e && x.seq == n) with
  | none => rfl
  | some x =>
    have hx := List.find?_some hfind
    simp only [Bool.and_eq_true, beq_iff_eq] at hx
    rw [Option.map_some, if_neg]
    simp only [Bool.and_eq_true, beq_iff_eq]
    omega

theorem State.opAt_key (h : s.opAt d seq = some o) : o.deckle = d ∧ o.seq = seq := by
  have := List.find?_some h
  simpa using this

/-- The step put back under its own number is the one read. -/
theorem State.stepOf_putStep {t u : StepRec} (h : s.stepOf u.deckle u.id = some t) : (s.putStep u).stepOf u.deckle u.id = some u := by
  unfold State.putStep State.stepOf at *
  rw [State.deckle_modDeckle_same]
  have hmem := List.mem_of_find?_eq_some h
  have hid : (t.id == u.id) = true := List.find?_some (p := fun t : StepRec => t.id == u.id) h
  rw [if_pos (List.any_eq_true.2 ⟨t, hmem, hid⟩), List.find?_map]
  have hkey : ((fun x : StepRec => x.id == u.id) ∘ fun x => if x.id = u.id then u else x) = fun x : StepRec => x.id == u.id := by
    funext x
    simp only [Function.comp]
    split
    next h => simp [h]
    next => rfl
  rw [hkey, h, Option.map_some, if_pos (by simpa using hid)]
end

/-! ### The end of an operation whose segment has others open -/

/-- The step after one of its operations ended. -/
def StepRec.without (t : StepRec) (o : OpRec) : StepRec :=
  { t with open_ops := t.open_ops - 1
           bind := t.bind.filter (fun b => !((o.tmpl.map (fun m => m.release)).getD []).contains b.1) }

theorem State.endOp_open {s : State} {o : OpRec} {t : StepRec} (time : Nat) (hop : s.opAt o.deckle o.seq = some o)
    (hstep : s.stepOf o.deckle o.step = some t) (hdeckle : t.deckle = o.deckle) (hopen : 1 < t.open_ops) :
    (s.endOp o time).Done o ∧ (s.endOp o time).stepOf o.deckle o.step = some (t.without o) ∧
    s.endOp o time = { s with sched := (s.endOp o time).sched, deckles := (s.endOp o time).deckles } ∧
    ∀ d, d ≠ o.deckle → (s.endOp o time).deckle d = s.deckle d := by
  have hid : t.id = o.step := by simpa using List.find?_some hstep
  have hend : s.endOp o time = (releaseTiles (t.bind.filter (fun b => ((o.tmpl.map (fun m => m.release)).getD []).contains b.1))
      (s.modOp o.deckle o.seq (fun x => { x with state := .complete, retry := 0 }))).putStep (t.without o) := by
    unfold State.endOp
    have hstep' : (s.modOp o.deckle o.seq (fun x => { x with state := .complete, retry := 0 })).stepOf o.deckle o.step = some t :=
      hstep
    simp only [hstep']
    exact if_neg (show ¬t.open_ops - 1 = 0 by omega)
  rw [hend]
  refine ⟨State.opAt_modOp_same (s := s) hop fun x => ⟨rfl, rfl⟩, ?_, rfl, fun d hd => ?_⟩
  · have := State.stepOf_putStep (s := releaseTiles (t.bind.filter (fun b =>
      ((o.tmpl.map (fun m => m.release)).getD []).contains b.1))
      (s.modOp o.deckle o.seq (fun x => { x with state := .complete, retry := 0 }))) (u := t.without o) (t := t)
      (by rw [show (t.without o).deckle = o.deckle from hdeckle, show (t.without o).id = o.step from hid]; exact hstep)
    rwa [show (t.without o).deckle = o.deckle from hdeckle, show (t.without o).id = o.step from hid] at this
  · exact get_put_ne ({} : Deckle) _ _ (by rw [show (t.without o).deckle = o.deckle from hdeckle]; exact hd.symm)

end Sys2Proof.Machine

namespace Sys2Proof.Machine

set_option Elab.async false

/-! ### Sessions whose requests end keep an invalid KV, and close only at the boundary -/

/-- A session of `s` keeps an invalid KV, and does not close. -/
def Lasts (s t : State) : Prop := ∀ i, ((s.session i).kvInvalid = true → (t.session i).kvInvalid = true) ∧
  ((s.session i).state ≠ .closed → (t.session i).state ≠ .closed)

namespace Lasts

theorem refl {s : State} : Lasts s s := fun _ => ⟨id, id⟩

section
variable {s t u : State}

theorem trans (h : Lasts s t) (h' : Lasts t u) : Lasts s u := fun i =>
  ⟨fun hk => (h' i).1 ((h i).1 hk), fun hs => (h' i).2 ((h i).2 hs)⟩

theorem sameSessions (he : t.sessions = s.sessions := by rfl) : Lasts s t := fun i => by
  unfold State.session
  rw [he]
  exact ⟨id, id⟩

theorem modSession {i : Nat} {f : Session → Session} (hk : (s.session i).kvInvalid = true → (f (s.session i)).kvInvalid = true)
    (hs : (s.session i).state ≠ .closed → (f (s.session i)).state ≠ .closed) : Lasts s (s.modSession i f) := fun j => by
  rw [State.session_modSession]
  split
  next h => subst h; exact ⟨hk, hs⟩
  next => exact ⟨id, id⟩

theorem foldl {α : Type} {f : State → α → State} (hf : ∀ u a, Lasts u (f u a)) : ∀ (l : List α) (s : State), Lasts s (l.foldl f s)
  | [], _ => refl
  | a :: l, s => (hf s a).trans (foldl hf l (f s a))
end

section
variable (s : State)

theorem finish {d c st e en l w n o} : Lasts s (s.finish d c st e en l w n o) := sameSessions

theorem reject {d c e} : Lasts s (s.reject d c e) := by
  unfold State.reject
  extract_lets t u
  split
  · obtain ⟨x, h, hu⟩ := u.corrected_errHost e 0 (some d) (eSession c.entry)
    exact trans (t := u) sameSessions (sameSessions (by rw [show u.corrected e 0 (some d) (eSession c.entry) = _ from hu]))
  · exact sameSessions

theorem dropStep {d i} : Lasts s (s.dropStep d i) := by
  unfold State.dropStep
  split
  · exact refl
  · exact sameSessions

theorem withdraw {d i} : Lasts s (s.withdraw d i) := by
  unfold State.withdraw
  refine foldl (fun u a => ?_) _ s
  extract_lets dead
  split
  · exact dropStep u
  · exact sameSessions

theorem leave_ne_closed {x : Session} (h : x.state ≠ .closed) : x.leave ≠ .closed := by
  unfold Session.leave
  split
  · split
    · exact fun h => nomatch h
    · exact fun h => nomatch h
  · exact h

theorem endActive {i st e en l o} : Lasts s (s.endActive i st e en l o) := by
  unfold State.endActive
  split
  · exact refl
  · extract_lets d t u
    exact (trans (finish s) (withdraw t)).trans (modSession (fun h => by simp [h]) leave_ne_closed)

theorem startRequest {i r o} : Lasts s (s.startRequest i r o) := by
  unfold State.startRequest
  extract_lets +onlyGivenNames d x toks r' t u
  split
  · exact reject s
  · split
    · split
      · refine trans (t := t) (modSession id fun _ => ?_) sameSessions
        dsimp only
        split
        · exact fun h => nomatch h
        · exact fun h => nomatch h
      · refine modSession id fun _ => ?_
        dsimp only
        split
        · exact fun h => nomatch h
        · exact fun h => nomatch h
    · exact modSession id id

theorem startWaiting {i o} : Lasts s (s.startWaiting i o) := by
  unfold State.startWaiting
  split
  · split
    · exact refl
    · exact trans (modSession id id) (startRequest _)
  · exact refl

/-- The state of a session with its requests ended and before a waiting request starts. -/
theorem failSession_before {i c o : Nat} (hopen : (s.session i).state ≠ .closed) : ∃ u : State, Lasts s u ∧
    s.failSession i c o = (u.modSession i (fun x => { x with kvInvalid := true, resumeReq := none })).startWaiting i o := by
  unfold State.failSession
  extract_lets d x t u v
  refine ⟨v, ?_, if_neg (by simpa using hopen)⟩
  have hu : Lasts s u := (withdraw s).trans (endActive t)
  unfold v
  split
  · exact hu
  · exact hu.trans (finish u)

theorem failSession {i c o} : Lasts s (s.failSession i c o) := by
  by_cases hopen : (s.session i).state = .closed
  · have : s.failSession i c o = s := if_pos (by simp [hopen])
    rw [this]
    exact refl
  · obtain ⟨u, hu, h⟩ := failSession_before s (c := c) (o := o) hopen
    rw [h]
    exact (hu.trans (modSession (fun _ => rfl) id)).trans (startWaiting _)

end
end Lasts

/-- A failed session has an invalid KV. -/
theorem State.failSession_kvInvalid (s : State) {i : Nat} (c o : Nat) (hopen : (s.session i).state ≠ .closed) :
    ((s.failSession i c o).session i).kvInvalid = true := by
  obtain ⟨u, -, h⟩ := Lasts.failSession_before s (c := c) (o := o) hopen
  rw [h]
  refine (Lasts.startWaiting _ i).1 ?_
  rw [State.session_modSession_same]

theorem State.foldl_failSession_kvInvalid (c o : Nat) (l : List Nat) (s : State) {i : Nat} (hi : i ∈ l)
    (hopen : (s.session i).state ≠ .closed) :
    ((l.foldl (fun s i => s.failSession i c o) s).session i).kvInvalid = true := by
  induction l generalizing s with
  | nil => cases hi
  | cons a l ih =>
    rw [List.foldl_cons]
    have rest : Lasts (s.failSession a c o) (l.foldl (fun s i => s.failSession i c o) (s.failSession a c o)) :=
      Lasts.foldl (fun u i => Lasts.failSession u) l (s.failSession a c o)
    rcases List.mem_cons.1 hi with rfl | hi
    · exact (rest i).1 (s.failSession_kvInvalid c o hopen)
    · exact ih (s.failSession a c o) hi ((Lasts.failSession s i).2 hopen)

/-- A report of class CONTAINED that names no vat and does not count is its route and the end of the requests it names. -/
theorem State.report_contained (s : State) (r : Report) (hc : r.cls = none) (h2 : (errInfo r.err).cls = 2)
    (hcount : (errInfo r.err).counts = false) (hvat : r.vat = none) (hw : r.withdrawn = false) :
    ∃ k, s.report r = r.named.foldl (fun s i => s.failSession i (deckleCode r.err 2) r.order) (s.route r.err r.inst 2 r.deckle k) := by
  have he : s.escalate r = (2, false, s) := by simp [State.escalate, State.gone, hc, h2, hcount, hvat]
  unfold State.report
  simp only [he, hvat]
  rw [if_neg (by decide)]
  generalize Capture.mk .. = k
  refine ⟨k, ?_⟩
  simp only [hw]
  rfl

end Sys2Proof.Machine

namespace Sys2Proof.Machine

set_option Elab.async false

/-! ### Overruns -/

theorem State.dropStaged_sched (s : State) (o : OpRec) : ∃ l, s.dropStaged o = { s with sched := { s.sched with staged := l } } := by
  unfold State.dropStaged
  split
  · exact ⟨s.sched.staged, rfl⟩
  · exact ⟨_, rfl⟩

/-- An operation left for a later tick: its entry, and nothing outside the scoreboard. -/
theorem State.abandon_leaves {s : State} {d seq : Nat} {o : OpRec} (n : Nat) (h : s.opAt d seq = some o) :
    (s.abandon o n).opAt d seq = some { o.again s.tick.now with retry := n } ∧ ∃ x, s.abandon o n = { s with sched := x } := by
  obtain ⟨hd, hseq⟩ := State.opAt_key h
  unfold State.abandon
  obtain ⟨l, hl⟩ := (s.modOp o.deckle o.seq (fun x => { x.again s.tick.now with retry := n })).dropStaged_sched o
  rw [hl]
  refine ⟨?_, _, rfl⟩
  rw [hd, hseq]
  exact State.opAt_modOp_same (f := fun x => { x.again s.tick.now with retry := n }) h fun x => ⟨rfl, rfl⟩

/-- An overrun counts on its vat and on the HUB page. -/
def State.countUnit (s : State) (unit : Nat) : State :=
  if unit < 64 then
    { s.modVat unit (fun x => { x with overruns := satAdd 32 x.overruns 1 }) with
      tick := { s.tick with overruns := satAdd 32 s.tick.overruns 1 } }
  else s

/-- The state of an overrun that counts, before its limit is looked at. -/
def State.countOverrun (s : State) (o : OpRec) (d : Nat) : State :=
  ((s.abandon o (o.retry + 1)).countUnit o.unit).modDeckle d (fun k => { k with overruns := satAdd 32 k.overruns 1 })

section
variable {s : State} {d seq : Nat} {o : OpRec} (hop : s.opAt d seq = some o) (hwait : o.state = .waiting)
  (hre : o.reissue = false) (hstage : s.tick.stage = .execution)
include hop hwait hre hstage

theorem State.overrun_withdrawn (hpeer : o.peerWaits = true) : s.overrun d seq = s.abandon o o.retry := by
  simp [State.overrun, hop, hwait, hre, hstage, hpeer]

theorem State.overrun_counts (hpeer : o.peerWaits = false) (hbar : s.opBar o none = none) : s.overrun d seq =
    if o.retry + 1 < (if o.cross then 8 else 4) then s.countOverrun o d
    else (s.countOverrun o d).failOp o { err := .overrunLimit } ((s.countOverrun o d).opSessions o) o.deadline := by
  unfold State.overrun
  simp only [hop]
  rw [if_neg (by simp [hwait, hre, hstage]), if_neg (by simp [hpeer])]
  simp only [hbar]
  rfl

omit hwait hre hstage in
theorem State.countOverrun_leaves : (s.countOverrun o d).opAt d seq = some { o.again s.tick.now with retry := o.retry + 1 } ∧
    ((s.countOverrun o d).deckle d).overruns = satAdd 32 (s.deckle d).overruns 1 ∧
    (o.unit < 64 → ((s.countOverrun o d).vat o.unit).overruns = satAdd 32 (s.vat o.unit).overruns 1 ∧
      (s.countOverrun o d).tick.overruns = satAdd 32 s.tick.overruns 1) ∧
    (s.countOverrun o d).sessions = s.sessions ∧ (s.countOverrun o d).opSessions o = s.opSessions o ∧
    s.countOverrun o d = { s with
      sched := (s.countOverrun o d).sched, tick := (s.countOverrun o d).tick, vats := (s.countOverrun o d).vats
      deckles := (s.countOverrun o d).deckles } := by
  obtain ⟨hentry, x, hx⟩ := State.abandon_leaves (o.retry + 1) hop
  obtain ⟨hd, -⟩ := State.opAt_key hop
  unfold State.countOverrun
  rw [hx] at hentry ⊢
  have hsteps (u : State) (hu : u.deckles = s.deckles) (hs : u.sessions = s.sessions) :
      (u.modDeckle d (fun k => { k with overruns := satAdd 32 k.overruns 1 })).opSessions o = s.opSessions o := by
    have hstep : (u.modDeckle d (fun k => { k with overruns := satAdd 32 k.overruns 1 })).stepOf o.deckle o.step =
        s.stepOf o.deckle o.step := by
      rw [hd, State.stepOf, State.deckle_modDeckle_same, State.deckle, hu]
      rfl
    unfold State.opSessions
    rw [hstep]
  by_cases hunit : o.unit < 64
  · rw [State.countUnit, if_pos hunit]
    exact ⟨hentry, congrArg Deckle.overruns (get_put_same ({} : Deckle) s.deckles _ _),
      fun _ => ⟨congrArg Vat.overruns (get_put_same ({} : Vat) s.vats _ _), rfl⟩, rfl, hsteps _ rfl rfl, rfl⟩
  · rw [State.countUnit, if_neg hunit]
    exact ⟨hentry, congrArg Deckle.overruns (get_put_same ({} : Deckle) s.deckles _ _), fun h => absurd h hunit, rfl,
      hsteps _ rfl rfl, rfl⟩
end

/-- Where the report does not escalate, the requests it names end with their KV invalid. -/
theorem State.report_contained_ends (s : State) (r : Report) (hc : r.cls = none) (h2 : (errInfo r.err).cls = 2)
    (hcount : (errInfo r.err).counts = false) (hvat : r.vat = none) (hw : r.withdrawn = false) {i : Nat} (hi : i ∈ r.named)
    (hopen : (s.session i).state ≠ .closed) : ((s.report r).session i).kvInvalid = true := by
  obtain ⟨k, hk⟩ := s.report_contained r hc h2 hcount hvat hw
  obtain ⟨e, h, hr⟩ := s.route_errHost r.err r.inst 2 r.deckle k
  rw [hk, hr]
  exact State.foldl_failSession_kvInvalid _ _ _ _ hi hopen

/-- A failed operation ends the requests it names. -/
theorem State.failOp_contained (s : State) (o : OpRec) (r : Report) (named : List Nat) (time : Nat) (hc : r.cls = none)
    (h2 : (errInfo r.err).cls = 2) (hcount : (errInfo r.err).counts = false) (hvat : r.vat = none) (hw : r.withdrawn = false) :
    (∀ i ∈ named, (s.session i).state ≠ .closed → ((s.failOp o r named time).session i).kvInvalid = true) ∧
    WorkEnds s (s.failOp o r named time) := by
  obtain ⟨x, hx⟩ : ∃ x, (s.modOp o.deckle o.seq (fun y => { y.again s.tick.now with failed := true })).dropStaged o =
      { s with sched := x } := by
    obtain ⟨l, hl⟩ := (s.modOp o.deckle o.seq (fun x => { x.again s.tick.now with failed := true })).dropStaged_sched o
    exact ⟨_, hl⟩
  unfold State.failOp
  rw [hx]
  refine ⟨fun i hi hopen => State.report_contained_ends { s with sched := x }
    { r with deckle := some o.deckle, seq := o.seq, unit := o.unit, named, order := time } hc h2 hcount hvat hw hi hopen, ?_⟩
  have hsched : WorkEnds s { s with sched := x } := ⟨_, _, _, _, _, _, rfl⟩
  exact hsched.trans (State.report_contained_workEnds _
    { r with deckle := some o.deckle, seq := o.seq, unit := o.unit, named, order := time } hc h2 hcount hvat)

/-- Settles O21. -/
theorem completionAndOverrun : Obligations.CompletionAndOverrun := by
  refine ⟨fun s o t time hop hstep hdeckle hopen => ?_, fun s d seq o hop hwait hre hstage => ?_⟩
  · obtain ⟨hdone, hleft, hframe, -⟩ := State.endOp_open time hop hstep hdeckle hopen
    exact ⟨hdone, hleft, hframe⟩
  obtain ⟨hentry, hover, hunit, hsess, hnamed, hframe⟩ := State.countOverrun_leaves hop
  refine ⟨fun hpeer => ?_, fun hpeer hbar hlim => ?_, fun hpeer hbar hlim hcount => ?_⟩
  · obtain ⟨hentry, x, hx⟩ := State.abandon_leaves o.retry hop
    exact ⟨_, congrArg Host.Outcome.next (State.overrun_withdrawn hop hwait hre hstage hpeer), hentry, by rw [hx]⟩
  · exact ⟨_, congrArg Host.Outcome.next ((State.overrun_counts hop hwait hre hstage hpeer hbar).trans (if_pos hlim)),
      hentry, hover, hunit, hframe⟩
  · refine ⟨_, congrArg Host.Outcome.next ((State.overrun_counts hop hwait hre hstage hpeer hbar).trans
      (if_neg (Nat.not_lt.2 hlim))), ?_⟩
    rw [hnamed]
    generalize s.countOverrun o d = u at hsess hframe
    obtain ⟨hkv, e, h, ds, sc, ss, rej, hfail⟩ := u.failOp_contained o { err := .overrunLimit } (s.opSessions o) o.deadline
      rfl rfl rfl rfl rfl
    refine ⟨fun i hi hopen => hkv i hi ?_, ?_⟩
    · rw [State.session, hsess]
      exact hopen
    · rw [hfail, hframe]

end Sys2Proof.Machine

namespace Sys2Proof.Machine

set_option Elab.async false

/-! ### Cross-module exchanges -/

/-- The mark of an exchange whose peer waits for its conversion cap. -/
def OpRec.waits (o : OpRec) : OpRec := if o.cross then { o with peerWaits := true } else o

theorem OpRec.waits_key (o : OpRec) : o.waits.deckle = o.deckle ∧ o.waits.seq = o.seq := by
  unfold OpRec.waits
  split
  · exact ⟨rfl, rfl⟩
  · exact ⟨rfl, rfl⟩

theorem execCapWaitSignal_eq (s : State) (d : Fin 16) (seq : Nat) :
    execCapWaitSignal d seq s = .next (s.modOp d.val seq OpRec.waits) := by
  have h (o : OpRec) : (if o.deckle == d.val && o.seq == seq && o.cross then { o with peerWaits := true } else o) =
      if o.deckle == d.val && o.seq == seq then o.waits else o := by
    unfold OpRec.waits
    cases o.deckle == d.val && o.seq == seq with
    | true => simp
    | false => simp
  unfold execCapWaitSignal State.modOp
  simp only [h]

/-- Settles O22. -/
theorem crossExchange : Obligations.CrossExchange := by
  intro s d seq time o foreign hop hcross
  obtain ⟨hd, hseq⟩ := State.opAt_key hop
  refine ⟨fun hwait hre hstage htime => ⟨fun hlocal => ?_, fun hlocal => ?_, ?_⟩, fun hlate => ?_, ?_,
    fun r t m u peer hrd hrs hruns hwork => ⟨fun hpeer hdone => ?_, fun hdone => ?_⟩⟩
  · refine congrArg Host.Outcome.next ?_
    simp [State.exchangeDone, hop, hcross, hwait, hre, hstage, Nat.not_lt.2 htime, hlocal]
  · refine ⟨s.modOp d.val seq (fun x => { x with peerDone := true }), congrArg Host.Outcome.next ?_,
      State.opAt_modOp_same (f := fun x => { x with peerDone := true }) hop fun x => ⟨rfl, rfl⟩, rfl⟩
    simp [State.exchangeDone, hop, hcross, hwait, hre, hstage, Nat.not_lt.2 htime, hlocal]
  · refine congrArg Host.Outcome.next ?_
    simp [State.exchangeDone, hop, hcross, hwait, hre, hstage, Nat.not_lt.2 htime]
  · refine congrArg Host.Outcome.next ?_
    simp [State.exchangeDone, hop, hlate]
  · refine ⟨_, execCapWaitSignal_eq s d seq, (State.opAt_modOp_same hop OpRec.waits_key).trans (congrArg some (if_pos hcross)),
      fun e n hne => State.opAt_modOp_ne hne OpRec.waits_key, rfl⟩
  · refine congrArg Host.Outcome.next ((State.runWith_ok hruns hwork).trans ?_)
    exact if_pos (by simp [hcross, hpeer, hdone])
  · refine congrArg Host.Outcome.next ((State.runWith_ok hruns hwork).trans ?_)
    exact if_neg (by rcases hdone with h | h <;> simp [h])

end Sys2Proof.Machine

/-! ## What operations compute (R165, R220, R231, R243) -/

namespace Sys2Proof.Machine

set_option Elab.async false

/-! ### Work that touches only its step -/

/-- Of the deckles only the step of `o` differs, and not in the deckle it is of or in its open operations. -/
def StepOnly (s : State) (o : OpRec) (t : StepRec) (u : State) : Prop :=
  (∃ ds, u = { s with deckles := ds }) ∧
  (∃ t', u.stepOf o.deckle o.step = some t' ∧ t'.deckle = t.deckle ∧ t'.open_ops = t.open_ops) ∧
  ∀ d, d ≠ o.deckle → u.deckle d = s.deckle d

theorem State.stepOf_modStep {s : State} {d id : Nat} {t : StepRec} {f : StepRec → StepRec} (h : s.stepOf d id = some t)
    (hf : ∀ x, (f x).id = x.id) : (s.modStep d id f).stepOf d id = some (f t) := by
  unfold State.modStep State.stepOf at *
  rw [State.deckle_modDeckle_same, List.find?_map]
  have hkey : ((fun x : StepRec => x.id == id) ∘ fun x => if x.id = id then f x else x) = fun x : StepRec => x.id == id := by
    funext x
    simp only [Function.comp]
    split
    · rw [hf x]
    · rfl
  rw [hkey, h, Option.map_some, if_pos (by simpa using List.find?_some h)]

namespace StepOnly

section
variable {s u : State} {o : OpRec} {t : StepRec}

theorem refl (h : s.stepOf o.deckle o.step = some t) : StepOnly s o t s := ⟨⟨_, rfl⟩, ⟨t, h, rfl, rfl⟩, fun _ _ => rfl⟩

theorem modStep {f : StepRec → StepRec} (h : StepOnly s o t u)
    (hf : ∀ x : StepRec, (f x).id = x.id ∧ (f x).deckle = x.deckle ∧ (f x).open_ops = x.open_ops) :
    StepOnly s o t (u.modStep o.deckle o.step f) := by
  obtain ⟨⟨ds, hu⟩, ⟨t', hstep, hdeckle, hopen⟩, hrest⟩ := h
  refine ⟨⟨_, by rw [hu]; rfl⟩, ⟨f t', State.stepOf_modStep hstep fun x => (hf x).1, (hf t').2.1.trans hdeckle,
    (hf t').2.2.trans hopen⟩, fun d hd => (get_put_ne ({} : Deckle) _ _ hd.symm).trans (hrest d hd)⟩

/-- An operation whose segment has others open, after work that touches only its step. -/
theorem endOp (h : StepOnly s o t u) (hop : s.opAt o.deckle o.seq = some o) (hdeckle : t.deckle = o.deckle)
    (hopen : 1 < t.open_ops) (time : Nat) : (u.endOp o time).Done o ∧
    u.endOp o time = { s with sched := (u.endOp o time).sched, deckles := (u.endOp o time).deckles } ∧
    ∀ d, d ≠ o.deckle → (u.endOp o time).deckle d = s.deckle d := by
  obtain ⟨⟨ds, hu⟩, ⟨t', hstep, hd', ho'⟩, hrest⟩ := h
  have hop' : u.opAt o.deckle o.seq = some o := by
    rw [hu]
    exact hop
  obtain ⟨hdone, -, hframe, hothers⟩ := State.endOp_open time hop' hstep (hd'.trans hdeckle) (by omega)
  refine ⟨hdone, ?_, fun d hd => (hothers d hd).trans (hrest d hd)⟩
  rw [hu] at hframe ⊢
  exact hframe
end
end StepOnly

theorem State.Runs.opAt_self {s : State} {r : OpRef} {typ : OpType} {o : OpRec} {t : StepRec} {m : Template}
    (h : s.Runs r typ o t m) : s.opAt o.deckle o.seq = some o := by
  obtain ⟨hd, hs⟩ := State.opAt_key h.1
  rw [hd, hs]
  exact h.1

theorem State.Runs.stepOf {s : State} {r : OpRef} {typ : OpType} {o : OpRec} {t : StepRec} {m : Template}
    (h : s.Runs r typ o t m) : s.stepOf o.deckle o.step = some t := h.2.1

/-! ### ATTN_BLOCK and SAMPLE -/

/-- The counts of the attention units: of the vat of `o`, and of the stacks. -/
theorem State.noteAttn_leaves (o : OpRec) (m : Template) : ∀ (l : List VecAt) (s : State), ∃ vs ms,
    l.foldl (fun s x => s.noteAttn o m x) s = { s with vats := vs, memStat := ms } ∧
    ∀ v, v ≠ o.unit → get {} vs v = s.vat v
  | [], s => ⟨s.vats, s.memStat, rfl, fun _ _ => rfl⟩
  | x :: l, s => by
    obtain ⟨vs, ms, hfold, hvat⟩ := State.noteAttn_leaves o m l (s.noteAttn o m x)
    refine ⟨vs, ms, hfold, fun v hv => (hvat v hv).trans ?_⟩
    exact get_put_ne ({} : Vat) _ _ hv.symm

/-- Samples and proposals are added to the step. -/
theorem State.sampleVec_stepOnly {s : State} {o : OpRec} {t : StepRec} {m : Template} {vocab : Nat} : ∀ (l : List VecAt) (u : State),
    StepOnly s o t u → (m.head = 0 → ∀ x ∈ l, (s.floatsAt (s.srcAt m x.v) vocab).all f32Finite = true) →
    ∃ w, eachVec (State.sampleVec o m vocab) l u = .ok w ∧ StepOnly s o t w
  | [], u, h, _ => ⟨u, rfl, h⟩
  | x :: l, u, h, hfin => by
    have rest (w : State) (hw : StepOnly s o t w) : ∃ w', eachVec (State.sampleVec o m vocab) l w = .ok w' ∧ StepOnly s o t w' :=
      State.sampleVec_stepOnly l w hw fun h0 y hy => hfin h0 y (List.mem_cons_of_mem x hy)
    have first : ∃ w, State.sampleVec o m vocab u x = .ok w ∧ StepOnly s o t w := by
      unfold State.sampleVec
      cases (u.session x.sess).active with
      | none => exact ⟨u, rfl, h⟩
      | some r =>
        by_cases h0 : m.head = 0
        · have hz : (u.floatsAt (u.srcAt m x.v) vocab).all f32Finite = true := by
            obtain ⟨⟨ds, hu⟩, -⟩ := h
            rw [hu]
            exact hfin h0 x (List.mem_cons_self ..)
          refine ⟨_, (if_neg (not_not.2 h0)).trans (if_neg (by simp [hz])), ?_⟩
          exact h.modStep fun y => ⟨rfl, rfl, rfl⟩
        · exact ⟨_, if_pos h0, h.modStep fun y => ⟨rfl, rfl, rfl⟩⟩
    obtain ⟨w, hw, hstep⟩ := first
    unfold eachVec
    rw [hw]
    exact rest w hstep

theorem execSample_ok {s u : State} {r : OpRef} {o : OpRec} {t : StepRec} {m : Template} (h : s.Runs r .sample o t m)
    (hw : eachVec (State.sampleVec o m (((s.stepImage t).map (fun i => i.vocab)).getD 0)) (tmplVecs t m) s = .ok u) :
    execSample r s = .next (u.endOp o r.time) := by
  have hsample : execSample r s = .next (s.runOp r .sample (fun s o t m =>
      eachVec (State.sampleVec o m (((s.stepImage t).map (fun i => i.vocab)).getD 0)) (tmplVecs t m) s)) := rfl
  exact hsample.trans (congrArg Host.Outcome.next (State.runWith_ok h hw))

/-- Settles O23: the bytes of a VECTOR result go to the vat it runs on (log entries 11 and 77). -/
theorem storesOfOperations : Obligations.StoresOfOperations := by
  refine ⟨fun s r o t m x b hruns hdeckle hopen hvecs hb hcast => ?vector,
    fun s r o t m hdeckle hopen => ⟨fun hruns => ?attn, fun hruns hfin => ?sample⟩⟩
  case vector =>
    have hwork : eachVec (State.vectorVec o t m) (tmplVecs t m) s = .ok (s.writeMem (s.dstAt m x.v) b) := by
      rw [hvecs]
      simp [eachVec, State.vectorVec, hb, targets, hcast, State.dstAt]
    have hexec := State.runWith_ok (fin := State.endOp)
      (f := fun s o t m => eachVec (State.vectorVec o t m) (tmplVecs t m) s) hruns hwork
    obtain ⟨hdone, -, hframe, -⟩ := State.endOp_open (s := s.writeMem (s.dstAt m x.v) b) r.time hruns.opAt_self hruns.stepOf
      hdeckle hopen
    refine ⟨_, congrArg Host.Outcome.next hexec, ?_, ?_, hdone, ?_⟩
    · rw [hframe]
      exact s.readMem_writeMem_same (s.dstAt m x.v) b
    · rw [hframe]
      intro a ha
      have hout : a < s.dstAt m x.v ∨ s.dstAt m x.v + b.length ≤ a := ha _ (List.mem_cons_self ..)
      exact (s.byte_writeMem (s.dstAt m x.v) a b).trans (if_neg (by omega))
    · rw [hframe]
      rfl
  case attn =>
    let ns := (tmplVecs t m).foldr (fun x a => s.attnVec o t m x ++ a) []
    have hstep := (StepOnly.refl hruns.stepOf).modStep (f := fun t => { t with nodes := t.nodes ++ ns }) fun y => ⟨rfl, rfl, rfl⟩
    obtain ⟨vs, ms, hnote, hvats⟩ := State.noteAttn_leaves o m (tmplVecs t m)
      (s.modStep o.deckle o.step (fun t => { t with nodes := t.nodes ++ ns }))
    have hwork : attnWork s o t m = .ok { s.modStep o.deckle o.step (fun t => { t with nodes := t.nodes ++ ns }) with
        vats := vs, memStat := ms } := congrArg Except.ok hnote
    have hexec := State.runWith_ok (fin := State.endOp) hruns hwork
    obtain ⟨⟨ds, hu⟩, ⟨t', ht', hd', ho'⟩, hrest⟩ := hstep
    obtain ⟨hdone, -, hframe, hothers⟩ := State.endOp_open (s := { s.modStep o.deckle o.step
      (fun t => { t with nodes := t.nodes ++ ns }) with vats := vs, memStat := ms }) r.time hruns.opAt_self ht'
      (hd'.trans hdeckle) (by omega)
    refine ⟨_, congrArg Host.Outcome.next hexec, hdone, ?_, fun v hv => ?_, fun d hd => (hothers d hd).trans (hrest d hd)⟩
    · rw [hframe]
      rfl
    · rw [hframe]
      exact hvats v hv
  case sample =>
    obtain ⟨w, hwork, hstep⟩ := State.sampleVec_stepOnly (tmplVecs t m) s (StepOnly.refl hruns.stepOf) hfin
    obtain ⟨hdone, hframe, hothers⟩ := hstep.endOp hruns.opAt_self hdeckle hopen r.time
    exact ⟨_, execSample_ok hruns hwork, hdone, hframe, hothers⟩

end Sys2Proof.Machine

/-! ## A tile pass and its sums (R69, R97, R103) -/

namespace Sys2Proof.Machine

set_option Elab.async false

/-! ### What the passes' notes write -/

/-- Only vats, groups, error registers and the host port differ. -/
def Noted (s t : State) : Prop := ∃ vs gs e h, t = { s with vats := vs, groups := gs, errs := e, host := h }

namespace Noted

theorem refl {s : State} : Noted s s := ⟨_, _, _, _, rfl⟩

section
variable {s t : State} (h : Noted s t)
include h

theorem trans {u : State} (h' : Noted t u) : Noted s u := by
  obtain ⟨vs, gs, e, x, rfl⟩ := h
  obtain ⟨vs', gs', e', x', rfl⟩ := h'
  exact ⟨vs', gs', e', x', rfl⟩

theorem modVat {v f} : Noted s (t.modVat v f) := h.trans ⟨_, _, _, _, rfl⟩
theorem modGroup {v p f} : Noted s (t.modGroup v p f) := h.trans ⟨_, _, _, _, rfl⟩
theorem report {r : Report} (hc : r.cls = none := by rfl) (h1 : (errInfo r.err).cls = 1 := by rfl)
    (hn : r.named = [] := by rfl) : Noted s (t.report r) := by
  obtain ⟨e, x, hx⟩ := t.report_errHost r hc h1 hn
  exact h.trans ⟨_, _, e, x, hx⟩

theorem foldl {α : Type} {f : State → α → State} {l : List α} (hf : ∀ u a, Noted s u → Noted s (f u a)) :
    Noted s (l.foldl f t) := by
  induction l generalizing t with
  | nil => exact h
  | cons a l ih => exact ih (hf t a h)

theorem noteMiscount {v p} : Noted s (t.noteMiscount v p) := by
  unfold State.noteMiscount
  exact h.modVat.modGroup.report
theorem noteOverflow {v p c} : Noted s (t.noteOverflow v p c) := by
  unfold State.noteOverflow
  exact h.modVat.modGroup.report
theorem noteMismatch {v p} : Noted s (t.noteMismatch v p) := by
  unfold State.noteMismatch State.makeDue
  exact h.modVat.report.modGroup.modGroup

theorem notePass {t' x} : Noted s (t.notePass t' x) := by
  unfold State.notePass
  extract_lets +onlyGivenNames v q a b c
  have hc : Noted s c := (h.modVat.foldl fun _ _ h => h.noteMiscount).foldl fun _ _ h => h.noteOverflow
  clear_value c
  split
  · exact hc.noteMismatch
  · exact hc

theorem noteOp {t' o ps l} : Noted s (t.noteOp t' o ps l) := by
  unfold State.noteOp
  exact (h.foldl fun _ _ h => h.notePass).modVat
end
end Noted

/-! ### What a pass's samples count -/

/-- Of the deckles only the counts of sampled passes differ. -/
def Counted (s t : State) : Prop := (∃ ds, t = { s with deckles := ds }) ∧ ∀ d, (t.deckle d).steps = (s.deckle d).steps

theorem State.countPass_counted (s : State) (d v : Nat) (want : Bool) : Counted s (s.countPass d v want).2 := by
  refine ⟨⟨_, rfl⟩, fun e => ?_⟩
  show ((s.modDeckle d _).deckle e).steps = _
  rw [State.deckle_modDeckle]
  split
  next h =>
    subst h
    split
    · rfl
    · rfl
  next => rfl

/-- The results are those of the passes. -/
theorem evalPasses_leaves (t : StepRec) (fs : List CodeFault) (sampled : List (Nat × Nat)) : ∀ (ps : List Pass) (s : State),
    Counted s (evalPasses t fs sampled ps s).2 ∧ ∀ x ∈ (evalPasses t fs sampled ps s).1, x.p ∈ ps
  | [], s => ⟨⟨⟨_, rfl⟩, fun _ => rfl⟩, fun x hx => by cases hx⟩
  | p :: ps, s => by
    have hfirst := s.countPass_counted t.deckle p.vat (sampled.contains (p.ti, p.v))
    obtain ⟨hrest, hmem⟩ := evalPasses_leaves t fs sampled ps (s.countPass t.deckle p.vat (sampled.contains (p.ti, p.v))).2
    refine ⟨⟨?_, fun d => (hrest.2 d).trans (hfirst.2 d)⟩, fun x hx => ?_⟩
    · obtain ⟨⟨ds, h1⟩, -⟩ := hfirst
      obtain ⟨⟨ds', h2⟩, -⟩ := hrest
      exact ⟨ds', h2.trans (by rw [h1])⟩
    · rcases List.mem_cons.1 hx with rfl | hx
      · exact List.mem_cons_self ..
      · exact List.mem_cons_of_mem _ (hmem x hx)

theorem State.webAll_none {s : State} {d : Nat} : ∀ {l : List (Nat × Nat × Bool)},
    (∀ x ∈ l, s.webCheck d x.1 x.2.1 x.2.2 = .ok) → s.webAll d l = none
  | [], _ => rfl
  | x :: l, h => by
    unfold State.webAll
    rw [h x (List.mem_cons_self ..)]
    exact State.webAll_none fun y hy => h y (List.mem_cons_of_mem x hy)

/-- Every record the golden pass reads may be read. -/
theorem State.goldenBar_none {s : State} {o : OpRec} {t : StepRec} {l : List PassRes}
    (h : ∀ x ∈ l, ∀ im k, s.stepImage t = some im → im.recordPage x.p.tile.index = some k →
      s.webCheck o.deckle (k * 65536) 1 false = .ok) : s.goldenBar o t l = none := by
  refine State.webAll_none ?_
  induction l with
  | nil => exact fun y hy => by cases hy
  | cons x l ih =>
    have hl := ih fun y hy => h y (List.mem_cons_of_mem x hy)
    rw [List.foldr_cons]
    split
    · exact hl
    · split
      next k hk =>
        obtain ⟨im, him, hk⟩ := Option.bind_eq_some_iff.1 hk
        intro y hy
        rcases List.mem_cons.1 hy with rfl | hy
        · exact h x (List.mem_cons_self ..) im k him hk
        · exact hl y hy
      next => exact hl

/-! ### The pairs a pass writes -/

theorem pairBytes_length (l : List AccPair) : (pairBytes l).length = 8 * l.length := by
  induction l with
  | nil => rfl
  | cons p l ih =>
    have : pairBytes (p :: l) = leBytes 4 p.1.toNat ++ leBytes 4 p.2.toNat ++ pairBytes l := rfl
    rw [this, List.length_append, List.length_append, leBytes_length, leBytes_length, ih, List.length_cons]
    omega

theorem State.chain_length (s : State) (t : StepRec) (m : Template) (xs : List PassRes) {start : List AccPair}
    (h : start.length = 64) : (s.chain t m xs start).length = 64 := by
  unfold State.chain
  extract_lets ys
  generalize ys = l
  induction l generalizing start with
  | nil => exact h
  | cons x l ih => exact ih (by simp)

theorem State.startPairs_length (s : State) (t : StepRec) (m : Template) (name v : Nat) :
    (s.startPairs t m name v).length = 64 := by
  unfold State.startPairs
  split
  · split
    · simp
    · simp
  · simp

/-- Outside the accumulator tiles the template names no byte differs, and nothing but device memory does. -/
def SumsOnly (t : StepRec) (m : Template) (s u : State) : Prop :=
  (∃ me, u = { s with mem := me }) ∧
  ∀ a, (∀ k v base, s.pairsAddr t (m.accWr.getD k 0xFFFF) v = some base → a < base ∨ base + 512 ≤ a) → u.byte a = s.byte a

theorem SumsOnly.storePairs {t : StepRec} {m : Template} {s u : State} (h : SumsOnly t m s u) (k v : Nat) {l : List AccPair}
    (hl : l.length = 64) : SumsOnly t m s (u.storePairs t (m.accWr.getD k 0xFFFF) v l) := by
  obtain ⟨⟨me, hu⟩, hbytes⟩ := h
  have haddr : u.pairsAddr t (m.accWr.getD k 0xFFFF) v = s.pairsAddr t (m.accWr.getD k 0xFFFF) v := by
    rw [hu]
    rfl
  unfold State.storePairs
  split
  next base hbase =>
    refine ⟨⟨_, by rw [hu]; rfl⟩, fun a ha => ?_⟩
    have hout := ha k v base (haddr ▸ hbase)
    rw [State.byte_writeMem, if_neg (by rw [pairBytes_length, hl]; omega)]
    exact hbytes a ha
  next => exact ⟨⟨me, hu⟩, hbytes⟩

theorem SumsOnly.foldl {α : Type} {t : StepRec} {m : Template} {s : State} {f : State → α → State}
    (hf : ∀ u a, SumsOnly t m s u → SumsOnly t m s (f u a)) : ∀ (l : List α) (u : State), SumsOnly t m s u →
    SumsOnly t m s (l.foldl f u)
  | [], _, h => h
  | a :: l, u, h => SumsOnly.foldl hf l (f u a) (hf u a h)

theorem State.storeSums_sumsOnly (s : State) (t : StepRec) (m : Template) (l : List PassRes) :
    SumsOnly t m s (s.storeSums t m l) := by
  unfold State.storeSums
  refine SumsOnly.foldl (fun u k h => SumsOnly.foldl (fun w x h => ?_) _ u h) _ s ⟨⟨_, rfl⟩, fun _ _ => rfl⟩
  exact h.storePairs _ _ (s.chain_length t m _ (s.startPairs_length t m _ _))

/-- The sums a pass stores, and the held terms of its vat. -/
theorem passSums_leaves (s : State) (t : StepRec) (m : Template) (l : List PassRes) :
    ∃ u me vs, (if m.typ = .residual then (s.storeSums t m l).dropHeld t m l
        else if m.precise then s.holdD t m l else s.storeSums t m l) = u ∧ u = { s with mem := me, vats := vs } ∧
      ∀ a, (∀ k v base, s.pairsAddr t (m.accWr.getD k 0xFFFF) v = some base → a < base ∨ base + 512 ≤ a) →
        u.byte a = s.byte a := by
  obtain ⟨⟨me, hsum⟩, hbytes⟩ := s.storeSums_sumsOnly t m l
  refine ⟨_, if m.typ = .residual then me else if m.precise then s.mem else me,
    (if m.typ = .residual then (s.storeSums t m l).dropHeld t m l
        else if m.precise then s.holdD t m l else s.storeSums t m l).vats, rfl, ?_, fun a ha => ?_⟩
  · split
    · rw [hsum]; rfl
    · split
      · rfl
      · rw [hsum]
  · split
    · exact hbytes a ha
    · split
      · rfl
      · exact hbytes a ha

theorem passWork_ok {fs : List CodeFault} {sampled : List (Nat × Nat)} {s : State} {o : OpRec} {t : StepRec} {m : Template}
    (hgood : ∀ p ∈ s.passesOf t m, burstBad p.burst = false ∧ ∀ im k, s.stepImage t = some im →
      im.recordPage p.tile.index = some k → s.webCheck o.deckle (k * 65536) 1 false = .ok) :
    ∃ u me vs gs ds e h, passWork fs sampled s o t m = .ok u ∧
      u = { s with mem := me, vats := vs, groups := gs, deckles := ds, errs := e, host := h } ∧
      (∀ d, (u.deckle d).steps = (s.deckle d).steps) ∧
      ∀ a, (∀ k v base, s.pairsAddr t (m.accWr.getD k 0xFFFF) v = some base → a < base ∨ base + 512 ≤ a) →
        u.byte a = s.byte a := by
  have hfind : (s.passesOf t m).find? (fun p => burstBad p.burst) = none := by
    rw [List.find?_eq_none]
    intro p hp
    simp [(hgood p hp).1]
  obtain ⟨⟨⟨ds, hs1⟩, hsteps⟩, hmem⟩ := evalPasses_leaves t fs sampled (s.passesOf t m) s
  have hbar : (evalPasses t fs sampled (s.passesOf t m) s).2.goldenBar o t (evalPasses t fs sampled (s.passesOf t m) s).1 =
      none := by
    refine State.goldenBar_none fun x hx im k him hk => ?_
    rw [hs1] at him ⊢
    exact (hgood x.p (hmem x hx)).2 im k him hk
  unfold passWork
  simp only [hfind]
  generalize evalPasses t fs sampled (s.passesOf t m) s = y at hs1 hsteps hbar
  obtain ⟨l, s1⟩ := y
  simp only [hbar]
  obtain ⟨u, me, vs, hu, hframe, hbytes⟩ := passSums_leaves s1 t m l
  rw [hu]
  obtain ⟨vs', gs, e, h, hnote⟩ := (Noted.refl (s := u)).noteOp (t' := t) (o := o) (ps := s.passesOf t m) (l := l)
  have hs1' : s1 = { s with deckles := ds } := hs1
  refine ⟨_, me, vs', gs, ds, e, h, rfl, ?_, fun d => ?_, fun a ha => ?_⟩
  · rw [hnote, hframe, hs1']
  · rw [hnote, hframe]
    exact hsteps d
  · rw [hnote]
    refine (hbytes a fun k v base hb => ha k v base ?_).trans ?_
    · rw [hs1'] at hb
      exact hb
    · rw [hs1']
      rfl

/-- Settles O25: the passes count, the sums go to the tiles named, and the notes touch no memory. -/
theorem tilePassStores : Obligations.TilePassStores := by
  intro s r o t m fs sm z hz hruns hdeckle hopen hgood
  obtain ⟨u, me, vs, gs, ds, e, h, hwork, hframe, hsteps, hbytes⟩ := passWork_ok (fs := fs) (sampled := sm) hgood
  have hexec : exec z.2 s = .next (u.endOp o r.time) := by
    simp only [List.mem_cons, List.not_mem_nil, or_false] at hz
    rcases hz with rfl | rfl
    · exact congrArg Host.Outcome.next (State.runWith_ok (f := passWork fs sm) hruns hwork)
    · exact congrArg Host.Outcome.next (State.runWith_ok (f := passWork fs sm) hruns hwork)
  have hop : u.opAt o.deckle o.seq = some o := by
    rw [hframe]
    exact hruns.opAt_self
  have hstep : u.stepOf o.deckle o.step = some t := by
    unfold State.stepOf
    rw [hsteps]
    exact hruns.stepOf
  obtain ⟨hdone, -, hend, -⟩ := State.endOp_open r.time hop hstep hdeckle hopen
  refine ⟨_, hexec, hdone, fun a ha => ?_, ?_⟩
  · rw [hend]
    exact hbytes a ha
  · rw [hend, hframe]

end Sys2Proof.Machine

/-! ## Session commands (R284 to R293, R509 to R512) -/

namespace Sys2Proof.Machine

set_option Elab.async false

/-! ### Completion records -/

theorem mem_addToUnits (sess req order : Nat) (irq : Bool) {w : PubWrite} {ws : List PubWrite} (hw : w ∈ ws) :
    ∀ us : List PubUnit, ∃ u ∈ addToUnits sess req order irq ws us, u.req = req ∧ w ∈ u.writes
  | [] => ⟨_, List.mem_cons_self .., rfl, by simp [mergeWrites, hw]⟩
  | u :: us => by
    unfold addToUnits
    split
    next h =>
      refine ⟨_, List.mem_cons_self .., ?_, by simp [mergeWrites, hw]⟩
      simp only [Bool.and_eq_true, beq_iff_eq] at h
      exact h.1.2
    next =>
      obtain ⟨v, hv, hreq, hmem⟩ := mem_addToUnits sess req order irq hw us
      exact ⟨v, List.mem_cons_of_mem u hv, hreq, hmem⟩

/-- A finished command has its completion record. -/
theorem State.finish_completed (s : State) (d : Nat) (c : Cmd) (st e en : Nat) (l w : Bool) (n o : Nat) :
    (s.finish d c st e en l w n o).Completed d c st e := by
  obtain ⟨u, hu, hreq, hmem⟩ := mem_addToUnits (eSession c.entry) c.id o (eIrq c.entry) (List.mem_singleton_self
    (PubWrite.completion (eTag c.entry) (eSession c.entry) st (b2n l + 2 * b2n w +
      4 * b2n (s.session (eSession c.entry)).restarted) (eCode c.entry) en e n (s.session (eSession c.entry)).len))
    (s.deckle d).units
  refine ⟨u, ?_, hreq, _, _, _, _, hmem⟩
  rw [show (s.finish d c st e en l w n o).deckle d = _ from get_put_same ({} : Deckle) s.deckles d _]
  exact hu

/-! ### A command taken from the front -/

/-- The state without the front command of deckle `d`. -/
def State.took (s : State) (d : Nat) (rest : List Cmd) : State := s.modDeckle d (fun k => { k with accepted := rest })

/-- The session has run out its pause. -/
def Session.expired (x : Session) : Bool := x.state == .paused && x.ttl == 0 && x.resumeReq.isNone

section
variable {s : State} {d code : Nat} {c : Cmd} {rest : List Cmd}

theorem State.take_front (h : s.Front d code c rest) : s.take d code = some (c, s.took d rest) := by
  obtain ⟨hacc, hcode, hload⟩ := h
  simp [State.take, hacc, hcode, hload, State.took]

theorem State.command_front {f : Cmd → Nat → State → State} (h : s.Front d code c rest)
    (hx : (s.session (eSession c.entry)).expired = false) :
    s.command d code f = f c (eSession c.entry) (s.took d rest) := by
  have hexp : (s.took d rest).expire (eSession c.entry) = s.took d rest := if_neg (by
    rw [show (s.took d rest).session (eSession c.entry) = s.session (eSession c.entry) from rfl]
    exact Bool.eq_false_iff.1 hx)
  unfold State.command
  simp only [State.take_front h, hexp]

theorem State.command_none {f : Cmd → Nat → State → State} (h : (s.deckle d).accepted = []) : s.command d code f = s := by
  simp [State.command, State.take, h]
end

/-- Only session `i`, and of the deckles not the accepted commands that follow, may differ. -/
def Serves (s : State) (d i : Nat) (rest : List Cmd) (t : State) : Prop :=
  s.SameSessionsBut t [i] ∧ (t.deckle d).accepted = rest ∧ t = { s with sessions := t.sessions, deckles := t.deckles }

namespace Serves

section
variable {s t : State} {d i : Nat} {rest : List Cmd}

theorem took : Serves s d i rest (s.took d rest) :=
  ⟨fun _ _ => rfl, congrArg Deckle.accepted (get_put_same ({} : Deckle) s.deckles d _), rfl⟩

theorem modSession (h : Serves s d i rest t) {f : Session → Session} : Serves s d i rest (t.modSession i f) := by
  obtain ⟨hsess, hacc, hframe⟩ := h
  refine ⟨fun j hj => ?_, hacc, ?_⟩
  · rw [State.session_modSession, if_neg (fun h => hj (by simp [h]))]
    exact hsess j hj
  · rw [hframe]
    rfl

theorem publish (h : Serves s d i rest t) {n r o q w} : Serves s d i rest (t.publish d n r o q w) := by
  obtain ⟨hsess, hacc, hframe⟩ := h
  refine ⟨hsess, ?_, ?_⟩
  · rw [State.publish, State.deckle_modDeckle_same]
    exact hacc
  · rw [hframe]
    rfl

theorem finish (h : Serves s d i rest t) {c st e en l w n o} : Serves s d i rest (t.finish d c st e en l w n o) := h.publish
end
end Serves

/-- A rejected command completes REJECTED with its error's code, and counts. -/
theorem State.reject_corrected (s : State) (d : Nat) (c : Cmd) {e : Err} (h : (errInfo e).cls = 1 ∧ (errInfo e).kind ≠ 0x18) :
    ∃ er x, s.reject d c e = { s.finishNow d c 6 (errCode e) with rejects := satAdd 32 s.rejects 1, errs := er, host := x } := by
  unfold State.reject
  extract_lets t u
  rw [if_pos h]
  obtain ⟨er, x, hu⟩ := u.corrected_errHost e 0 (some d) (eSession c.entry)
  exact ⟨er, x, hu⟩

theorem State.reject_silent (s : State) (d : Nat) (c : Cmd) {e : Err} (h : ¬((errInfo e).cls = 1 ∧ (errInfo e).kind ≠ 0x18)) :
    s.reject d c e = { s.finishNow d c 6 (errCode e) with rejects := satAdd 32 s.rejects 1 } := by
  unfold State.reject
  exact if_neg h

/-- A command a CLOSED session cannot take. -/
theorem State.reject_sessState (s : State) (d : Nat) (c : Cmd) (rest : List Cmd) :
    let t := (s.took d rest).reject d c .sessState
    t.Completed d c 6 (errCode .sessState) ∧ t.sessions = s.sessions ∧ t.rejects = satAdd 32 s.rejects 1 ∧
      (t.deckle d).accepted = rest ∧
      t = { s with deckles := t.deckles, errs := t.errs, host := t.host, rejects := t.rejects } := by
  have hfin := (s.took d rest).finish_completed d c 6 (errCode .sessState) 0 false false 0 (s.took d rest).tail
  obtain ⟨-, hacc, -⟩ := (Serves.took (s := s) (i := 0) (d := d) (rest := rest)).finish (c := c) (st := 6)
    (e := errCode .sessState) (en := 0) (l := false) (w := false) (n := 0) (o := (s.took d rest).tail)
  obtain ⟨e, h, hrej⟩ := (s.took d rest).reject_corrected d c (e := .sessState) (by decide)
  rw [hrej]
  exact ⟨hfin, rfl, rfl, hacc, rfl⟩

end Sys2Proof.Machine

namespace Sys2Proof.Machine

set_option Elab.async false

/-! ### The commands that leave a mark (R289 to R293) -/

section
variable (s : State) (d : Nat) (c : Cmd) (rest : List Cmd) (f : Session → Session)

/-- A mark in the descriptor of the session. -/
theorem State.took_marks : let t := (s.took d rest).modSession (eSession c.entry) f
    t.session (eSession c.entry) = f (s.session (eSession c.entry)) ∧ Serves s d (eSession c.entry) rest t :=
  ⟨State.session_modSession_same _ _ _, Serves.took.modSession⟩

/-- A mark, and the completion of the command. -/
theorem State.took_marks_done : let t := ((s.took d rest).modSession (eSession c.entry) f).finishNow d c 1 0
    t.session (eSession c.entry) = f (s.session (eSession c.entry)) ∧ t.Completed d c 1 0 ∧
    Serves s d (eSession c.entry) rest t :=
  ⟨State.session_modSession_same _ _ _, State.finish_completed .., Serves.took.modSession.finish⟩
end

/-- A command of a CLOSED session is refused; where there is none, nothing happens. -/
theorem State.command_closed {s : State} {d : Fin 16} {code : Nat} {c : Cmd} {rest : List Cmd} {cmd : Instr}
    {f : Cmd → Nat → State → State} (hcmd : exec cmd s = .next (s.command d.val code f))
    (hf : ∀ u : State, (u.session (eSession c.entry)).state = .closed → f c (eSession c.entry) u = u.reject d.val c .sessState) :
    (s.Front d.val code c rest → (s.session (eSession c.entry)).state = .closed → NextIs (exec cmd s) (fun t =>
      t.Completed d.val c 6 (errCode .sessState) ∧ t.sessions = s.sessions ∧ t.rejects = satAdd 32 s.rejects 1 ∧
      (t.deckle d.val).accepted = rest ∧
      t = { s with deckles := t.deckles, errs := t.errs, host := t.host, rejects := t.rejects })) ∧
    ((s.deckle d.val).accepted = [] → exec cmd s = .next s) := by
  refine ⟨fun hfront hclosed => ⟨_, ?_, s.reject_sessState d.val c rest⟩, fun hnone => ?_⟩
  · rw [hcmd, State.command_front hfront (by simp [Session.expired, hclosed]), hf (s.took d.val rest) hclosed]
  · rw [hcmd, State.command_none hnone]

/-- Settles O30. -/
theorem sessionCommands : Obligations.SessionCommands := by
  intro s d c rest b i x gives
  have hgives (cmd : Instr) (code : Nat) (f : Cmd → Nat → State → State) (y : Session → Session)
      (hcmd : exec cmd s = .next (s.command d.val code f)) (hx : x.expired = false) (hfront : s.Front d.val code c rest)
      (hf : f c i (s.took d.val rest) = (s.took d.val rest).modSession i y) : gives cmd false (y x) := by
    obtain ⟨hsess, hsame, hacc, hframe⟩ := s.took_marks d.val c rest y
    refine ⟨_, ?_, hsess, fun h => (nomatch h), hsame, hacc, hframe⟩
    rw [hcmd, State.command_front hfront hx]
    exact congrArg Host.Outcome.next hf
  have hdone (cmd : Instr) (code : Nat) (f : Cmd → Nat → State → State) (y : Session → Session)
      (hcmd : exec cmd s = .next (s.command d.val code f)) (hx : x.expired = false) (hfront : s.Front d.val code c rest)
      (hf : f c i (s.took d.val rest) = ((s.took d.val rest).modSession i y).finishNow d.val c 1 0) : gives cmd true (y x) := by
    obtain ⟨hsess, hcomp, hsame, hacc, hframe⟩ := s.took_marks_done d.val c rest y
    refine ⟨_, ?_, hsess, fun _ => hcomp, hsame, hacc, hframe⟩
    rw [hcmd, State.command_front hfront hx]
    exact congrArg Host.Outcome.next hf
  refine ⟨fun hopen httl => ?marks, fun code cmd hcmd => ?closed⟩
  case marks =>
    have hx : x.expired = false := by
      unfold Session.expired
      by_cases hp : x.state = .paused
      · simp [httl hp]
      · simp [hp]
    refine ⟨fun hfront hst hp hact hring => ?_, fun hfront hst hkv hreq => ?_, fun hfront hst hcan htag => ?_,
      fun hfront hkv hwait => ?_, fun hfront => ?_, fun hfront hkv hbound => ?_⟩
    · refine hgives _ 4 _ (fun x => { x with pausePending := some c, cancelAt := s.tick.now + 1 }) rfl hx hfront
        ((if_neg ?_).trans (if_neg ?_))
      · have hkind : (x.active.map (fun r => r.kind == .pause)).getD false = false := by
          cases ha : x.active with
          | none => rfl
          | some r => simpa using hact r ha
        show ¬(¬(x.state = .opened ∨ x.state = .decode ∨ x.state = .swapped) ∨ x.pausePending.isSome = true ∨
          (x.active.map (fun r => r.kind == .pause)).getD false = true)
        simp [hst, hp, hkind]
      · show ¬x.ring = true
        simp [hring]
    · refine hgives _ 5 _ (fun x => { x with resumeReq := some c }) rfl hx hfront
        ((if_neg ?_).trans ((if_neg ?_).trans (if_neg ?_)))
      · exact not_not.2 hst
      · show ¬x.kvInvalid = true
        simp [hkv]
      · show ¬x.resumeReq.isSome = true
        simp [hreq]
    · refine hdone _ 6 _ (fun x => { x with cancelPending := true, cancelAt := s.tick.now + 1 }) rfl hx hfront
        ((if_neg ?_).trans ((if_neg ?_).trans ((if_neg ?_).trans (if_neg ?_))))
      · exact fun h => h.elim hopen hst
      · show ¬x.cancelPending = true
        simp [hcan]
      · obtain ⟨r, hr, -⟩ := htag
        show ¬x.cancellable.isEmpty = true
        rw [List.isEmpty_iff]
        exact List.ne_nil_of_mem hr
      · obtain ⟨r, hr, htag⟩ := htag
        rintro ⟨hne, hany⟩
        have hnone : (!x.cancellable.any (fun r => eTag r.cmd.entry == cancelTag c.entry)) = true := hany
        rw [Bool.not_eq_true', List.any_eq_false] at hnone
        rcases htag with h0 | h0
        · exact hne h0
        · exact hnone r hr (by simp [h0])
    · refine hgives _ 7 _ (fun x => { x with waiting := some { kind := .checkpoint, cmd := c } }) rfl hx hfront
        ((if_neg hopen).trans ((if_neg ?_).trans (if_neg ?_)))
      · show ¬x.kvInvalid = true
        simp [hkv]
      · show ¬x.waiting.isSome = true
        simp [hwait]
    · exact hgives _ 8 _ (fun x => { x with closePending := x.closePending ++ [c], cancelAt := s.tick.now + 1 }) rfl hx hfront
        (if_neg hopen)
    · refine hdone _ 9 _ (fun x => { x with quire := sqQuire c.entry }) rfl hx hfront
        ((if_neg hopen).trans ((if_neg ?_).trans (if_neg ?_)))
      · show ¬x.kvInvalid = true
        simp [hkv]
      · show ¬(!s.quireBound d.val x.model (sqQuire c.entry) (s.nextGen i)) = true
        rw [show s.quireBound d.val x.model (sqQuire c.entry) (s.nextGen i) = true from hbound]
        decide
  case closed =>
    simp only [List.mem_cons, Prod.mk.injEq, List.not_mem_nil, or_false] at hcmd
    rcases hcmd with ⟨rfl, rfl⟩ | ⟨rfl, rfl⟩ | ⟨rfl, rfl⟩ | ⟨rfl, rfl⟩ | ⟨rfl, rfl⟩ | ⟨rfl, rfl⟩ | ⟨rfl, rfl⟩ | ⟨rfl, rfl⟩
    · refine State.command_closed (congrArg Host.Outcome.next (if_neg Bool.false_ne_true)) ?_
      exact fun u h => if_pos (by simp [h])
    · exact State.command_closed rfl fun u h => if_pos (by simp [h])
    · exact State.command_closed rfl fun u h => if_pos (by simp [h])
    · exact State.command_closed rfl fun u h => if_pos (by simp [h])
    · exact State.command_closed rfl fun u h => if_pos (by simp [h])
    · exact State.command_closed rfl fun u h => if_pos h
    · exact State.command_closed rfl fun u h => if_pos h
    · exact State.command_closed rfl fun u h => if_pos h

end Sys2Proof.Machine

namespace Sys2Proof.Machine

set_option Elab.async false

/-! ### Failed reads of host memory (R411) -/

theorem fldOf_fldCode (f : Fld) : fldOf (fldCode f) = some f := by
  cases f <;> rfl

/-- Fields with different codes, or copies in range, have different keys. -/
theorem fldKey_ne {f g : Fld} {c k : Nat} (hc : c < 2 ^ 24) (hk : k < 2 ^ 24) (h : f ≠ g ∨ c ≠ k) : fldKey f c ≠ fldKey g k := by
  intro he
  unfold fldKey at he
  have hcode : fldCode f = fldCode g := by omega
  have hf : some f = some g := by rw [← fldOf_fldCode f, ← fldOf_fldCode g, hcode]
  rcases h with h | h
  · exact h (Option.some.inj hf)
  · omega

/-- A report of class CONTAINED that names no session, no vat and does not count changes the registers of errors alone. -/
theorem State.report_contained_errHost (s : State) (r : Report) (hc : r.cls = none) (h2 : (errInfo r.err).cls = 2)
    (hcount : (errInfo r.err).counts = false) (hvat : r.vat = none) (hw : r.withdrawn = false) (hn : r.named = []) :
    ErrHost s (s.report r) := by
  obtain ⟨k, hk⟩ := s.report_contained r hc h2 hcount hvat hw
  rw [hk, hn]
  exact s.route_errHost ..

/-- Settles O33. -/
theorem failedReads : Obligations.FailedReads := by
  intro s d c rest
  refine ⟨fun h => ?few, fun h => ?many, fun hfront hst => ?prompt, fun w hw => ?others, ?owner⟩
  case few => exact congrArg Host.Outcome.next (if_pos h)
  case many =>
    obtain ⟨e, x, hr⟩ := State.report_contained_errHost
      ((s.modDeckle d.val (fun k => { k with sqFails := 0 })).setReg .sqEn d.val 0)
      { err := .deckHostRead, inst := d.val, deckle := some d.val } rfl rfl rfl rfl rfl rfl
    have hexec : execHostReadFail (.ring d) s = _ :=
      congrArg Host.Outcome.next ((if_neg (Nat.not_lt.2 h)).trans hr)
    refine ⟨_, hexec, State.reg_setReg_same (s := s.modDeckle d.val (fun k => { k with sqFails := 0 })) .sqEn d.val 0, ?_, fun f k hk hne => ?_, rfl⟩
    · exact congrArg Deckle.sqFails (get_put_same ({} : Deckle) s.deckles d.val _)
    · exact State.reg_setReg_ne (s.modDeckle d.val (fun k => { k with sqFails := 0 })) 0
        (fldKey_ne (by omega) hk (hne.imp Ne.symm Ne.symm))
  case prompt =>
    have hx : (s.session (eSession c.entry)).expired = false := by simp [Session.expired, hst]
    have hexec : execHostReadFail (.prompt d (eSession c.entry)) s = .next ((s.took d.val rest).reject d.val c .deckHostRead) := by
      refine congrArg Host.Outcome.next ((State.command_front hfront hx).trans ?_)
      exact if_pos rfl
    rw [State.reject_silent _ _ _ (by decide)] at hexec
    obtain ⟨-, hacc, -⟩ := (Serves.took (s := s) (i := 0) (d := d.val) (rest := rest)).finish (c := c) (st := 6)
      (e := errCode .deckHostRead) (en := 0) (l := false) (w := false) (n := 0) (o := (s.took d.val rest).tail)
    exact ⟨_, hexec, State.finish_completed .., rfl, hacc, rfl⟩
  case others =>
    simp only [List.mem_cons, List.not_mem_nil, or_false] at hw
    rcases hw with rfl | rfl | rfl
    · obtain ⟨e, x, ht⟩ := s.corrected_errHost .hubHostRead 0 none 0xFFFFFFFF
      exact ⟨_, congrArg Host.Outcome.next ht, rfl⟩
    · obtain ⟨e, x, ht⟩ := s.corrected_errHost .debugDenied 0 none 0xFFFFFFFF
      exact ⟨_, congrArg Host.Outcome.next ht, rfl⟩
    · obtain ⟨e, x, ht⟩ := s.report_contained_errHost { err := .deckHostRead, inst := d.val, deckle := some d.val }
        rfl rfl rfl rfl rfl rfl
      exact ⟨_, congrArg Host.Outcome.next ht, rfl⟩
  case owner =>
    obtain ⟨e, x, ht⟩ := State.corrected_errHost { s with sec := { s.sec with lastCmd := 2 } } .ownerDenied 0 none 0xFFFFFFFF
    have hexec : execHostReadFail .owner s = _ := congrArg Host.Outcome.next ht
    exact ⟨_, hexec, rfl, rfl⟩

/-! ### PREFILL and GENERATE (R286 to R288) -/

/-- A session with no request, a placed image and a valid KV takes work, and starts what asks for no more than its room. -/
structure Ready (s : State) (i : Nat) (m : Image) : Prop where
  active : (s.session i).active = none
  waiting : (s.session i).waiting = none
  swap : (s.session i).swapping ≠ some .outPause
  kv : (s.session i).kvInvalid = false
  due : (s.session i).commitDue = 0
  image : s.currentOf (s.session i).model = some m
  placed : (s.slot (s.session i).model).unplaced = false

section
variable {s : State} {i : Nat} {m : Image} (h : Ready s i m)
include h

theorem Ready.workBar : s.workBar i = none := by
  simp [State.workBar, Session.full, h.active, h.waiting, h.image, h.kv, h.placed]

theorem Ready.enqueue (r : Request) : s.enqueue i r = s.startRequest i r s.tail := by
  unfold State.enqueue
  exact if_pos ⟨by simp [h.active], by simp [h.waiting], h.swap⟩

theorem Ready.startBar_generate {r : Request} (hk : r.kind = .generate) (hp : (s.session i).hasPending = true)
    (hroom : (s.session i).commitLen < (s.session i).maxLen) : s.startBar i r = none := by
  simp [State.startBar, h.image, h.kv, h.placed, hk, hp, Session.len, h.due, hroom]

theorem Ready.startBar_prefill {r : Request} (hk : r.kind = .prefill)
    (hroom : (s.session i).commitLen + pCount r.cmd.entry ≤ (s.session i).maxLen) : s.startBar i r = none := by
  simp [State.startBar, h.image, h.kv, h.placed, hk, Session.len, h.due, hroom]
end

/-- The request a `PREFILL` starts: its pending token, if any, and its tokens, whose last one is left pending. -/
def Session.prefillOf (x : Session) (r : Request) : Request :=
  let toks := (if x.hasPending then [x.pendingTok] else []) ++ r.tokens
  { r with tokens := toks, remain := toks.length - 1, logged := x.len + b2n x.hasPending }

theorem Session.prefillOf_notDue {x : Session} {r : Request} (h : x.commitDue = 0) : x.prefillOf r =
    { r with tokens := (if x.hasPending then [x.pendingTok] else []) ++ r.tokens
             remain := ((if x.hasPending then [x.pendingTok] else []) ++ r.tokens).length - 1
             logged := x.commitLen + b2n x.hasPending } := by
  rw [Session.prefillOf, Session.len, h]
  rfl

section
variable {s : State} {i o : Nat} {r : Request} (hbar : s.startBar i r = none)
include hbar

theorem State.startRequest_generate (hk : r.kind = .generate) :
    s.startRequest i r o = s.modSession i (fun x => { x with active := some r }) := by
  unfold State.startRequest
  simp only [hbar, hk]

theorem State.startRequest_prefill (hk : r.kind = .prefill) (hlen : 1 < ((s.session i).prefillOf r).tokens.length) :
    s.startRequest i r o = s.modSession i (fun x => { x with
      active := some ((s.session i).prefillOf r), state := if x.state == .swapped then .swapped else .prefill }) := by
  cases r
  cases hk
  unfold State.startRequest
  simp only [hbar]
  exact if_neg (Nat.not_le.2 hlen)

theorem State.startRequest_one (hk : r.kind = .prefill) (hlen : ((s.session i).prefillOf r).tokens.length ≤ 1) :
    s.startRequest i r o =
      ((s.modSession i (fun x => { x with pendingTok := nth ((s.session i).prefillOf r).tokens 0, hasPending := true
                                          state := if x.state == .swapped then .swapped else .decode })).publish
        (s.deckOf i) i r.cmd.id o false [.log ((s.session i).histAddr + 4 * (s.session i).len)
          ((s.session i).prefillOf r).tokens]).finish (s.deckOf i) r.cmd 1 0 0 false r.swapped 0 o := by
  cases r
  cases hk
  unfold State.startRequest
  simp only [hbar]
  exact if_pos hlen
end

/-- What PREFILL does with a session that takes work and tokens the vocabulary has. -/
theorem execPrefill_enqueue {s : State} {d : Fin 16} {c : Cmd} {rest : List Cmd} {m : Image} {b : Bytes}
    (hready : Ready (s.took d.val rest) (eSession c.entry) m) (hfront : s.Front d.val 2 c rest)
    (hst : (s.session (eSession c.entry)).state = .opened ∨ (s.session (eSession c.entry)).state = .decode ∨
      (s.session (eSession c.entry)).state = .swapped) (hn : 0 < pCount c.entry)
    (htoks : ∀ w ∈ words32 (pCount c.entry) b, w < m.vocab)
    (hroom : (s.session (eSession c.entry)).commitLen + pCount c.entry ≤ (s.session (eSession c.entry)).maxLen) :
    execPrefill d (.data b) s = .next ((s.took d.val rest).startRequest (eSession c.entry)
      { kind := .prefill, cmd := c, tokens := words32 (pCount c.entry) b, remain := pCount c.entry } (s.took d.val rest).tail) := by
  have hx : (s.session (eSession c.entry)).expired = false := by
    rcases hst with h | h | h <;> simp [Session.expired, h]
  refine congrArg Host.Outcome.next ((if_neg Bool.false_ne_true).trans ((State.command_front hfront hx).trans ?_))
  refine (if_neg (not_not.2 hst)).trans ?_
  rw [hready.workBar]
  refine (if_neg (Nat.ne_of_gt hn)).trans ((if_neg ?_).trans ((if_neg (Nat.not_lt.2 hroom)).trans (hready.enqueue _)))
  rw [hready.image]
  simpa using htoks

/-- Settles O29: a ready session starts its request at once (log entry 10). -/
theorem workStarts : Obligations.WorkStarts := by
  intro s d c rest m b i x frame hdeck hact hwait hswap hkv hdue himg hplaced
  have hready : Ready (s.took d.val rest) (eSession c.entry) m := ⟨hact, hwait, hswap, hkv, hdue, himg, hplaced⟩
  refine ⟨fun hfront hst hbad hpend hroom => ?generate, fun hfront hst hn htoks hroom => ?prefill,
    congrArg Host.Outcome.next (if_pos rfl)⟩
  case generate =>
    have hx : (s.session (eSession c.entry)).expired = false := by
      rcases hst with h | h <;> simp [Session.expired, x, i, h]
    refine ⟨(s.took d.val rest).modSession i (fun x => { x with active := some {
        kind := .generate, cmd := c, remain := gMaxTokens c.entry, credit := 2 ^ gRingLog2 c.entry } }),
      congrArg Host.Outcome.next ((State.command_front hfront hx).trans ((if_neg (not_not.2 hst)).trans ?_)),
      State.session_modSession_same _ _ _, Serves.took.modSession⟩
    rw [hready.workBar]
    refine (if_neg (ne_true_of_eq_false hbad)).trans ((if_neg ?_).trans ((if_neg (Nat.not_le.2 hroom)).trans
      ((hready.enqueue _).trans (State.startRequest_generate (hready.startBar_generate rfl hpend hroom) rfl))))
    exact ne_true_of_eq_false (congrArg not hpend)
  case prefill =>
    have hexec := execPrefill_enqueue hready hfront hst hn htoks hroom
    have hbar := hready.startBar_prefill (r := { kind := .prefill, cmd := c, tokens := words32 (pCount c.entry) b
                                                 remain := pCount c.entry }) rfl hroom
    intro toks
    refine ⟨fun hlen => ⟨_, hexec.trans (congrArg Host.Outcome.next (State.startRequest_prefill hbar rfl hlen)), ?_,
      Serves.took.modSession⟩, fun hlen => ⟨_, hexec.trans (congrArg Host.Outcome.next
        (State.startRequest_one hbar rfl hlen)), ?_, ?_, ?_⟩⟩
    · refine (State.session_modSession_same (s.took d.val rest) i _).trans ?_
      rw [Session.prefillOf_notDue (x := (s.took d.val rest).session (eSession c.entry)) hdue]
      rfl
    · exact State.session_modSession_same (s.took d.val rest) (eSession c.entry) (fun x => { x with
        pendingTok := nth toks 0, hasPending := true, state := if x.state == .swapped then .swapped else .decode })
    · rw [show (s.took d.val rest).deckOf (eSession c.entry) = d.val from hdeck]
      exact State.finish_completed ..
    · rw [show (s.took d.val rest).deckOf (eSession c.entry) = d.val from hdeck]
      exact Serves.took.modSession.publish.finish

end Sys2Proof.Machine

/-! ## OPEN (R285, R271) -/

namespace Sys2Proof.Machine

set_option Elab.async false

/-! ### Pages of a new owner -/

theorem get_foldl_put_range {d v : Nat} (m : List (Nat × Nat)) (k n p : Nat) :
    get d ((List.range n).foldl (fun m i => put d m (k + i) v) m) p = if k ≤ p ∧ p < k + n then v else get d m p := by
  induction n with
  | zero => rw [if_neg (by omega)]; rfl
  | succ n ih =>
    rw [List.range_succ, List.foldl_append, List.foldl_cons, List.foldl_nil, get_put, ih]
    by_cases hp : k + n = p
    · rw [if_pos hp, if_pos (by omega)]
    · rw [if_neg hp]
      exact if_congr (by omega) rfl rfl

theorem State.owner_own (s : State) (k n b p : Nat) :
    (s.own k n b).owner p = if k ≤ p ∧ p < k + n then b else s.owner p :=
  get_foldl_put_range s.owners k n p

theorem State.writeMem_sameBytesOutside (s : State) (a : Nat) (bs : Bytes) : s.SameBytesOutside (s.writeMem a bs) [(a, bs.length)] := by
  intro i hi
  have hout : i < a ∨ a + bs.length ≤ i := hi (a, bs.length) (List.mem_singleton_self _)
  rw [State.byte_writeMem, if_neg (by omega)]

theorem regionHeader_length (d i first : Nat) (m : Image) (fmt n pages : Nat) :
    (regionHeader d i first m fmt n pages).length = 256 := by
  simp only [regionHeader, List.length_append, leBytes_length, List.length_replicate]

/-! ### The session and its region -/

/-- The descriptor of a session whose OPEN has begun. -/
def Session.beginning (c : Cmd) (o : OpenSpec) : Session :=
  { openReq := some c, int4 := o.fmt == 1, ring := o.chunk != 0, chunkLog2 := o.chunk, member := oMember c.entry
    restarted := o.restart, priority := o.priority, quire := o.quire, model := oModel c.entry, seed := o.seed
    maxLen := o.maxLen, histAddr := oHistAddr c.entry, firstPos := firstPosOf o.chunk (oMember c.entry) }

/-- The state in which session `i` owns its region of `pages` pages from page `k` of stack `st` on. -/
def State.openedAt (s : State) (d i st k pages : Nat) (header : Bytes) : State :=
  (((s.own k pages (ownDeckle d)).setRegion i st k pages).modSession i
    (fun x => { x with openReq := none, state := .opened, resident := true, kvAddr := k * 65536 })).writeMem (k * 65536) header

/-- What OPEN leaves unchanged. -/
def OpenFrame (s t : State) : Prop :=
  t = { s with sessions := t.sessions, deckles := t.deckles, owners := t.owners, free := t.free, mem := t.mem }

namespace OpenFrame

section
variable {s t : State} (h : OpenFrame s t)
include h

theorem own {k n b} : OpenFrame s (t.own k n b) := by
  rw [OpenFrame, h]
  rfl

theorem modSession {i f} : OpenFrame s (t.modSession i f) := by
  rw [OpenFrame, h]
  rfl

theorem writeMem {a b} : OpenFrame s (t.writeMem a b) := by
  rw [OpenFrame, h]
  rfl

theorem publish {d i r o q w} : OpenFrame s (t.publish d i r o q w) := by
  rw [OpenFrame, h]
  rfl

theorem finishNow {d c a b} : OpenFrame s (t.finishNow d c a b) := OpenFrame.publish h

theorem setRegion {i st k n} : OpenFrame s (t.setRegion i st k n) := OpenFrame.modSession h

end

end OpenFrame

section
variable {s : State} {i d st k : Nat} {m : Image} {c : Cmd}

/-- The state after an OPEN that completes. -/
def State.opened (s : State) (d i st k pages : Nat) (header : Bytes) (c : Cmd) : State :=
  (s.openedAt d i st k pages header).finishNow d c 1 0

theorem State.opened_frame {pages : Nat} {h : Bytes} : OpenFrame s (s.opened d i st k pages h c) :=
  have hself : OpenFrame s s := rfl
  hself.own.setRegion.modSession.writeMem.finishNow

theorem State.opened_owners {pages : Nat} {h : Bytes} :
    (s.opened d i st k pages h c).owners = (s.own k pages (ownDeckle d)).owners := rfl

theorem State.opened_mem {pages : Nat} {h : Bytes} :
    (s.opened d i st k pages h c).mem = (s.writeMem (k * 65536) h).mem := rfl

theorem State.session_opened {pages : Nat} {h : Bytes} (j : Nat) : (s.opened d i st k pages h c).session j =
    if i = j then { s.session i with regStack := st, regPages := k, kvPages := pages, openReq := none, state := .opened
                                     resident := true, kvAddr := k * 65536 } else s.session j := by
  have hsess : (s.opened d i st k pages h c).session j = ((s.setRegion i st k pages).modSession i (fun x => { x with
    openReq := none, state := .opened, resident := true, kvAddr := k * 65536 })).session j := rfl
  rw [hsess]
  by_cases hj : i = j
  · rw [if_pos hj, ← hj, State.session_modSession_same, State.setRegion, State.session_modSession_same]
  · rw [if_neg hj, State.session_modSession, if_neg hj, State.setRegion, State.session_modSession, if_neg hj]

theorem State.makeRoom_ok {n : Nat} (h : s.kvUsed d + n ≤ s.reg .kvQuota d) : s.makeRoom d n = (.ok, s) :=
  if_pos (by omega)

theorem State.placeRegion_some {n : Nat} (hst : s.regionStack d n = some st) (hk : s.gapIn st n = some k) :
    s.placeRegion d n = some (st, k, s.own k n (ownDeckle d)) := by
  simp [State.placeRegion, hst, hk]

theorem State.tryOpen_placed {x : Session} {n pages : Nat} (hx : s.session i = x) (hreq : x.openReq = some c)
    (hd : s.deckOf i = d) (hload : s.reloading (seqCode .kv) = false) (him : s.currentOf x.model = some m)
    (hn : localLen x.maxLen x.chunkLog2 x.member = n) (hpages : regionPages m.layers m.kvHeads n x.int4 = pages)
    (hlen : n ≤ 1048576) (hfit : pages ≤ stackPages) (hquota : s.kvUsed d + pages ≤ s.reg .kvQuota d)
    (hst : s.regionStack d pages = some st) (hk : s.gapIn st pages = some k) :
    s.tryOpen i = s.opened d i st k pages (regionHeader d i x.firstPos m (b2n x.int4) n pages) c := by
  subst hx hn hpages
  unfold State.tryOpen
  simp only [hreq, hload, Bool.false_eq_true, if_false, him, hd]
  rw [if_neg (by omega), State.makeRoom_ok hquota]
  dsimp only
  rw [State.placeRegion_some hst hk]
  rfl

theorem State.openBar_fmt {e : Bytes} {o : OpenSpec} (h : s.openBar d e o = none) : o.fmt ≤ 1 := by
  by_contra hlt
  unfold State.openBar at h
  simp [show 1 < o.fmt by omega] at h
  split_ifs at h
end

/-- OPEN of a session whose descriptor is at its reset value begins, and places its region. -/
theorem execOpenSession_begins {s : State} {d : Fin 16} {c : Cmd} {rest : List Cmd} {rd : HostRead}
    (hfront : s.Front d.val 1 c rest) (hx : s.session (eSession c.entry) = {}) (hck : oCkptAddr c.entry = 0)
    (hbar : s.openBar d.val c.entry (openOfEntry c.entry) = none) :
    exec (.openSession d rd rd) s =
      .next ((s.took d.val rest).beginOpen d.val (eSession c.entry) c (openOfEntry c.entry)) := by
  have hexp : (s.took d.val rest).expire (eSession c.entry) = s.took d.val rest := if_neg (by
    rw [show (s.took d.val rest).session (eSession c.entry) = {} from hx]
    decide)
  have hbar' : (s.took d.val rest).openBar d.val c.entry (openOfEntry c.entry) = none := hbar
  refine congrArg Host.Outcome.next ?_
  rw [State.take_front hfront]
  dsimp only
  rw [hexp, if_neg, if_pos hck, hbar']
  rw [show (s.took d.val rest).session (eSession c.entry) = {} from hx]
  decide

theorem State.beginOpen_eq (s : State) (d i : Nat) (c : Cmd) (o : OpenSpec) : s.beginOpen d i c o =
    State.tryOpen { s with sessions := put {} s.sessions i (Session.beginning c o), deckles := (s.dropSnap d i).deckles } i := by
  have hstate : { s.dropSnap d i with sessions := put {} (s.dropSnap d i).sessions i (Session.beginning c o) } =
      { s with sessions := put {} s.sessions i (Session.beginning c o), deckles := (s.dropSnap d i).deckles } := rfl
  rw [← hstate]
  rfl

/-- Settles O31. -/
theorem openCompletes : Obligations.OpenCompletes := by
  intro s d c rest m st k rd i o n pages hfront hload hx hsnap hck hdeck hbar him hn hpages hquota hst hk
  obtain ⟨a, ha⟩ : ∃ a, a = put {} s.sessions i (Session.beginning c o) := ⟨_, rfl⟩
  obtain ⟨b, hb⟩ : ∃ b, b = ((s.took d.val rest).dropSnap d.val i).deckles := ⟨_, rfl⟩
  obtain ⟨v, hv⟩ : ∃ v : State, v = { s with sessions := a, deckles := b } := ⟨_, rfl⟩
  have hxv : v.session i = Session.beginning c o := by
    rw [hv, ha]
    exact get_put_same ({} : Session) s.sessions i _
  have hfmt : b2n (o.fmt == 1) = o.fmt := by
    have := State.openBar_fmt hbar
    interval_cases o.fmt <;> rfl
  have hexec : exec (.openSession d rd rd) s = .next (v.tryOpen i) := by
    rw [execOpenSession_begins hfront hx hck hbar, State.beginOpen_eq, hv, ha, hb]
    rfl
  rw [State.tryOpen_placed (x := Session.beginning c o) (n := n) (pages := pages) (m := m) (st := st) (k := k) (d := d.val)
    hxv rfl (by rw [hv]; exact hdeck) (by rw [hv]; exact hload) (by rw [hv]; exact him) rfl rfl hn hpages
    (by rw [hv]; exact hquota) (by rw [hv]; exact hst) (by rw [hv]; exact hk)] at hexec
  rw [hexec]
  have hout : (regionHeader d.val i (Session.beginning c o).firstPos m (b2n (Session.beginning c o).int4) n pages).length = 256 :=
    regionHeader_length ..
  refine ⟨_, rfl, ?_, fun p hlo hhi => ?_, fun p hp => ?_, ?_, ?_, State.finish_completed .., fun j hj => ?_, ?_⟩
  · rw [State.session_opened, if_pos rfl, hxv]
    exact ⟨rfl, rfl, rfl, rfl, rfl, rfl, rfl, rfl, rfl, rfl, rfl, rfl, rfl, rfl, rfl⟩
  · rw [State.owner, State.opened_owners]
    exact (v.owner_own k pages _ p).trans (if_pos ⟨hlo, hhi⟩)
  · rw [State.owner, State.opened_owners]
    exact (v.owner_own k pages _ p).trans ((if_neg (by omega)).trans (by rw [hv]; rfl))
  · have hread := v.readMem_writeMem_same (k * 65536) (regionHeader d.val i (Session.beginning c o).firstPos m
      (b2n (Session.beginning c o).int4) n pages)
    rw [hout] at hread
    rw [← hfmt, State.readMem]
    simp only [State.byte, State.opened_mem]
    exact hread
  · intro a' ha'
    have hsame := v.writeMem_sameBytesOutside (k * 65536) (regionHeader d.val i (Session.beginning c o).firstPos m
      (b2n (Session.beginning c o).int4) n pages)
    rw [hout] at hsame
    rw [State.byte, State.opened_mem]
    exact (hsame a' ha').trans (by rw [hv]; rfl)
  · rw [State.session_opened, if_neg (fun h => hj (by simp [h])), hv, ha]
    exact get_put_ne ({} : Session) s.sessions _ (fun h => hj (by simp [h]))
  · have hframe := v.opened_frame (d := d.val) (i := i) (st := st) (k := k) (c := c) (pages := pages) (h :=
      regionHeader d.val i (Session.beginning c o).firstPos m (b2n (Session.beginning c o).int4) n pages)
    rw [OpenFrame, hv] at hframe
    rw [hv]
    exact hframe

end Sys2Proof.Machine

/-! ## Ream operations that begin or are refused (R315 to R320) -/

namespace Sys2Proof.Machine

set_option Elab.async false

/-! ### Status records -/

theorem State.pfVector_reaches (s : State) (v : Nat) : ErrHost s (s.pfVector v) := by
  obtain ⟨_, _, _, h⟩ := s.pfVector_sends v
  exact ⟨_, _, h⟩

theorem State.flushPf_errHost (s : State) : ErrHost s s.flushPf := by
  obtain ⟨_, _, _, h⟩ := s.flushPf_sends
  exact ⟨_, _, h⟩

theorem State.pfStatus_errHost (s : State) (b : Bytes) (n r : Nat) : ErrHost s (s.pfStatus b n r) := by
  unfold State.pfStatus
  extract_lets x t
  have ht : ErrHost s t := ⟨_, _, rfl⟩
  split
  · exact ht.trans (t.pfVector_reaches 0)
  · exact ht.trans (t.flushPf_errHost.trans (t.flushPf.pfVector_reaches 0))

theorem State.raiseVector_pfRecs (s : State) (fn v : Nat) : (s.raiseVector fn v).host.pfRecs = s.host.pfRecs := by
  unfold State.raiseVector
  split <;> rfl

/-- Within a tick a status record waits for the publication phase. -/
theorem State.pfStatus_waits (s : State) (b : Bytes) (n r : Nat) (h : s.tick.inTick = true) :
    (s.pfStatus b n r).host.pfRecs = s.host.pfRecs ++ [(dStatus b, s.statusRecord b n r)] := by
  unfold State.pfStatus
  extract_lets x t
  have ht : t.ticking = true := by
    show (s.tick.inTick || _) = true
    rw [h, Bool.true_or]
  rw [if_pos ht, State.pfVector]
  refine (congrArg (fun u : State => u.host.pfRecs) (if_pos ?_)).trans (t.raiseVector_pfRecs 0 0)
  unfold State.raiseVector
  split
  · exact ht
  · exact ht

/-- A refused operation writes its error and its status record alone. -/
theorem State.reamRefused_errHost (s : State) (b : Bytes) (n : Nat) (e : Err) : ErrHost s (s.reamRefused b n e) :=
  (s.corrected_errHost e 0 none _).trans (State.pfStatus_errHost ..)

theorem State.reamRefused_waits (s : State) (b : Bytes) (n : Nat) (e : Err) (h : s.tick.inTick = true) :
    (dStatus b, s.statusRecord b n (errCode e)) ∈ (s.reamRefused b n e).host.pfRecs := by
  have htick := s.corrected_tick e
  rw [State.reamRefused, State.pfStatus_waits _ _ _ _ (by rw [htick, h])]
  refine List.mem_append_right _ (List.mem_singleton.2 ?_)
  rw [State.statusRecord, State.statusRecord, htick]

/-- What a refusal shows and what it leaves. -/
theorem State.reamRefused_refuses {s : State} {c : Instr} {b : Bytes} {e : Err} (h : exec c s = .next (s.reamRefused b 0 e)) :
    NextIs (exec c s) (fun t => (s.tick.inTick = true → (dStatus b, s.statusRecord b 0 (errCode e)) ∈ t.host.pfRecs) ∧
      t = { s with errs := t.errs, host := t.host }) := by
  refine ⟨_, h, s.reamRefused_waits b 0 e, ?_⟩
  obtain ⟨er, x, ht⟩ := s.reamRefused_errHost b 0 e
  rw [ht]

/-! ### Descriptors -/

section
variable {s : State} {b : Bytes} {op : Nat} {f : Bytes → State}

theorem State.withDesc_data (hload : s.reloading (seqCode .ream) = false) (hk : dSlot b ≤ 15) (hop : dOp b = op)
    (hlo : 1 ≤ op) (hhi : op ≤ 6) : s.withDesc (.data b) op f = f b := by
  unfold State.withDesc
  rw [if_neg (ne_true_of_eq_false hload)]
  exact (if_neg (by omega)).trans (if_neg (not_not.2 hop))

theorem State.withDesc_late : s.withDesc .late op f = s := by
  unfold State.withDesc
  split <;> rfl

end

/-- Only slot `k` has changed, to `y`. -/
theorem State.modSlot_starts {s : State} {c : Instr} {k : Nat} {f : Slot → Slot} {y : Slot}
    (h : exec c s = .next (s.modSlot k f)) (hy : f (s.slot k) = y) :
    NextIs (exec c s) (fun t => t.slot k = y ∧ (∀ j, j ≠ k → t.slot j = s.slot j) ∧ t = { s with slots := t.slots }) :=
  ⟨_, h, by rw [State.slot_modSlot_same, hy], fun j hj => by rw [State.slot_modSlot, if_neg (Ne.symm hj)], rfl⟩

section
variable {s : State} {b : Bytes}

theorem State.slotBusy_of_op {k : Nat} {o : SlotOp} (h : (s.slot k).op = some o) : s.slotBusy k = true := by
  simp [State.slotBusy, h]

theorem State.loadBar_busy (h : s.slotBusy (dSlot b) = true) : s.loadBar b = some .slotBusy := if_pos (.inl h)

theorem State.loadBar_order (hbusy : s.slotBusy (dSlot b) = false) (hin : (s.slot (dSlot b)).incoming = none)
    (hroom : (s.slot (dSlot b)).current = none ∨ (s.slot (dSlot b)).retiring = none)
    (hgen : dGen b < (s.slot (dSlot b)).lastGen) : s.loadBar b = some .genOrder := by
  unfold State.loadBar
  rw [if_neg, if_pos hgen]
  rcases hroom with h | h <;> simp [hbusy, hin, h]

theorem State.loadBar_none (hbusy : s.slotBusy (dSlot b) = false) (hin : (s.slot (dSlot b)).incoming = none)
    (hroom : (s.slot (dSlot b)).current = none ∨ (s.slot (dSlot b)).retiring = none)
    (hgen : (s.slot (dSlot b)).lastGen ≤ dGen b) : s.loadBar b = none := by
  unfold State.loadBar
  rw [if_neg, if_neg (Nat.not_lt.2 hgen)]
  rcases hroom with h | h <;> simp [hbusy, hin, h]

/-- A LOAD to this module alone has nobody to forward to. -/
theorem State.couchOpen_noChain : (s.startLoad b []).couchOpen (dSlot b) = s.startLoad b [] := by
  have hop : ((s.startLoad b []).slot (dSlot b)).op = some { op := dOp b, desc := b, begun := dOp b == 1 } := by
    rw [State.startLoad, State.slot_modSlot_same]
  unfold State.couchOpen
  rw [hop]
end

/-- An operation refused at its descriptor. -/
theorem State.withDesc_refuses {s : State} {c : Instr} {b : Bytes} {e : Err} {op : Nat} {f : Bytes → State}
    (hload : s.reloading (seqCode .ream) = false) (hk : dSlot b ≤ 15) (hop : dOp b = op) (hlo : 1 ≤ op) (hhi : op ≤ 6)
    (hc : exec c s = .next (s.withDesc (.data b) op f)) (h : f b = s.reamRefused b 0 e) :
    NextIs (exec c s) (fun t => (s.tick.inTick = true → (dStatus b, s.statusRecord b 0 (errCode e)) ∈ t.host.pfRecs) ∧
      t = { s with errs := t.errs, host := t.host }) :=
  State.reamRefused_refuses (hc.trans (congrArg Host.Outcome.next ((State.withDesc_data hload hk hop hlo hhi).trans h)))

/-- Settles O34. -/
theorem reamOperationsStart : Obligations.ReamOperationsStart := by
  intro s b m o k x starts refuses opened calm
  refine ⟨fun hload hk => ⟨fun hbusy hin hroom hgen => ⟨fun hop hca hsrc hcl hsp => ?load, fun hop hport => ?recv⟩,
    fun hbusy hop hcalm hin hready => ?switch, fun hbusy hop => ?unload, fun hop h1 h6 z hz hzop => ?busy,
    fun hbusy hin hcur hgen => ⟨fun hop => ?loadOrder, fun hop => ?recvOrder⟩, fun hbusy hcalm hin hop => ?noImage⟩,
    fun c hc => ?late⟩
  case load =>
    have hstart : exec (.load (.data b) .late) s = .next (s.startLoad b []) := by
      refine congrArg Host.Outcome.next ((State.withDesc_data hload hk hop (by omega) (by omega)).trans ?_)
      rw [State.loadBar_none hbusy hin hroom hgen]
      dsimp only
      rw [if_pos hca]
      refine (if_neg (by omega)).trans ((if_neg (by simp [hsp])).trans ?_)
      rw [hcl]
      exact State.couchOpen_noChain
    exact State.modSlot_starts hstart (by simp [hop, opened, x, k])
  case recv =>
    have hstart : exec (.couchRecv (.data b)) s = .next (s.startLoad b []) := by
      refine congrArg Host.Outcome.next ((State.withDesc_data hload hk hop (by omega) (by omega)).trans ?_)
      rw [State.loadBar_none hbusy hin hroom hgen]
      exact if_neg (by omega)
    exact State.modSlot_starts hstart (by simp [hop, opened, x, k])
  case switch =>
    refine State.modSlot_starts (f := fun x => { x with op := some { op := 2, desc := b, due := some s.tick.now } })
      (congrArg Host.Outcome.next ((State.withDesc_data hload hk hop (by omega) (by omega)).trans
        ((if_neg ?_).trans (if_pos ?_)))) rfl
    · rcases hcalm with h | h | h <;> simp [hbusy, x, k, h]
    · rw [show (s.slot (dSlot b)).incoming = some m from hin]
      exact beq_iff_eq.2 hready
  case unload =>
    exact State.modSlot_starts (f := fun x => { x with op := some { op := 4, desc := b, due := some s.tick.now } })
      (congrArg Host.Outcome.next ((State.withDesc_data hload hk hop (by omega) (by omega)).trans
        (if_neg (ne_true_of_eq_false hbusy)))) rfl
  case busy =>
    have hbusy := State.slotBusy_of_op hop
    have hbar := State.loadBar_busy hbusy
    simp only [List.mem_cons, List.not_mem_nil, or_false] at hz
    rcases hz with rfl | rfl | rfl | rfl | rfl | rfl
    · exact State.withDesc_refuses hload hk hzop (by omega) (by omega) rfl (by rw [hbar])
    · exact State.withDesc_refuses hload hk hzop (by omega) (by omega) rfl (if_pos (.inl hbusy))
    · refine State.withDesc_refuses hload hk hzop (by omega) (by omega) rfl ?_
      dsimp only
      rw [hop]
      exact if_neg (by omega)
    · exact State.withDesc_refuses hload hk hzop (by omega) (by omega) rfl (if_pos hbusy)
    · exact State.withDesc_refuses hload hk hzop (by omega) (by omega) rfl (if_pos hbusy)
    · exact State.withDesc_refuses hload hk hzop (by omega) (by omega) rfl (by rw [hbar])
  case loadOrder =>
    exact State.withDesc_refuses hload hk hop (by omega) (by omega) rfl (by rw [State.loadBar_order hbusy hin (.inl hcur) hgen])
  case recvOrder =>
    exact State.withDesc_refuses hload hk hop (by omega) (by omega) rfl (by rw [State.loadBar_order hbusy hin (.inl hcur) hgen])
  case noImage =>
    refine State.withDesc_refuses hload hk hop (by omega) (by omega) rfl ((if_neg ?_).trans (if_neg ?_))
    · rcases hcalm with h | h | h <;> simp [hbusy, x, k, h]
    · rw [show (s.slot (dSlot b)).incoming = none from hin]
      exact Bool.false_ne_true
  case late =>
    simp only [List.mem_cons, List.not_mem_nil, or_false] at hc
    rcases hc with rfl | rfl | rfl | rfl | rfl | rfl <;> exact congrArg Host.Outcome.next State.withDesc_late

end Sys2Proof.Machine

/-! ## QLOAD and QUNLOAD (R326 to R330) -/

namespace Sys2Proof.Machine

set_option Elab.async false

/-! ### Pages released -/

theorem State.withdrawPage_leaves (s : State) (k : Nat) :
    ∃ o e h, s.withdrawPage k = { s with pageOut := o, errs := e, host := h } := by
  obtain ⟨e, h, hr⟩ := State.report_errHost { s with pageOut := put 0 s.pageOut k 1 }
    { err := .pageWithdrawn, inst := k / stackPages, addr := k * 65536 } rfl rfl rfl
  exact ⟨_, e, h, hr⟩

/-- A release writes owners, and pages that go out with it and their errors. -/
theorem State.release_leaves (ks : List Nat) (s : State) : ∃ w o e h,
    s.release ks = { s with owners := w, pageOut := o, errs := e, host := h } ∧
      ∀ p, get 0 w p = if p ∈ ks then 0 else s.owner p := by
  induction ks generalizing s with
  | nil => exact ⟨_, _, _, _, rfl, fun p => by simp [State.owner]⟩
  | cons k ks ih =>
    obtain ⟨o, e, h, hone⟩ : ∃ o e h, (if get 0 s.pageOut k = 2 then
        State.withdrawPage { s with owners := put 0 s.owners k 0 } k else { s with owners := put 0 s.owners k 0 }) =
        { s with owners := put 0 s.owners k 0, pageOut := o, errs := e, host := h } := by
      split
      · exact State.withdrawPage_leaves _ k
      · exact ⟨_, _, _, rfl⟩
    obtain ⟨w, o', e', h', hrest, hown⟩ := ih { s with owners := put 0 s.owners k 0, pageOut := o, errs := e, host := h }
    refine ⟨w, o', e', h', ?_, fun p => ?_⟩
    · refine (congrArg (fun t : State => t.release ks) hone).trans ?_
      rw [hrest]
    · rw [hown, State.owner, get_put]
      by_cases hp : k = p
      · simp [hp]
      · simp [hp, Ne.symm hp, State.owner]

/-! ### Quire operations -/

section
variable {s : State} {d op : Nat} {b : Bytes} {f : Bytes → State}

theorem State.withQuireDesc_data (hload : s.reloading (seqCode .ream) = false) (hk : dSlot b ≤ 15) (hidx : dDeckles b ≤ 1023)
    (hop : dOp b = op) (hq : op = 0x11 ∨ op = 0x12) : s.withQuireDesc d (.data b) op f = f b := by
  unfold State.withQuireDesc
  rw [if_neg (ne_true_of_eq_false hload)]
  exact (if_neg (by omega)).trans (if_neg (not_not.2 hop))

theorem State.withQuireDesc_late : s.withQuireDesc d .late op f = s := by
  unfold State.withQuireDesc
  split <;> rfl

theorem State.quireStatus_waits (s : State) (d : Nat) (b : Bytes) (n r : Nat) :
    ∃ u ∈ ((s.quireStatus d b n r).deckle d).units, u.writes = [.quireStatus (dStatus b) (s.statusRecord b n r)] := by
  refine ⟨{ quire := true, order := s.tail, writes := [.quireStatus (dStatus b) (s.statusRecord b n r)] }, ?_, rfl⟩
  rw [State.quireStatus, State.deckle_modDeckle_same]
  exact List.mem_append_right _ (List.mem_singleton_self _)
end

/-- Settles O36. -/
theorem quireOperations : Obligations.QuireOperations := by
  intro s d b k used gone
  refine ⟨fun hload hk hidx hbusy => ⟨fun hop => ?load, fun hop hused => ?unload, fun hop hused => ?inUse⟩,
    congrArg Host.Outcome.next State.withQuireDesc_late, congrArg Host.Outcome.next State.withQuireDesc_late⟩
  case load =>
    refine ⟨_, congrArg Host.Outcome.next ((State.withQuireDesc_data hload hk hidx hop (.inl rfl)).trans
      (if_neg (ne_true_of_eq_false hbusy))), ?_, rfl⟩
    rw [State.deckle_modDeckle_same]
    exact get_put_same ({} : SlotOp) (s.deckle d.val).qops k { op := 0x11, fn := d.val + 1, desc := b }
  case unload =>
    obtain ⟨w, o, e, h, hrel, hown⟩ := s.release_leaves ((s.quires.filter gone).foldl (fun a q => a ++ q.pages) [])
    have hexec : exec (.qunload d (.data b)) s = .next (State.quireStatus { s with
        owners := w, pageOut := o, errs := e, host := h, quires := s.quires.filter (fun q => !gone q) } d.val b 0 0) := by
      refine congrArg Host.Outcome.next ((State.withQuireDesc_data hload hk hidx hop (.inr rfl)).trans
        ((if_neg (ne_true_of_eq_false hbusy)).trans ((if_neg (ne_true_of_eq_false hused)).trans ?_)))
      refine (congrArg (fun t : State => State.quireStatus { t with quires := t.quires.filter (fun q => !gone q) } d.val b 0 0)
        hrel).trans ?_
      rfl
    refine ⟨_, hexec, rfl, fun q hq hg p hp => (hown p).trans (if_pos ?_), State.quireStatus_waits _ _ _ _ _, rfl⟩
    rw [← List.flatMap_eq_foldl]
    exact List.mem_flatMap.2 ⟨q, List.mem_filter.2 ⟨hq, hg⟩, hp⟩
  case inUse =>
    obtain ⟨e, h, hc⟩ := s.corrected_errHost .quireInUse 0 (some d.val) 0xFFFFFFFF
    have hexec : exec (.qunload d (.data b)) s =
        .next (State.quireStatus { s with errs := e, host := h } d.val b 0 (errCode .quireInUse)) := by
      refine congrArg Host.Outcome.next ((State.withQuireDesc_data hload hk hidx hop (.inr rfl)).trans
        ((if_neg (ne_true_of_eq_false hbusy)).trans ((if_pos hused).trans ?_)))
      refine (congrArg (fun t : State => t.quireStatus d.val b 0 (errCode .quireInUse)) ((if_pos rfl).trans hc)).trans ?_
      rfl
    exact ⟨_, hexec, rfl, State.quireStatus_waits _ _ _ _ _, rfl⟩

end Sys2Proof.Machine

/-! ## The requests of a session (R284 to R293, R334) -/

namespace Sys2Proof.Machine

set_option Elab.async false

/-! ### Which sessions an end or a start of a request touches -/

section
variable (s : State) (i : Nat)

theorem State.reject_sessions (d : Nat) (c : Cmd) (e : Err) : (s.reject d c e).sessions = s.sessions := by
  unfold State.reject
  extract_lets t u
  split
  · obtain ⟨x, h, hu⟩ := u.corrected_errHost e 0 (some d) (eSession c.entry)
    rw [show u.corrected e 0 (some d) (eSession c.entry) = _ from hu]
    rfl
  · rfl

theorem State.dropStep_sessions (d k : Nat) : (s.dropStep d k).sessions = s.sessions := by
  unfold State.dropStep
  split <;> rfl

theorem State.foldl_sessions {α : Type} {f : State → α → State} (hf : ∀ u a, (f u a).sessions = u.sessions) :
    ∀ (l : List α) (s : State), (l.foldl f s).sessions = s.sessions
  | [], _ => rfl
  | a :: l, s => (foldl_sessions hf l (f s a)).trans (hf s a)

theorem State.withdraw_sessions (d : Nat) : (s.withdraw d i).sessions = s.sessions := by
  unfold State.withdraw
  refine State.foldl_sessions (fun u a => ?_) _ s
  extract_lets dead
  split
  · exact u.dropStep_sessions _ _
  · rfl

/-- The active request's end leaves session `i` with no active request, and its waiting one. -/
theorem State.endActive_session (st e en : Nat) (l : Bool) (o : Nat) :
    (∀ j, j ≠ i → (s.endActive i st e en l o).session j = s.session j) ∧
      ((s.endActive i st e en l o).session i).active = none ∧
      ((s.endActive i st e en l o).session i).waiting = (s.session i).waiting := by
  unfold State.endActive
  split
  next h => exact ⟨fun _ _ => rfl, h, rfl⟩
  next r h =>
    extract_lets d t u
    have hu (j : Nat) : u.session j = s.session j := congrArg (fun m => get ({} : Session) m j) (t.withdraw_sessions i d)
    refine ⟨fun j hj => ?_, ?_, ?_⟩
    · rw [State.session_modSession, if_neg (Ne.symm hj), hu]
    · rw [State.session_modSession_same]
    · rw [State.session_modSession_same, hu]

theorem State.endWaiting_session (st e o : Nat) : (∀ j, j ≠ i → (s.endWaiting i st e o).session j = s.session j) ∧
    ((s.endWaiting i st e o).session i).waiting = none ∧
    ((s.endWaiting i st e o).session i).active = (s.session i).active := by
  unfold State.endWaiting
  split
  next h => exact ⟨fun _ _ => rfl, h, rfl⟩
  next r h =>
    extract_lets t
    refine ⟨fun j hj => ?_, ?_, ?_⟩
    · rw [State.session_modSession, if_neg (Ne.symm hj)]
      rfl
    · rw [State.session_modSession_same]
    · rw [State.session_modSession_same]
      rfl

/-- A start makes at most its own request active, with its pin. -/
theorem State.startRequest_session (r : Request) (o : Nat) :
    (∀ j, j ≠ i → (s.startRequest i r o).session j = s.session j) ∧
      ((s.startRequest i r o).session i).waiting = (s.session i).waiting ∧
      (((s.startRequest i r o).session i).active = (s.session i).active ∨
        ∃ q, ((s.startRequest i r o).session i).active = some q ∧ q.pin = r.pin) := by
  unfold State.startRequest
  extract_lets +onlyGivenNames d x toks q t u
  split
  next e _ =>
    have hs (j : Nat) : (s.reject d r.cmd e).session j = s.session j :=
      congrArg (fun m => get ({} : Session) m j) (s.reject_sessions d r.cmd e)
    exact ⟨fun j _ => hs j, by rw [hs], .inl (by rw [hs])⟩
  next =>
    split
    next =>
      split
      next =>
        have hs (j : Nat) : (u.finish d q.cmd 1 0 0 false q.swapped 0 o).session j = t.session j := rfl
        refine ⟨fun j hj => ?_, ?_, .inl ?_⟩
        · rw [hs, State.session_modSession, if_neg (Ne.symm hj)]
        · rw [hs, State.session_modSession_same]
        · rw [hs, State.session_modSession_same]
      next =>
        refine ⟨fun j hj => ?_, ?_, .inr ⟨q, ?_, rfl⟩⟩
        · rw [State.session_modSession, if_neg (Ne.symm hj)]
        · rw [State.session_modSession_same]
        · rw [State.session_modSession_same]
    next =>
      refine ⟨fun j hj => ?_, ?_, .inr ⟨r, ?_, rfl⟩⟩
      · rw [State.session_modSession, if_neg (Ne.symm hj)]
      · rw [State.session_modSession_same]
      · rw [State.session_modSession_same]
end

/-! ### Requests pinned to an earlier image -/

/-- No request of the session is pinned. -/
def Session.Free (x : Session) : Prop := (∀ r, x.active = some r → r.pin = none) ∧ ∀ r, x.waiting = some r → r.pin = none

theorem Session.Free.drains {x : Session} (h : x.Free) : x.drains = false := by
  obtain ⟨ha, hw⟩ := h
  unfold Session.drains
  cases hact : x.active with
  | none =>
    cases hwait : x.waiting with
    | none => rfl
    | some r => simp [hw r hwait]
  | some r =>
    cases hwait : x.waiting with
    | none => simp [ha r hact]
    | some q => simp [ha r hact, hw q hwait]

section
variable {s : State} {i : Nat}

theorem State.startWaiting_session (o : Nat) : (∀ j, j ≠ i → (s.startWaiting i o).session j = s.session j) ∧
    ((s.session i).Free → ((s.startWaiting i o).session i).Free) := by
  unfold State.startWaiting
  split
  next r ha hw =>
    split
    · exact ⟨fun _ _ => rfl, id⟩
    · obtain ⟨hne, hwait, hact⟩ := State.startRequest_session (s.modSession i (fun x => { x with waiting := none })) i r o
      refine ⟨fun j hj => by rw [hne j hj, State.session_modSession, if_neg (Ne.symm hj)], fun hfree => ⟨fun q hq => ?_, fun q hq => ?_⟩⟩
      · rw [State.session_modSession_same] at hact
        rcases hact with h | ⟨q', h, hpin⟩
        · rw [h] at hq
          exact hfree.1 q hq
        · rw [h] at hq
          rw [← Option.some.inj hq, hpin]
          exact hfree.2 r hw
      · rw [hwait, State.session_modSession_same] at hq
        exact nomatch hq
  next => exact ⟨fun _ _ => rfl, id⟩

/-- The pinned requests of session `i` end, and no other session changes. -/
theorem State.reamChanged_pinned : (∀ j, j ≠ i → (s.reamChanged i (fun r => r.pin.isSome)).session j = s.session j) ∧
    ((s.reamChanged i (fun r => r.pin.isSome)).session i).Free := by
  have unpinned {o : Option Request} (h : ¬(o.map (fun r => r.pin.isSome)).getD false = true) (r : Request) (hr : o = some r) :
      r.pin = none := by
    rw [hr] at h
    simpa using h
  unfold State.reamChanged
  extract_lets hitW t hitA u
  obtain ⟨hne, hwait⟩ : (∀ j, j ≠ i → t.session j = s.session j) ∧ ∀ r, (t.session i).waiting = some r → r.pin = none := by
    unfold t
    split
    next h =>
      obtain ⟨hne, hw, -⟩ := s.endWaiting_session i 4 0 0
      exact ⟨hne, fun r hr => by rw [hw] at hr; exact nomatch hr⟩
    next h => exact ⟨fun _ _ => rfl, unpinned h⟩
  by_cases h : hitA = true
  · have hu : u = t.endActive i 4 0 0 false 0 := if_pos h
    obtain ⟨hne', ha, hw⟩ := t.endActive_session i 4 0 0 false 0
    rw [if_pos h, hu]
    obtain ⟨hne'', hfree⟩ := State.startWaiting_session (s := t.endActive i 4 0 0 false 0) (i := i) 0
    refine ⟨fun j hj => by rw [hne'' j hj, hne' j hj, hne j hj], hfree ⟨fun r hr => ?_, fun r hr => ?_⟩⟩
    · rw [ha] at hr
      exact nomatch hr
    · rw [hw] at hr
      exact hwait r hr
  · rw [if_neg h, show u = t from if_neg h]
    exact ⟨hne, unpinned h, hwait⟩

/-- Of the sessions of a list none drains any more; and one that did not drain still does not. -/
theorem State.foldl_reamChanged_pinned : ∀ (l : List Nat) (s : State), (i ∈ l ∨ (s.session i).drains = false) →
    ((l.foldl (fun s i => s.reamChanged i (fun r => r.pin.isSome)) s).session i).drains = false
  | [], _, h => h.resolve_left (List.not_mem_nil)
  | j :: l, s, h => by
    refine foldl_reamChanged_pinned l _ ?_
    obtain ⟨hne, hfree⟩ := State.reamChanged_pinned (s := s) (i := j)
    by_cases hj : i = j
    · exact .inr (by rw [hj]; exact hfree.drains)
    · rw [hne i hj]
      exact h.imp_left fun hm => (List.mem_cons.1 hm).resolve_left hj

theorem State.reamChanged_workEnds (s : State) (i : Nat) (f : Request → Bool) : WorkEnds s (s.reamChanged i f) := by
  unfold State.reamChanged
  extract_lets hitW t hitA u
  have ht : WorkEnds s t := by
    unfold t
    split
    · exact s.endWaiting_workEnds ..
    · exact .refl s
  have hu : WorkEnds s u := by
    unfold u
    split
    · exact ht.trans (t.endActive_workEnds ..)
    · exact ht
  split
  · exact hu.trans (u.startWaiting_workEnds ..)
  · exact hu
end

end Sys2Proof.Machine

/-! ## Writes of the arrays, hand-over of a vat and drain limits (R111, R113, R334, R341, R343, R546) -/

namespace Sys2Proof.Machine

set_option Elab.async false

/-! ### Groups -/

theorem groupKey_ne {v w p q : Nat} (hp : p < 1536) (hq : q < 1536) (h : v ≠ w ∨ p ≠ q) : groupKey v p ≠ groupKey w q := by
  unfold groupKey
  omega

theorem State.group_modGroup_ne {s : State} {v w p q : Nat} {f : Group → Group} (h : groupKey v p ≠ groupKey w q) :
    (s.modGroup v p f).group w q = s.group w q := by
  rw [State.group_modGroup, if_neg h]

/-- A write that found no stuck cell leaves none, and nothing to report. -/
theorem State.verifyGroup_clean (s : State) (v p : Nat) : s.verifyGroup v p [] = s.noteStuck v p [] := by
  unfold State.verifyGroup
  extract_lets t u
  have hu : u = t := if_neg Bool.false_ne_true
  rw [hu]
  refine if_neg (ne_true_of_eq_false ?_)
  show ((s.noteStuck v p []).group v p).overStuck = false
  rw [State.noteStuck, State.group_modGroup_same]
  simp [Group.overStuck, Tile.withStuck, stuckCells]

theorem Noted.emptySlotGroups {s t : State} (h : Noted s t) {k : Nat} : Noted s (t.emptySlotGroups k) := by
  unfold State.emptySlotGroups
  extract_lets gs a b
  have ha : Noted s a := h.foldl fun u x hu => by
    split
    · unfold State.takeBack
      split
      · exact hu
      · exact hu.modGroup
    · exact hu
  have hb : Noted s b := ha.foldl fun u x hu => hu.modGroup
  refine hb.foldl fun u x hu => ?_
  unfold State.setLayout
  split
  · exact hu
  · exact hu.modVat

theorem Noted.setLayout {s t : State} (h : Noted s t) {v p} : Noted s (t.setLayout v p) := by
  unfold State.setLayout
  split
  · split
    · exact h
    · exact h.modVat
  · exact h.modVat

theorem Noted.writeImage {s t : State} (h : Noted s t) {k : Nat} {m : Image} : Noted s (t.writeImage k m) := by
  unfold State.writeImage
  extract_lets a b
  have hb : Noted s b := h.emptySlotGroups.foldl fun u x hu => by
    unfold State.writeGroup
    split
    · exact hu
    · exact hu.modGroup
  exact hb.foldl fun u x hu => hu.setLayout

/-! ### The end of a rewrite -/

/-- The state of a slot whose rewrite has ended: its status record is written, its other parts wait for the boundary. -/
def State.rewritten (s : State) (k : Nat) (m : Image) : State :=
  let t := if m.turnover then s.emptySlotGroups k else s.writeImage k m
  let t := (t.slotGroups k).foldl (fun s g => s.verifyGroup g.1 g.2 []) t
  let t := t.modSlot k (fun x => { x with rewriting := false, rewriteEnd := true, op := none })
  match (s.slot k).op with
  | some op => if op.op = 2 then t.pfStatus op.desc (if m.turnover then 0 else 8192 * m.mine.length) 0 else t
  | none => t

/-- A rewrite that ends changes the arrays, its slot's marks, and what its status record needs. -/
theorem State.rewritten_leaves (s : State) (k : Nat) (m : Image) : ∃ vs gs e h, s.rewritten k m =
    { s.modSlot k (fun x => { x with rewriting := false, rewriteEnd := true, op := none }) with
      vats := vs, groups := gs, errs := e, host := h } := by
  unfold State.rewritten
  extract_lets a b c
  have ha : Noted s a := by
    unfold a
    split
    · exact Noted.refl.emptySlotGroups
    · exact Noted.refl.writeImage
  obtain ⟨vs, gs, e, h, hb⟩ : Noted s b := ha.foldl fun u x hu => by
    rw [State.verifyGroup_clean]
    exact hu.modGroup
  have hc : c = { s.modSlot k (fun x => { x with rewriting := false, rewriteEnd := true, op := none }) with
      vats := vs, groups := gs, errs := e, host := h } := by
    unfold c
    rw [hb]
    rfl
  have hstat (d : Bytes) (n : Nat) : ∃ vs gs e h, c.pfStatus d n 0 =
      { s.modSlot k (fun x => { x with rewriting := false, rewriteEnd := true, op := none }) with
        vats := vs, groups := gs, errs := e, host := h } := by
    obtain ⟨e', h', hs⟩ := c.pfStatus_errHost d n 0
    rw [hs, hc]
    exact ⟨_, _, _, _, rfl⟩
  split
  · split
    · exact hstat _ _
    · exact ⟨_, _, _, _, hc⟩
  · exact ⟨_, _, _, _, hc⟩

theorem execRewriteComplete_eq {s : State} {k : Fin 16} {m : Image} (hcur : (s.slot k.val).current = some m)
    (hrw : (s.slot k.val).rewriting = true) : exec (.rewriteComplete k []) s = .next (if s.tick.running then s.rewritten k.val m
      else ((s.rewritten k.val m).freeRetiring k.val).modSlot k.val (fun x => { x with rewriteEnd := false })) := by
  obtain ⟨vs, gs, e, h, hleaves⟩ := s.rewritten_leaves k.val m
  have hrun : (s.rewritten k.val m).tick.running = s.tick.running := by rw [hleaves]; rfl
  rw [← hrun]
  refine congrArg Host.Outcome.next ?_
  rw [hcur]
  dsimp only
  rw [hrw]
  rfl

/-- The retiring image of a slot goes, with its pages. -/
theorem State.freeRetiring_leaves (s : State) (k : Nat) : ∃ ss w o e h, s.freeRetiring k =
    { s with slots := ss, owners := w, pageOut := o, errs := e, host := h } ∧ (∀ j, j ≠ k → get {} ss j = s.slot j) ∧
      (get {} ss k).retiring = none ∧ (get {} ss k).rewriting = (s.slot k).rewriting ∧ (get {} ss k).op = (s.slot k).op ∧
      (get {} ss k).current = (s.slot k).current := by
  unfold State.freeRetiring
  split
  next hret => exact ⟨s.slots, s.owners, s.pageOut, s.errs, s.host, rfl, fun _ _ => rfl, hret, rfl, rfl, rfl⟩
  next m hret =>
    obtain ⟨w, o, e, h, hrel, -⟩ := s.release_leaves m.pages
    rw [hrel]
    have hsame := s.slot_modSlot_same k (fun x => { x with retiring := none, rewriteEnd := false })
    exact ⟨(s.modSlot k (fun x => { x with retiring := none, rewriteEnd := false })).slots, w, o, e, h, rfl, fun j hj =>
      (s.slot_modSlot k j _).trans (if_neg (Ne.symm hj)), (congrArg Slot.retiring hsame :), (congrArg Slot.rewriting hsame :),
      (congrArg Slot.op hsame :), (congrArg Slot.current hsame :)⟩

/-! ### A spare that took over -/

section
variable {s : State} {v : Fin 64} {p : Nat} {stuck : List StuckIn}

/-- The cells a read-back reports within the tiles. -/
theorem State.noteStuck_group (hcol : ∀ c ∈ stuck, c.col < 272) : (s.noteStuck v.val p stuck).group v.val p =
    { s.group v.val p with tiles := (s.group v.val p).tiles.map (fun z =>
        (z.1, z.2.withStuck (stuckCells z.2 (stuck.filter (fun c => c.tile == z.1))))) } := by
  have href : refCells stuck = [] := List.filter_eq_nil_iff.2 fun c hc => by
    have := hcol c hc
    simp only [decide_eq_true_eq]
    omega
  rw [State.noteStuck, State.group_modGroup_same, href]
  simp

theorem Group.overStuck_noted {g : Group} : Group.overStuck { g with tiles := g.tiles.map (fun z =>
    (z.1, z.2.withStuck (stuckCells z.2 (stuck.filter (fun c => c.tile == z.1))))) } = true ↔
      ∃ z ∈ g.tiles, 64 < (stuckCells z.2 (stuck.filter (fun c => c.tile == z.1))).length := by
  simp [Group.overStuck, Tile.withStuck]

theorem State.verifyGroup_eq (hcol : ∀ c ∈ stuck, c.col < 272) : s.verifyGroup v.val p stuck =
    if ((s.noteStuck v.val p stuck).group v.val p).overStuck then
      ((s.noteStuck v.val p stuck).report { err := .stuckBudget, inst := v.val, unit := v.val, group := p }).retireGroup v.val p 1
        ((s.noteStuck v.val p stuck).report { err := .stuckBudget, inst := v.val, unit := v.val, group := p }).tail
    else s.noteStuck v.val p stuck := by
  have hany : ¬stuck.any (fun c => decide (272 ≤ c.col)) = true := by
    simpa using hcol
  unfold State.verifyGroup
  extract_lets t u w
  have hu : u = t := if_neg hany
  rw [show w = u.report _ from rfl, hu]

/-- A group that holds no weights retires alone. -/
theorem State.retireGroup_bare {cause o : Nat} (hst : (s.group v.val p).state ≠ .retired) (hlog : (s.group v.val p).logical = 0x7FF) :
    ∃ gs, s.retireGroup v.val p cause o = { s with groups := gs } ∧
      (State.group { s with groups := gs } v.val p).state = .retired ∧
      (State.group { s with groups := gs } v.val p).retCause = cause := by
  unfold State.retireGroup
  extract_lets g held gone
  rw [if_neg (by simpa using hst), if_pos (by simp [held, g, hlog])]
  have hg := s.group_modGroup_same v.val p gone
  exact ⟨(s.modGroup v.val p gone).groups, rfl, congrArg Group.state hg, congrArg Group.retCause hg⟩
end

/-! ### Hand-over of a vat -/

theorem State.find_receivers {s : State} {v w : Nat} {f : Nat → Bool} (h : (s.receivers v).find? f = some w) : w ≠ v := by
  have hm := List.mem_of_find?_eq_some h
  unfold State.receivers at hm
  simp only [List.mem_append, List.mem_filter, Bool.and_eq_true, bne_iff_ne] at hm
  rcases hm with ⟨⟨-, h, -⟩, -⟩ | ⟨⟨-, h, -⟩, -⟩ <;> exact h

theorem State.mem_toMove {s : State} {v k p : Nat} (h : p ∈ s.toMove v k) : (s.group v p).modelSlot = k := by
  unfold State.toMove at h
  simp only [List.mem_filter, Bool.and_eq_true, beq_iff_eq] at h
  exact h.2.1.1.1.1

/-- A group of a vat in RETIRED or SERVICE moves to the best spare of the first vat that receives. -/
theorem State.moveGroup_some {s : State} {v p w q k : Nat} (hp : p < 1536) (hq : q < 1536)
    (hfind : (s.receivers v).find? (fun u => decide (16 < (s.spares u).length)) = some w) (hpick : s.pickSpare w = some q)
    (hslot : (s.group v p).modelSlot = k) : ∃ t : State, s.moveGroup v p = some (t.modSlot k (fun x => { x with moving := true })) ∧
      (t.group w q).state = .recal ∧ (t.group w q).rewriting = true ∧ (t.group w q).logical = (s.group v p).logical ∧
      (t.group w q).modelSlot = k ∧ (t.group w q).tiles = freshTiles (s.group v p).tiles ∧ t = { s with groups := t.groups } := by
  have hkey : groupKey v p ≠ groupKey w q := groupKey_ne hp hq (.inl (Ne.symm (State.find_receivers hfind)))
  have hmove : s.moveGroup v p = some (State.modSlot (if (s.vat v).state == .retired ∨ (s.group v p).homeVat.isSome then
      (s.takeOver v p w q).modGroup v p (fun g => { g.emptied with state := if g.homeVat.isSome then .spare else g.state })
      else s.takeOver v p w q) k (fun x => { x with moving := true })) := by
    have hsame : (s.takeOver v p w q).group v p = s.group v p := State.group_modGroup_ne hkey.symm
    unfold State.moveGroup
    rw [hfind]
    dsimp only
    rw [hpick, Option.map_some, hsame, hslot]
    rfl
  have hgiven : ((s.takeOver v p w q).group w q).state = .recal ∧ ((s.takeOver v p w q).group w q).rewriting = true ∧
      ((s.takeOver v p w q).group w q).logical = (s.group v p).logical ∧ ((s.takeOver v p w q).group w q).modelSlot = k ∧
      ((s.takeOver v p w q).group w q).tiles = freshTiles (s.group v p).tiles := by
    rw [State.takeOver, State.group_modGroup_same]
    exact ⟨rfl, rfl, rfl, hslot, rfl⟩
  obtain ⟨hst, hrw, hlog, hms, htiles⟩ := hgiven
  refine ⟨_, hmove, ?_⟩
  split
  · rw [State.group_modGroup_ne hkey]
    exact ⟨hst, hrw, hlog, hms, htiles, rfl⟩
  · exact ⟨hst, hrw, hlog, hms, htiles, rfl⟩

theorem allSlots_filter_eq : ∀ k : Fin 16, allSlots.filter (· == k.val) = [k.val] := by decide

/-- Settles O37. -/
theorem arrayWrites : Obligations.ArrayWrites := by
  intro s k d v p w q stuck m x g
  refine ⟨fun hcur hrw => ?rewrite, fun hrw => ?noRewrite, fun hp hrw hcol => ⟨fun hfew hst => ?spare, fun hmany hlog => ?tooMany⟩,
    fun hrw => congrArg Host.Outcome.next (if_neg (ne_true_of_eq_false hrw)), fun hp hq hst hcur hturn hmove honly hfind hpick => ?replace,
    fun h1 h2 h3 => ?idle, fun hdr hlim => ?drain, fun hdr => congrArg Host.Outcome.next (if_neg fun h => ?noDrain)⟩
  case rewrite =>
    have hexec := execRewriteComplete_eq hcur hrw
    obtain ⟨vs, gs, e, h, hleaves⟩ := s.rewritten_leaves k.val m
    have hslot (j : Nat) : (s.rewritten k.val m).slot j =
        if k.val = j then { x with rewriting := false, rewriteEnd := true, op := none } else s.slot j := by
      have hslots : (s.rewritten k.val m).slots = (s.modSlot k.val (fun x => { x with
        rewriting := false, rewriteEnd := true, op := none })).slots := by rw [hleaves]
      exact (congrArg (fun ss => get ({} : Slot) ss j) hslots).trans (s.slot_modSlot ..)
    cases hrun : s.tick.running with
    | true =>
      rw [hrun, if_pos rfl] at hexec
      refine ⟨_, hexec, ?_, ?_, ?_, fun _ => ⟨?_, ?_⟩, (nomatch ·), fun j hj => ?_, ?_⟩
      · rw [hslot, if_pos rfl]
      · rw [hslot, if_pos rfl]
      · rw [hslot, if_pos rfl]
        exact hcur
      · rw [hslot, if_pos rfl]
      · rw [hslot, if_pos rfl]
      · rw [hslot, if_neg (Ne.symm hj)]
      · rw [hleaves]
        rfl
    | false =>
      rw [hrun, if_neg Bool.false_ne_true] at hexec
      obtain ⟨ss, w', o, e', h', hfree, hne, hret, hrwt, hop, hcurr⟩ := (s.rewritten k.val m).freeRetiring_leaves k.val
      rw [hslot, if_pos rfl] at hrwt hop hcurr
      have hend : exec (.rewriteComplete k []) s = .next { s with
          slots := put {} ss k.val { get {} ss k.val with rewriteEnd := false }, vats := vs, groups := gs
          owners := w', pageOut := o, errs := e', host := h' } := by
        rw [hexec, hfree, hleaves]
        rfl
      have hsame := get_put_same ({} : Slot) ss k.val { get {} ss k.val with rewriteEnd := false }
      refine ⟨_, hend, (congrArg Slot.rewriting hsame).trans hrwt, (congrArg Slot.op hsame).trans hop,
        (congrArg Slot.current hsame).trans (hcurr.trans hcur), (nomatch ·),
        fun _ => ⟨congrArg Slot.rewriteEnd hsame, (congrArg Slot.retiring hsame).trans hret⟩, fun j hj => ?_, rfl⟩
      refine (get_put_ne ({} : Slot) ss { get {} ss k.val with rewriteEnd := false } (Ne.symm hj)).trans ((hne j hj).trans ?_)
      rw [hslot, if_neg (Ne.symm hj)]
  case noRewrite =>
    refine congrArg Host.Outcome.next ?_
    split
    · rfl
    · exact if_pos (by rw [show (s.slot k.val).rewriting = false from hrw]; rfl)
  case spare =>
    have hnote := State.noteStuck_group (s := s) (v := v) (p := p) hcol
    have hver : s.verifyGroup v.val p stuck = s.noteStuck v.val p stuck := by
      rw [State.verifyGroup_eq hcol, hnote, if_neg]
      rw [Group.overStuck_noted]
      rintro ⟨z, hz, hlt⟩
      exact absurd (hfew z hz) (Nat.not_le.2 hlt)
    have hexec : exec (.spareRewriteDone v p stuck) s = .next ((s.noteStuck v.val p stuck).modGroup v.val p
        (fun g => { g with rewriting := false, readyNext := some .inService })) := by
      refine congrArg Host.Outcome.next ((if_pos hrw).trans ?_)
      rw [hver]
      refine if_neg ?_
      rw [hnote]
      simpa using hst
    refine ⟨_, hexec, ?_, fun u n hn hne => ?_, rfl⟩
    · rw [State.group_modGroup_same, hnote]
    · have hkey := groupKey_ne hp hn (hne.imp Ne.symm Ne.symm)
      rw [State.group_modGroup_ne hkey, State.noteStuck, State.group_modGroup_ne hkey]
  case tooMany =>
    have hnote := State.noteStuck_group (s := s) (v := v) (p := p) hcol
    obtain ⟨e, h, hrep⟩ := (s.noteStuck v.val p stuck).report_errHost { err := .stuckBudget, inst := v.val, unit := v.val, group := p }
      rfl rfl rfl
    have hgroup : State.group { s.noteStuck v.val p stuck with errs := e, host := h } v.val p = _ := hnote
    have hver : s.verifyGroup v.val p stuck = State.retireGroup { s.noteStuck v.val p stuck with errs := e, host := h } v.val p 1
        (State.tail { s.noteStuck v.val p stuck with errs := e, host := h }) := by
      rw [State.verifyGroup_eq hcol, hnote, if_pos (Group.overStuck_noted.2 hmany), hrep]
    have hexec (t : State) (ht : s.verifyGroup v.val p stuck = t) (hret : (t.group v.val p).state = .retired) :
        exec (.spareRewriteDone v p stuck) s = .next t := by
      refine congrArg Host.Outcome.next ((if_pos hrw).trans ?_)
      rw [ht]
      exact if_pos (beq_iff_eq.2 hret)
    by_cases hst : g.state = .retired
    · refine ⟨_, hexec { s.noteStuck v.val p stuck with errs := e, host := h } (hver.trans (if_pos ?_)) ?_, ?_, fun h => absurd hst h, rfl⟩
      · rw [hgroup]
        exact beq_iff_eq.2 hst
      · rw [hgroup]
        exact hst
      · rw [hgroup]
        exact hst
    · obtain ⟨gs, hgs, hstate, hcause⟩ := State.retireGroup_bare
        (s := { s.noteStuck v.val p stuck with errs := e, host := h }) (v := v) (p := p) (cause := 1)
        (o := State.tail { s.noteStuck v.val p stuck with errs := e, host := h }) (by rw [hgroup]; exact hst) (by rw [hgroup]; exact hlog)
      exact ⟨_, hexec _ (hver.trans hgs) hstate, hstate, fun _ => hcause, rfl⟩
  case replace =>
    obtain ⟨t, hmg, hgst, hgrw, hglog, hgms, hgtiles, hframe⟩ :=
      State.moveGroup_some hp hq hfind hpick (State.mem_toMove (by rw [hmove]; exact List.mem_singleton_self p))
    have hslots : allSlots.filter (fun j => ((s.slot j).current.map (fun m => !m.turnover)).getD false) = [k.val] := by
      rw [← allSlots_filter_eq k]
      refine List.filter_congr fun j _ => ?_
      by_cases hj : j = k.val
      · rw [hj, show (s.slot k.val).current = some m from hcur]
        simp [hturn]
      · rw [honly j hj]
        simp [hj]
    have hexec : exec (.vatReplace v) s = .next (t.modSlot k.val (fun x => { x with moving := true })) := by
      refine congrArg Host.Outcome.next ?_
      unfold State.replaceVat
      rw [hslots]
      refine (if_pos (by rcases hst with h | h <;> simp [h])).trans ?_
      simp only [List.foldl_cons, List.foldl_nil, hmove, moveGroups, hmg, Option.bind_some]
      rfl
    refine ⟨_, hexec, ⟨hgst, hgrw, hglog, hgms, hgtiles⟩, ?_, ?_⟩
    · rw [State.slot_modSlot_same]
    · rw [hframe]
      rfl
  case idle =>
    refine congrArg Host.Outcome.next ?_
    unfold State.replaceVat
    extract_lets st slots back down
    exact (if_neg (by simp [st, h1, h2])).trans (if_neg (by simp [st, h3]))
  case drain =>
    let hit := (s.slotSessions k.val).filter (fun i => s.ownerOf i == some d.val && (s.session i).drains)
    let t := hit.foldl (fun s i => s.reamChanged i (fun r => r.pin.isSome)) s
    obtain ⟨e, h, ds, sc, ss, r, ht⟩ : WorkEnds s t := WorkEnds.foldl _ (fun u i => u.reamChanged_workEnds i _) hit s
    have hexec : exec (.drainLimitExpiry k d) s =
        .next (t.modSlot k.val (fun x => { x with drained := x.drained.filter (· != d.val) })) :=
      congrArg Host.Outcome.next (if_pos ⟨hdr, hlim⟩)
    refine ⟨_, hexec, ?_, fun i hi hown => ?_, ?_⟩
    · rw [State.slot_modSlot_same]
      simp
    · refine State.foldl_reamChanged_pinned hit s ?_
      by_cases hd : (s.session i).drains = true
      · exact .inl (List.mem_filter.2 ⟨hi, by simp [hown, hd]⟩)
      · exact .inr (Bool.eq_false_iff.2 hd)
    · rw [ht]
      rfl
  case noDrain => exact absurd h.1 (ne_true_of_eq_false hdr)

end Sys2Proof.Machine

/-! ## Re-planning of groups (R167 to R170) -/

namespace Sys2Proof.Machine

set_option Elab.async false

/-- A group of vat `v` whose re-planning has been asked for. -/
def State.planStart (s : State) (v : Nat) (g : Group) : Group :=
  if s.vatPlans v = true ∧ g.replan = none ∧ (g.state = .inService ∨ g.state = .spare) then
    { g with replan := some { left := s.planOrder }, slowAt := (s.vat v).slowPpm } else g

theorem State.planStart_planStart (s : State) (v : Nat) (g : Group) : s.planStart v (s.planStart v g) = s.planStart v g := by
  by_cases h : s.vatPlans v = true ∧ g.replan = none ∧ (g.state = .inService ∨ g.state = .spare)
  · rw [State.planStart, State.planStart, if_pos h, if_neg (by simp)]
  · rw [State.planStart, State.planStart, if_neg h, if_neg h]

theorem State.startReplan_eq (s : State) (v p : Nat) : s.startReplan v p = s ∧ s.planStart v (s.group v p) = s.group v p ∨
    s.startReplan v p = s.modGroup v p (s.planStart v) := by
  unfold State.startReplan State.planStart
  by_cases h : s.vatPlans v = true ∧ (s.group v p).replan = none ∧ ((s.group v p).state = .inService ∨ (s.group v p).state = .spare)
  · refine .inr ?_
    rw [if_neg (by obtain ⟨h1, h2, h3⟩ := h; simp [h1, h2, h3]), State.modGroup, State.modGroup, if_pos h]
  · refine .inl ⟨if_pos ?_, if_neg h⟩
    by_contra hno
    simp only [Option.isSome_iff_ne_none, ne_eq, Bool.not_eq_eq_eq_not, Bool.not_true, decide_eq_false_iff_not,
      not_or, not_not, Bool.not_eq_false] at hno
    obtain ⟨hnone, hplans, hst⟩ := hno
    exact h ⟨hplans, hnone, or_iff_not_imp_left.2 fun h1 => by simpa [h1] using hst⟩

theorem mem_allGroups {n : Nat} : n ∈ allGroups ↔ n < 1536 := List.mem_range

/-- Re-planning has been asked for of the groups `f` names. -/
def Replans (s t : State) (f : Nat → Nat → Prop) : Prop := t = { s with groups := t.groups } ∧ ∀ w n, n < 1536 →
  (f w n → t.group w n = s.planStart w (s.group w n)) ∧ (¬f w n → t.group w n = s.group w n)

namespace Replans

theorem refl {s : State} : Replans s s (fun _ _ => False) := ⟨rfl, fun _ _ _ => ⟨False.elim, fun _ => rfl⟩⟩

section
variable {s t : State} {f : Nat → Nat → Prop}

theorem congr {g : Nat → Nat → Prop} (h : Replans s t f) (hfg : ∀ w n, n < 1536 → (f w n ↔ g w n)) : Replans s t g := by
  obtain ⟨hframe, hgroups⟩ := h
  refine ⟨hframe, fun w n hn => ?_⟩
  rw [← hfg w n hn]
  exact hgroups w n hn

theorem startReplan (h : Replans s t f) {v p : Nat} (hp : p < 1536) :
    Replans s (t.startReplan v p) (fun w n => f w n ∨ w = v ∧ n = p) := by
  obtain ⟨hframe, hgroups⟩ := h
  have hplan (w : Nat) (g : Group) : t.planStart w g = s.planStart w g := by
    rw [hframe]
    rfl
  have hold : s.planStart v (t.group v p) = s.planStart v (s.group v p) := by
    by_cases hf : f v p
    · rw [(hgroups v p hp).1 hf, State.planStart_planStart]
    · rw [(hgroups v p hp).2 hf]
  have hnew : (t.startReplan v p).group v p = s.planStart v (s.group v p) := by
    rw [← hold]
    rcases t.startReplan_eq v p with ⟨ht, hg⟩ | ht
    · rw [ht, ← hplan, hg]
    · rw [ht, State.group_modGroup_same, hplan]
  have hother (w n : Nat) (hn : n < 1536) (hne : ¬(w = v ∧ n = p)) : (t.startReplan v p).group w n = t.group w n := by
    rcases t.startReplan_eq v p with ⟨ht, -⟩ | ht
    · rw [ht]
    · rw [ht, State.group_modGroup_ne (groupKey_ne hp hn (by omega))]
  refine ⟨?_, fun w n hn => ?_⟩
  · rcases t.startReplan_eq v p with ⟨ht, -⟩ | ht
    · rw [ht]
      exact hframe
    · rw [ht, hframe]
      rfl
  · by_cases hk : w = v ∧ n = p
    · obtain ⟨rfl, rfl⟩ := hk
      exact ⟨fun _ => hnew, fun hno => absurd (.inr ⟨rfl, rfl⟩) hno⟩
    · rw [hother w n hn hk]
      exact ⟨fun hf => (hgroups w n hn).1 (hf.resolve_right hk), fun hno => (hgroups w n hn).2 fun hf => hno (.inl hf)⟩

theorem forAll {α : Type} {e : α → State → State} {g : α → Nat → Nat → Prop}
    (he : ∀ a u f, Replans s u f → Replans s (e a u) (fun w n => f w n ∨ g a w n)) :
    ∀ (l : List α) {t f}, Replans s t f → Replans s (l.foldl (fun u a => e a u) t) (fun w n => f w n ∨ ∃ a ∈ l, g a w n)
  | [], _, _, h => h.congr fun w n _ => by simp
  | a :: l, _, _, h => (forAll he l (he a _ _ h)).congr fun w n _ => by simp [or_assoc]

theorem replanVat (h : Replans s t f) {v : Nat} : Replans s (t.replanVat v) (fun w n => f w n ∨ w = v) := by
  have step (p : Nat) (u : State) (f : Nat → Nat → Prop) (hu : Replans s u f) :
      Replans s (if p < 1536 then u.startReplan v p else u) (fun w n => f w n ∨ p < 1536 ∧ w = v ∧ n = p) := by
    split
    next hp => exact (hu.startReplan hp).congr fun w n _ => by simp [hp]
    next hp => exact hu.congr fun w n _ => by simp [hp]
  have hfold := forAll (e := fun p u => if p < 1536 then u.startReplan v p else u) step allGroups h
  have hall : allGroups.foldl (fun u p => if p < 1536 then u.startReplan v p else u) t = t.replanVat v := by
    unfold State.replanVat Machine.forAll
    generalize hl : allGroups = l
    exact List.foldl_ext _ _ _ fun u p hp => if_pos (mem_allGroups.1 (hl ▸ hp))
  rw [hall] at hfold
  refine hfold.congr fun w n hn => or_congr_right ⟨fun h => ?_, fun hw => ?_⟩
  · obtain ⟨_, -, -, hw, -⟩ := h
    exact hw
  · exact ⟨n, mem_allGroups.2 hn, hn, hw, rfl⟩

end

end Replans

theorem State.replanAll (s : State) : Replans s (forAll allVats (fun v s => s.replanVat v) s) (fun w _ => w < 64) :=
  (Replans.forAll (e := fun v u => u.replanVat v) (fun _ _ _ h => h.replanVat) allVats Replans.refl).congr fun w n _ => by
    simp [allVats]

theorem State.requestReplan_replans (s : State) (all : Bool) (v : Fin 64) :
    Replans s (s.requestReplan all v.val) (fun w _ => w < 64 ∧ (all || w == v.val) = true) := by
  unfold State.requestReplan
  cases all with
  | true => exact s.replanAll.congr fun w n _ => by simp
  | false =>
    refine (Replans.refl.replanVat).congr fun w n _ => ?_
    have hv := v.isLt
    simp only [false_or, Bool.false_or, beq_iff_eq]
    omega

/-- The plan that ends a candidate's blocks. -/
theorem State.endCandidate_some {s : State} {v p : Nat} {r : Replan} (hr : (s.group v p).replan = some r) :
    let lows := r.lows ++ (r.low.map (fun c => (nth r.left 0, c))).toList
    ((∀ c, r.low = some c → c < 66) → r.left.drop 1 ≠ [] →
      s.endCandidate v p = s.modGroup v p (fun g => { g with replan := some { left := r.left.drop 1, lows := lows } })) ∧
    ((∃ c, r.low = some c ∧ 66 ≤ c) ∨ r.left.drop 1 = [] → ∀ q,
      choosePlan s.planOrder (fun x => (lows.find? (fun y => y.1 == x)).map (fun y => y.2)) = some q →
      s.endCandidate v p = (s.modGroup v p (fun g => { g with replan := none, replanCnt := satAdd 8 g.replanCnt 1 })).modGroup v p
        (fun g => { g with planNext := some q })) := by
  intro lows
  obtain ⟨left, old, low⟩ := r
  unfold State.endCandidate
  rw [hr]
  refine ⟨fun hlow hleft => ?_, fun hend q hq => ?_⟩
  · cases low with
    | none =>
      refine (if_pos ⟨rfl, by simpa using hleft⟩).trans ?_
      simp [lows]
    | some c => exact if_pos ⟨by simpa using hlow c rfl, by simpa using hleft⟩
  · cases low with
    | none =>
      refine (if_neg ?_).trans ?_
      · rcases hend with ⟨c, hc, -⟩ | hleft
        · exact nomatch hc
        · simpa using hleft
      · rw [show lows = old by simp [lows]] at hq
        dsimp only
        split
        next q' h => rw [Option.some.inj (h.symm.trans hq)]
        next h => exact nomatch h.symm.trans hq
    | some c =>
      refine (if_neg ?_).trans ?_
      · rcases hend with ⟨c', hc, hlt⟩ | hleft
        · simp [Option.some.inj hc, hlt]
        · simp_all
      · dsimp only
        split
        next q' h => rw [Option.some.inj (h.symm.trans hq)]
        next h => exact nomatch h.symm.trans hq

/-- Settles O38. -/
theorem replanning : Obligations.Replanning := by
  intro s v all p q r
  refine ⟨?start, fun hp hr => ?candidate, fun hnone => congrArg Host.Outcome.next ?idle⟩
  case start =>
    intro started
    have hgives (t : State) (f : Nat → Bool) (h : Replans s t (fun w _ => w < 64 ∧ f w = true)) :
        started t f ∧ t = { s with groups := t.groups } := by
      obtain ⟨hframe, hgroups⟩ := h
      refine ⟨fun w n hn => ?_, hframe⟩
      obtain ⟨hyes, hno⟩ := hgroups w n hn
      by_cases hf : w < 64 ∧ f w = true
      · rw [hyes hf, State.planStart]
        exact if_congr (by simp [hf]) rfl rfl
      · rw [hno hf, if_neg fun h => hf ⟨h.1, h.2.1⟩]
    exact ⟨⟨_, rfl, hgives _ _ (s.requestReplan_replans all v)⟩, ⟨_, rfl, hgives _ _ (s.replanAll.congr fun w n _ => by simp)⟩⟩
  case candidate =>
    obtain ⟨hgo, hend⟩ := State.endCandidate_some hr
    refine ⟨fun hlow hleft => congrArg Host.Outcome.next (hgo hlow hleft), fun h hq => ⟨_, congrArg Host.Outcome.next (hend h q hq), ?_,
      fun w n hn hne => ?_, rfl⟩⟩
    · rw [State.group_modGroup_same, State.group_modGroup_same]
    · have hkey := groupKey_ne hp hn (hne.imp Ne.symm Ne.symm)
      rw [State.group_modGroup_ne hkey, State.group_modGroup_ne hkey]
  case idle =>
    unfold State.endCandidate
    rw [hnone]

end Sys2Proof.Machine

/-! ## Rolling calibration of the converters (R128, R153, R154) -/

namespace Sys2Proof.Machine

set_option Elab.async false

theorem Group.conv_setConv_ne {g : Group} {i j : Nat} {c : Conv} (h : i ≠ j) : (g.setConv i c).conv j = g.conv j := by
  unfold Group.conv Group.setConv put
  split
  · exact get_del_ne _ _ h
  · exact get_ins_ne _ _ _ h

/-- A group of which `f` was made, with its calibration due since the earliest time it was. -/
theorem State.makeDue_group (s : State) (v p : Nat) :
    (s.makeDue v p).group v p = { s.group v p with due := some ((s.group v p).due.getD s.tick.now) } := State.group_modGroup_same ..

/-- The mark of a converter that failed its acceptance. -/
def Group.suspect (g : Group) (i : Nat) : Group :=
  let g := g.setConv i { g.conv i with state := .suspect, covers := none }
  if i = 8 then g else g.setConv 8 { g.conv 8 with state := .serving, covers := some i }

theorem Group.suspect_self (g : Group) (i : Nat) : ((g.suspect i).conv i).state = .suspect := by
  unfold Group.suspect
  split
  · rw [Group.conv_setConv_same]
  next h => rw [Group.conv_setConv_ne (Ne.symm h), Group.conv_setConv_same]

theorem Group.suspect_spare {g : Group} {i : Nat} (h : i ≠ 8) :
    ((g.suspect i).conv 8).state = .serving ∧ ((g.suspect i).conv 8).covers = some i := by
  unfold Group.suspect
  rw [if_neg h, Group.conv_setConv_same]
  exact ⟨rfl, rfl⟩

/-- A failed acceptance marks the converter, is reported, and makes the group due. -/
theorem State.suspectConv_leaves (s : State) (v p i : Nat) : ∃ gs e h, s.suspectConv v p i = { s with groups := gs, errs := e, host := h } ∧
    ∃ due, State.group { s with groups := gs } v p = { (s.group v p).suspect i with due := some due } := by
  unfold State.suspectConv
  extract_lets t
  have ht : t.group v p = (s.group v p).suspect i := s.group_modGroup_same v p (fun g => g.suspect i)
  obtain ⟨e, h, hr⟩ := t.report_errHost { err := .convSuspect, inst := v, unit := v, group := p, detail := i } rfl rfl rfl
  rw [hr]
  refine ⟨_, e, h, rfl, ((s.group v p).suspect i).due.getD s.tick.now, ?_⟩
  refine (State.makeDue_group { t with errs := e, host := h } v p).trans ?_
  rw [show State.group { t with errs := e, host := h } v p = (s.group v p).suspect i from ht]
  rfl

/-- Settles O40. -/
theorem rollingCalibration : Obligations.RollingCalibration := by
  intro s v p i meas ofs gain g
  refine ⟨fun hturn => ⟨fun hcal => ?agree, fun hcal => ?fails⟩, fun hturn => congrArg Host.Outcome.next (if_pos hturn),
    fun hstage => if_neg fun h => hstage h.1⟩
  case agree =>
    have hexec : exec (.converterCalDone v p i meas) s = .next ((s.modGroup v.val p (fun g => { g with
        nextConv := (i.val + 1) % 9, calTick := s.tick.now + 1, checkCols := g.checkCols.filter (fun c => ownConv c != i.val) })).modGroup
          v.val p (fun g => g.setConv i.val { g.conv i.val with ofsTgt := ofs, gainTgt := gain })) := by
      refine congrArg Host.Outcome.next ((if_neg (not_not.2 hturn)).trans ?_)
      rw [hcal]
    refine ⟨_, hexec, ?_, fun j hj => ?_, ?_, rfl⟩
    · rw [State.group_modGroup_same, Group.conv_setConv_same, State.group_modGroup_same]
      rfl
    · rw [State.group_modGroup_same, Group.conv_setConv_ne (Ne.symm hj), State.group_modGroup_same]
      rfl
    · rw [State.group_modGroup_same, State.group_modGroup_same]
      rfl
  case fails =>
    obtain ⟨gs, e, h, hsus, due, hgroup⟩ := State.suspectConv_leaves (s.modGroup v.val p (fun g => { g with
        nextConv := (i.val + 1) % 9, calTick := s.tick.now + 1
        checkCols := g.checkCols.filter (fun c => ownConv c != i.val) })) v.val p i.val
    have hexec : exec (.converterCalDone v p i meas) s = .next { s with groups := gs, errs := e, host := h } := by
      refine congrArg Host.Outcome.next ((if_neg (not_not.2 hturn)).trans ?_)
      rw [hcal]
      exact hsus
    have hg : State.group { s with groups := gs, errs := e, host := h } v.val p = _ := hgroup
    refine ⟨_, hexec, ?_, ?_, fun hi => ?_, rfl⟩
    · rw [hg]
      exact Group.suspect_self ..
    · rw [hg]
      rfl
    · rw [hg]
      exact Group.suspect_spare hi

end Sys2Proof.Machine

/-! ## Fall-back calibration and margin windows (R146 to R161) -/

namespace Sys2Proof.Machine

set_option Elab.async false

/-! ### What calibration writes of a group -/

/-- Only the corrections of the converters and the trims of the columns differ. -/
def Tuned (g h : Group) : Prop := ∃ cs ts, h = { g with convs := cs, trims := ts }

namespace Tuned

theorem refl {g : Group} : Tuned g g := ⟨_, _, rfl⟩

section
variable {g h : Group} (t : Tuned g h)
include t

theorem trans {k : Group} (u : Tuned h k) : Tuned g k := by
  obtain ⟨_, _, rfl⟩ := t
  obtain ⟨_, _, rfl⟩ := u
  exact ⟨_, _, rfl⟩

theorem setConv {i c} : Tuned g (h.setConv i c) := t.trans ⟨_, _, rfl⟩
theorem setTrim {i c} : Tuned g (h.setTrim i c) := t.trans ⟨_, _, rfl⟩

theorem foldl {α : Type} {f : Group → α → Group} {l : List α} (hf : ∀ k a, Tuned g k → Tuned g (f k a)) : Tuned g (l.foldl f h) := by
  induction l generalizing h with
  | nil => exact t
  | cons a l ih => exact ih (hf h a t)

theorem foldlFst {α β : Type} {f : Group × β → α → Group × β} {l : List α} {b : β}
    (hf : ∀ k b a, Tuned g k → Tuned g (f (k, b) a).1) : Tuned g (l.foldl f (h, b)).1 := by
  induction l generalizing h b with
  | nil => exact t
  | cons a l ih => exact ih (hf h b a t)

theorem takeTrims {pats cells b} : Tuned g (h.takeTrims pats cells b).1 := by
  refine t.foldlFst fun k l a hk => ?_
  show Tuned g (k.takeTrim pats cells a.1 a.2).1
  unfold Group.takeTrim
  extract_lets q tr agree
  split
  · exact hk
  · split
    · exact hk
    · exact hk.setTrim

theorem bankConvs {meas} : Tuned g (h.bankConvs meas).1 := by
  refine t.foldlFst fun k l a hk => ?_
  show Tuned g (k.bankConv a (meas a)).1
  unfold Group.bankConv
  extract_lets rest
  split
  · exact hk.setConv
  · exact hk.setConv

theorem applyAll : Tuned g h.applyAll :=
  (t.foldl fun _ _ hk => hk.setConv).foldl fun _ _ hk => hk.setTrim
end

end Tuned

/-- The settled blocks of a bank change its group's corrections alone. -/
theorem BankRun.settle_tuned (cal : CalConst) {g : Group} : ∀ (bs : List BlockIn) (x : BankRun), Tuned g x.g →
    Tuned g (bs.foldl (BankRun.settle cal Group.blockCells) x).g
  | [], _, h => h
  | b :: bs, x, h => settle_tuned cal bs (BankRun.settle cal Group.blockCells x b) h.takeTrims.applyAll

/-! ### Reports beside changes of groups -/

/-- Only groups, error registers and the host port differ. -/
def GroupErrs (s t : State) : Prop := ∃ gs e h, t = { s with groups := gs, errs := e, host := h }

namespace GroupErrs

theorem refl {s : State} : GroupErrs s s := ⟨_, _, _, rfl⟩

section
variable {s t : State} (h : GroupErrs s t)
include h

theorem trans {u : State} (h' : GroupErrs t u) : GroupErrs s u := by
  obtain ⟨gs, e, x, rfl⟩ := h
  obtain ⟨gs', e', x', rfl⟩ := h'
  exact ⟨gs', e', x', rfl⟩

theorem frame : t = { s with groups := t.groups, errs := t.errs, host := t.host } := by
  obtain ⟨gs, e, x, rfl⟩ := h
  rfl

theorem modGroup {v p f} : GroupErrs s (t.modGroup v p f) := h.trans ⟨_, _, _, rfl⟩
theorem errHost {u : State} (h' : ErrHost t u) : GroupErrs s u := by
  obtain ⟨e, x, hx⟩ := h'
  exact h.trans ⟨_, e, x, hx⟩
theorem report {r : Report} (hc : r.cls = none := by rfl) (h1 : (errInfo r.err).cls = 1 := by rfl)
    (hn : r.named = [] := by rfl) : GroupErrs s (t.report r) := h.errHost (t.report_errHost r hc h1 hn)
theorem startReplan {v p} : GroupErrs s (t.startReplan v p) := by
  rcases t.startReplan_eq v p with ⟨ht, -⟩ | ht
  · rw [ht]
    exact h
  · rw [ht]
    exact h.modGroup
end

end GroupErrs

theorem State.reportSuspects_errHost (v p : Nat) : ∀ (l : List Nat) (s : State), ErrHost s (s.reportSuspects v p l)
  | [], s => .refl s
  | i :: l, s => (s.report_errHost { err := .convSuspect, inst := v, unit := v, group := p, detail := i } rfl rfl rfl).trans
      (reportSuspects_errHost v p l _)

/-! ### The bank of a fall-back -/

theorem Group.foldl_setConv_cal : ∀ (l : List Nat) (g : Group) (j : Nat), j ∈ l ∨ (g.conv j).state = .cal →
    ((l.foldl (fun g i => g.setConv i { g.conv i with state := .cal, covers := none }) g).conv j).state = .cal
  | [], _, _, h => h.resolve_left List.not_mem_nil
  | i :: l, g, j, h => by
    refine foldl_setConv_cal l _ j ?_
    by_cases hj : i = j
    · rw [← hj, Group.conv_setConv_same]
      exact .inr rfl
    · rw [Group.conv_setConv_ne hj]
      exact h.imp_left fun hm => (List.mem_cons.1 hm).resolve_left (Ne.symm hj)

/-! ### The end of a margin window -/

theorem Group.windowEnd_windowEnd (g : Group) : g.windowEnd.windowEnd = g.windowEnd := by
  unfold Group.windowEnd
  simp

theorem State.foldl_windowEnd : ∀ (l : List (Nat × Nat)) (s : State), (∀ x ∈ l, x.2 < 1536) → ∀ y : Nat × Nat, y.2 < 1536 →
    (y ∈ l → (l.foldl (fun s x => s.modGroup x.1 x.2 Group.windowEnd) s).group y.1 y.2 = (s.group y.1 y.2).windowEnd) ∧
    ((s.group y.1 y.2).windowEnd = s.group y.1 y.2 →
      (l.foldl (fun s x => s.modGroup x.1 x.2 Group.windowEnd) s).group y.1 y.2 = s.group y.1 y.2)
  | [], s, _, y, _ => ⟨fun h => absurd h List.not_mem_nil, fun _ => rfl⟩
  | x :: l, s, hl, y, hy => by
    obtain ⟨hin, hdone⟩ := foldl_windowEnd l (s.modGroup x.1 x.2 Group.windowEnd) (fun z hz => hl z (List.mem_cons_of_mem x hz)) y hy
    by_cases hxy : x = y
    · subst hxy
      rw [State.group_modGroup_same, Group.windowEnd_windowEnd] at hin hdone
      exact ⟨fun _ => hdone rfl, fun h => (hdone rfl).trans h⟩
    · have hkey : groupKey x.1 x.2 ≠ groupKey y.1 y.2 := groupKey_ne (hl x (List.mem_cons_self ..)) hy (by
        by_contra h
        exact hxy (Prod.ext (by omega) (by omega)))
      rw [State.group_modGroup_ne hkey] at hin hdone
      exact ⟨fun h => hin ((List.mem_cons.1 h).resolve_left (Ne.symm hxy)), hdone⟩

theorem State.foldl_modGroup_frame {f : Group → Group} : ∀ (l : List (Nat × Nat)) (s : State),
    ∃ gs, l.foldl (fun s x => s.modGroup x.1 x.2 f) s = { s with groups := gs }
  | [], _ => ⟨_, rfl⟩
  | x :: l, s => by
    obtain ⟨gs, h⟩ := foldl_modGroup_frame l (s.modGroup x.1 x.2 f)
    exact ⟨gs, h⟩

/-! ### A block under the serving plan -/

/-- A block of codes `codes`, the lowest of them `low`, in the margins of its window. -/
def Group.margins (g : Group) (codes : List Nat) (sigma low : Nat) : Group :=
  { g with marginMin := if g.measured then min g.marginMin low else low, measured := true, lastLow := low
           sigma := max g.sigma sigma
           hist := codes.foldl (fun h c => put 0 h (histBin c) (satAdd 32 (get 0 h (histBin c)) 1)) g.hist }

section
variable {s : State} {v p low sigma : Nat} {codes : List Nat} (hlow : lowest codes = some low)
include hlow

theorem State.takeMargins_above (h : 66 ≤ low) (hmin : (s.group v p).measured = true → 66 ≤ (s.group v p).marginMin) :
    s.takeMargins v p codes sigma = s.modGroup v p (fun g => g.margins codes sigma low) := by
  have hgroup := s.group_modGroup_same v p (fun g => g.margins codes sigma low)
  have hkeep : ¬((State.group (s.modGroup v p (fun g => g.margins codes sigma low)) v p).marginMin ≤ 65 ∧
      !(State.group (s.modGroup v p (fun g => g.margins codes sigma low)) v p).lowDone) := by
    rw [hgroup]
    rintro ⟨hle, -⟩
    cases hm : (s.group v p).measured with
    | true =>
      have := hmin hm
      simp only [Group.margins, hm, if_true] at hle
      omega
    | false =>
      simp only [Group.margins, hm, Bool.false_eq_true, if_false] at hle
      omega
  unfold State.takeMargins
  rw [hlow]
  refine (if_neg (by omega)).trans ?_
  exact if_neg hkeep

theorem State.takeMargins_below (h : low < 60) : GroupErrs s (s.takeMargins v p codes sigma) ∧
    ((s.takeMargins v p codes sigma).group v p).state = .recal ∧
    ((s.takeMargins v p codes sigma).group v p).breach = true ∧
    ((s.takeMargins v p codes sigma).group v p).due.isSome = true := by
  unfold State.takeMargins
  rw [hlow]
  dsimp -zeta only
  extract_lets t u w
  have ht : GroupErrs s t := GroupErrs.refl.modGroup
  have hu : GroupErrs s u := by
    unfold u
    split
    · exact ht.modGroup.report.startReplan
    · exact ht
  rw [if_pos h, State.makeDue_group, State.group_modGroup_same]
  exact ⟨hu.report.modGroup.modGroup, rfl, rfl, rfl⟩
end

section
variable {s : State} {v : Nat} {b : BlockIn} {g : Group} (hg : s.group v b.group = g)
  (hst : g.state = .inService ∨ g.state = .spare) (hplan : b.plan = g.plan) (hre : g.replan = none)
  (hones : g.onesBad (patsOf s.passCal b) b = false)
  (htrims : (g.takeTrims (patsOf s.passCal b) (g.blockCells b) b).2 = [])
include hg hst hplan hre hones htrims

/-- A block in which no column fails counts in the margins. -/
theorem State.takeBlock_clean : s.takeBlock v b =
    (s.modGroup v b.group (fun _ => (g.takeTrims (patsOf s.passCal b) (g.blockCells b) b).1)).takeMargins v b.group
      (g.codes (patsOf s.passCal b) (g.blockCells b) b) (g.sigmas b) := by
  subst hg
  unfold State.takeBlock
  extract_lets p g pats cells codes r t u
  have ht : t = s.modGroup v p (fun _ => r.1) := by
    unfold t State.calFailures
    rw [hones, htrims]
    rfl
  have hu : u = t := by
    unfold u
    rw [show g.replan = none from hre]
  rw [if_neg (by simpa [or_iff_not_imp_left] using hst), hu, ht]
  exact if_pos hplan
end

/-- The settled bank of a fall-back. -/
def Group.fallBank (g : Group) (cal : CalConst) (convs : List ConvIn) (bs : List BlockIn) : BankRun :=
  bs.foldl (BankRun.settle cal Group.blockCells) { g := (g.bankConvs (fun i => convs.getD i [])).1.applyAll }

section
variable {s : State} {v : Fin 64} {p : Nat} {convs : List ConvIn} {bs : List BlockIn}

theorem Group.fallBank_tuned (g : Group) (cal : CalConst) : Tuned g (g.fallBank cal convs bs).g :=
  BankRun.settle_tuned cal bs _ Tuned.refl.bankConvs.applyAll

theorem State.endFall_pass {q : Nat} (hconv : ((s.group v.val p).bankConvs (fun i => convs.getD i [])).2 = [])
    (hq : choosePlan s.planOrder ((s.group v.val p).fallBank s.passCal convs bs).low = some q)
    (hones : ((s.group v.val p).fallBank s.passCal convs bs).ones = false)
    (htrims : ((s.group v.val p).fallBank s.passCal convs bs).trims = []) : s.endFall v.val p convs bs =
      ((s.modGroup v.val p (fun _ => ((s.group v.val p).fallBank s.passCal convs bs).g)).modGroup v.val p
        (fun g => g.restart ((((s.group v.val p).fallBank s.passCal convs bs).low q).getD 0))).modGroup v.val p
          (fun g => { g with planNext := some q, readyNext := some (if g.logical = 0x7FF then .spare else .inService) }) := by
  unfold State.endFall
  extract_lets r x t
  have hconv' : r.2 = [] := hconv
  have hones' : x.ones = false := hones
  have htrims' : x.trims = [] := htrims
  have ht : t = s.modGroup v.val p (fun _ => x.g) := by
    unfold t
    rw [hconv']
    rfl
  have hchoose : choosePlan t.planOrder x.low = some q := by
    rw [ht]
    exact hq
  rw [hconv', hchoose, hones', htrims', ht]
  rfl

theorem State.endFall_fail (hconv : ((s.group v.val p).bankConvs (fun i => convs.getD i [])).2 ≠ [])
    (hlog : (s.group v.val p).logical = 0x7FF) (hst : (s.group v.val p).state ≠ .retired) :
    GroupErrs s (s.endFall v.val p convs bs) ∧ ((s.endFall v.val p convs bs).group v.val p).state = .retired ∧
      ((s.endFall v.val p convs bs).group v.val p).retCause = 2 := by
  unfold State.endFall
  extract_lets r x t
  obtain ⟨cs, ts, hx⟩ := (s.group v.val p).fallBank_tuned (convs := convs) (bs := bs) s.passCal
  obtain ⟨e, h, ht⟩ := (s.modGroup v.val p (fun _ => x.g)).reportSuspects_errHost v.val p r.2
  obtain ⟨e', h', hrep⟩ := t.report_errHost { err := .fallbackFail, unit := v.val, group := p } rfl rfl rfl
  have hgroup (u : State) (hu : ErrHost t u) : u.group v.val p = { s.group v.val p with convs := cs, trims := ts } := by
    obtain ⟨e'', h'', hu⟩ := hu
    rw [hu, show t = _ from ht]
    exact (s.group_modGroup_same v.val p (fun _ => x.g)).trans hx
  have hnone : (match r.2, choosePlan t.planOrder x.low with
      | [], some q => ((t.modGroup v.val p (fun g => g.restart ((x.low q).getD 0))).calFailures v.val p x.ones x.trims).modGroup
          v.val p (fun g => { g with planNext := some q, readyNext := some (if g.logical = 0x7FF then .spare else .inService) })
      | _, _ => (t.report { err := .fallbackFail, unit := v.val, group := p }).retireGroup v.val p 2 2600) =
      (t.report { err := .fallbackFail, unit := v.val, group := p }).retireGroup v.val p 2 2600 := by
    split
    next q h1 h2 => exact absurd h1 hconv
    next => rfl
  obtain ⟨gs, hret, hstate, hcause⟩ := State.retireGroup_bare (s := { t with errs := e', host := h' }) (v := v) (p := p)
    (cause := 2) (o := 2600) (by rw [hgroup _ ⟨_, _, rfl⟩]; exact hst) (by rw [hgroup _ ⟨_, _, rfl⟩]; exact hlog)
  have hres : (t.report { err := .fallbackFail, unit := v.val, group := p }).retireGroup v.val p 2 2600 =
      { t with errs := e', host := h', groups := gs } := by
    rw [hrep]
    exact hret
  refine ⟨?_, ?_, ?_⟩
  · refine Eq.mpr (congrArg (GroupErrs s) (hnone.trans hres)) ?_
    exact (GroupErrs.refl.modGroup.errHost ⟨e, h, ht⟩).trans ⟨_, _, _, rfl⟩
  · exact (congrArg (fun u : State => (u.group v.val p).state) (hnone.trans hres)).trans hstate
  · exact (congrArg (fun u : State => (u.group v.val p).retCause) (hnone.trans hres)).trans hcause
end

theorem execFallbackStart_eq {s : State} {v : Fin 64} {p : Nat} (hload : s.reloading (seqCode .cal) = false)
    (hfall : s.falling v.val = none) (hstage : s.tick.stage = .execution) (hplans : s.vatPlans v.val = true)
    (hready : (s.vat v.val).refReady = true) (hhead : s.fallHead v.val = some p) : exec (.fallbackStart v) s =
      .next (s.modGroup v.val p (fun g => { (List.range 9).foldl (fun g i => g.setConv i { g.conv i with
        state := .cal, covers := none }) g with
        state := .recal, inFall := true, recalNext := false, replan := none, planNext := none })) := by
  refine congrArg Host.Outcome.next ((if_neg (by simp [hload, hfall, hstage, hplans])).trans ((if_neg (by simp [hready])).trans ?_))
  rw [hhead]

/-- A window takes its one block. -/
theorem execCalibrationWindow_eq {s : State} {v : Fin 64} {b : BlockIn} (hload : s.reloading (seqCode .cal) = false)
    (hplans : s.vatPlans v.val = true) (hstage : s.tick.stage = .started ∨ s.tick.stage = .evaluated)
    (hready : (s.vat v.val).refReady = true) : exec (.calibrationWindow v [b]) s = .next (s.takeBlock v.val b) :=
  congrArg Host.Outcome.next ((if_neg (by rcases hstage with h | h <;> simp [hload, hplans, h])).trans (if_neg (by simp [hready])))

/-- Settles O39. -/
theorem marginCalibration : Obligations.MarginCalibration := by
  intro s v p b convs bs low g cal hp
  refine ⟨fun hload hfall hstage hplans hready hhead => ?start, fun hfall hnext => ?fallEnd,
    fun hfall => congrArg Host.Outcome.next ?idle,
    fun hload hplans hstage hready hbg hplan hst hre hones htrims hlow => ?block, ?window, fun hm hw => ?full, fun h => ?partWindow⟩
  case start =>
    refine ⟨_, execFallbackStart_eq hload hfall hstage hplans hready hhead, ?_, ?_, fun j hj => ?_, rfl⟩
    · rw [State.group_modGroup_same]
    · rw [State.group_modGroup_same]
    · rw [State.group_modGroup_same]
      exact Group.foldl_setConv_cal (List.range 9) g j (.inl (List.mem_range.2 hj))
  case fallEnd =>
    have hexec : exec (.fallbackEnd v convs bs) s = .next (s.endFall v.val p convs bs) := by
      refine congrArg Host.Outcome.next ?_
      rw [hfall]
      exact if_neg (by rw [show (s.group v.val p).readyNext = none from hnext]; exact Bool.false_ne_true)
    intro r x
    refine ⟨fun q hconv hq hones htrims => ?_, fun hconv hlog hst => ?_⟩
    · obtain ⟨cs, ts, hx⟩ := g.fallBank_tuned (convs := convs) (bs := bs) cal
      have hend := State.endFall_pass hconv hq hones htrims
      refine ⟨_, hexec.trans (congrArg Host.Outcome.next hend), ?_⟩
      beta_reduce
      rw [State.group_modGroup_same, State.group_modGroup_same, State.group_modGroup_same,
        show ((s.group v.val p).fallBank s.passCal convs bs).g = _ from hx]
      exact ⟨rfl, rfl, rfl, rfl, rfl, rfl⟩
    · obtain ⟨hframe, hstate, hcause⟩ := State.endFall_fail (bs := bs) hconv hlog hst
      exact ⟨_, hexec, hstate, hcause, hframe.frame⟩
  case idle => rw [hfall]
  case block =>
    subst hbg
    have hblock := (execCalibrationWindow_eq hload hplans hstage hready).trans
      (congrArg Host.Outcome.next (State.takeBlock_clean rfl hst hplan hre hones htrims))
    obtain ⟨cs, ts, htr⟩ : Tuned g (g.takeTrims (patsOf cal b) (g.blockCells b) b).1 := Tuned.refl.takeTrims
    have hgroup : (s.modGroup v.val b.group (fun _ => (g.takeTrims (patsOf cal b) (g.blockCells b) b).1)).group v.val b.group =
        { g with convs := cs, trims := ts } := (s.group_modGroup_same v.val b.group _).trans htr
    refine ⟨fun hge hmin => ?_, fun hlt => ?_⟩
    · rw [State.takeMargins_above hlow hge (by rw [show State.group _ _ _ = _ from hgroup]; exact hmin)] at hblock
      refine ⟨_, hblock, ?_⟩
      beta_reduce
      rw [State.group_modGroup_same, show State.group _ _ _ = _ from hgroup]
      exact ⟨rfl, rfl, rfl, rfl, rfl⟩
    · obtain ⟨hframe, hstate, hbreach, hdue⟩ := State.takeMargins_below (s := s.modGroup v.val b.group (fun _ =>
        (g.takeTrims (patsOf cal b) (g.blockCells b) b).1)) (v := v.val) (p := b.group) (sigma := g.sigmas b) hlow hlt
      exact ⟨_, hblock, hstate, hbreach, hdue, (GroupErrs.refl.modGroup.trans hframe).frame⟩
  case window =>
    obtain ⟨gs, hgs⟩ := State.foldl_modGroup_frame (f := Group.windowEnd) s.groupList s
    have hlt (y : Nat × Nat) (hy : y ∈ s.groupList) : y.2 < 1536 := by
      obtain ⟨z, -, rfl⟩ := List.mem_map.1 hy
      exact Nat.mod_lt _ (by decide)
    exact ⟨_, rfl, fun y hy => (State.foldl_windowEnd s.groupList s hlt y (hlt y hy)).1 hy, by rw [hgs]⟩
  case full =>
    unfold Group.windowEnd
    simp [hm, hw]
  case partWindow =>
    unfold Group.windowEnd
    rcases h with h | h <;> simp [h]

end Sys2Proof.Machine

/-! ## What a route keeps of the error histories (R498) -/

namespace Sys2Proof.Machine

set_option Elab.async false

theorem ErrState.event_history (e : ErrState) (c : Capture) : (e.event c).history = e.history := by
  unfold ErrState.event
  split
  · split <;> rfl
  · rfl

theorem Sends.errs {s t : State} (h : Sends s t) : t.errs = s.errs := by
  obtain ⟨_, _, _, rfl⟩ := h
  rfl

theorem State.queueEvent_history (s : State) (c : Capture) : (s.queueEvent c).errs.history = s.errs.history := by
  unfold State.queueEvent
  extract_lets e t u
  have ht : t.errs.history = s.errs.history := s.errs.event_history c
  split
  · exact ht
  · split
    · exact ht
    · rw [(u.pfVector_sends 2).errs]
      exact ht

/-- A route counts no error against a unit. -/
theorem State.route_history (s : State) (e : Err) (inst cls : Nat) (d : Option Nat) (c : Capture) :
    (s.route e inst cls d c).errs.history = s.errs.history := by
  unfold State.route
  extract_lets +onlyGivenNames i page u w mask x
  have hu : u.errs.history = s.errs.history := by
    unfold u
    split <;> rfl
  have hw : w.errs.history = s.errs.history := by
    unfold w
    split
    · exact hu
    next d =>
      extract_lets y
      have hy : y.errs.history = s.errs.history := by
        unfold y
        split
        · exact hu
        · exact hu
      split
      · rw [(y.raiseVector_sends (d + 1) 2).errs]
        exact hy
      · exact hy
  have hx : x.errs.history = s.errs.history := by
    unfold x
    split
    · split
      · rw [(w.pfVector_sends 1).errs]
        exact hw
      · exact hw
    · split
      · exact hw
      · rw [(w.pfVector_sends 2).errs]
        exact hw
  split
  · rw [State.queueEvent_history]
    exact hx
  · exact hx

theorem State.report_history (s : State) (r : Report) (hc : r.cls = none) (h1 : (errInfo r.err).cls = 1) (hn : r.named = []) :
    (s.report r).errs.history = s.errs.history := by
  obtain ⟨k, hk⟩ := s.report_corrected r hc h1 hn
  rw [hk, State.route_history]

theorem State.counted_history {s t : State} (h : t.errs.history = s.errs.history) (ht : t.tick = s.tick) (u : Nat) :
    t.counted u = s.counted u := by
  unfold State.counted
  rw [h, ht]

/-! ### Reports and changes of groups that count no error -/

/-- Only groups, error registers and the host port differ, and no error is counted. -/
def CalNotes (s t : State) : Prop := GroupErrs s t ∧ t.errs.history = s.errs.history

namespace CalNotes

theorem refl {s : State} : CalNotes s s := ⟨GroupErrs.refl, rfl⟩

section
variable {s t : State} (h : CalNotes s t)
include h

theorem modGroup {v p f} : CalNotes s (t.modGroup v p f) := ⟨h.1.modGroup, h.2⟩

theorem report {r : Report} (hc : r.cls = none := by rfl) (h1 : (errInfo r.err).cls = 1 := by rfl)
    (hn : r.named = [] := by rfl) : CalNotes s (t.report r) := ⟨h.1.report hc h1 hn, (t.report_history r hc h1 hn).trans h.2⟩

theorem foldl {α : Type} {f : State → α → State} {l : List α} (hf : ∀ u a, CalNotes s u → CalNotes s (f u a)) :
    CalNotes s (l.foldl f t) := by
  induction l generalizing t with
  | nil => exact h
  | cons a l ih => exact ih (hf t a h)

theorem makeDue {v p} : CalNotes s (t.makeDue v p) := h.modGroup

theorem suspectConv {v p i} : CalNotes s (t.suspectConv v p i) := h.modGroup.report.makeDue

theorem reportSuspects {v p l} : CalNotes s (t.reportSuspects v p l) := h.foldl fun _ _ hu => hu.report

theorem calFailures {v p o l} : CalNotes s (t.calFailures v p o l) := by
  unfold State.calFailures
  extract_lets u
  have hu : CalNotes s u := by
    unfold u
    split
    · exact h.report.makeDue
    · exact h
  exact hu.foldl fun _ _ hw => hw.report.makeDue

theorem initRecords {v p x} : CalNotes s (t.initRecords v p x) := by
  unfold State.initRecords
  extract_lets u w
  have hu : CalNotes s u := by
    unfold u
    split
    · exact h.suspectConv
    · exact h.reportSuspects
  have hw : CalNotes s w := hu.calFailures
  split
  · exact hu
  · split
    · exact hw
    · exact hw.makeDue
end

end CalNotes

end Sys2Proof.Machine

/-! ## Initial calibration and the margin record (R127, R148, R171 to R176, R548, R573) -/

namespace Sys2Proof.Machine

set_option Elab.async false

/-! ### Vats that begin -/

/-- The vat as INIT_CAL takes it. -/
def Vat.calStart (x : Vat) : Vat :=
  if (x.state = .off ∨ x.state = .idle) ∧ x.refReady = true then { x with state := .calibrating } else x

theorem Vat.calStart_calStart (x : Vat) : x.calStart.calStart = x.calStart := by
  by_cases h : (x.state = .off ∨ x.state = .idle) ∧ x.refReady = true
  · rw [Vat.calStart, Vat.calStart, if_pos h, if_neg (by simp)]
  · rw [Vat.calStart, Vat.calStart, if_neg h, if_neg h]

theorem State.initCalOne_leaves (s : State) (v : Nat) : ∃ vs e h, s.initCalOne v = { s with vats := vs, errs := e, host := h } ∧
    ∀ w, get {} vs w = if w = v then (s.vat w).calStart else s.vat w := by
  have hkeep (hno : ¬((s.vat v).state = .off ∨ (s.vat v).state = .idle) ∨ (s.vat v).refReady = false) (w : Nat) :
      s.vat w = if w = v then (s.vat w).calStart else s.vat w := by
    split
    next h =>
      subst h
      rw [Vat.calStart, if_neg]
      rintro ⟨h1, h2⟩
      rcases hno with h | h
      · exact h h1
      · rw [h] at h2
        exact nomatch h2
    next => rfl
  unfold State.initCalOne
  extract_lets x
  by_cases hst : x.state = .off ∨ x.state = .idle
  · rw [if_neg (by simpa [or_iff_not_imp_left] using hst)]
    cases hr : x.refReady with
    | true =>
      refine ⟨_, _, _, rfl, fun w => ?_⟩
      refine (s.vat_modVat v w (fun x => { x with state := .calibrating })).trans ?_
      by_cases hw : v = w
      · rw [if_pos hw, if_pos hw.symm, ← hw, Vat.calStart, if_pos ⟨hst, hr⟩]
      · rw [if_neg hw, if_neg (Ne.symm hw)]
    | false =>
      obtain ⟨e, h, hc⟩ := s.corrected_errHost .refNotReady v none 0xFFFFFFFF
      exact ⟨s.vats, e, h, hc, hkeep (.inr hr)⟩
  · rw [if_pos (by simpa [or_iff_not_imp_left] using hst)]
    exact ⟨_, _, _, rfl, hkeep (.inl hst)⟩

theorem State.forAll_initCalOne : ∀ (l : List Nat) (s : State), ∃ vs e h,
    forAll l (fun v s => s.initCalOne v) s = { s with vats := vs, errs := e, host := h } ∧
      ∀ w, get {} vs w = if w ∈ l then (s.vat w).calStart else s.vat w
  | [], s => ⟨s.vats, s.errs, s.host, rfl, fun w => by simp [State.vat]⟩
  | v :: l, s => by
    obtain ⟨vs, e, h, hone, hvat⟩ := s.initCalOne_leaves v
    obtain ⟨vs', e', h', hrest, hvat'⟩ := forAll_initCalOne l (s.initCalOne v)
    refine ⟨vs', e', h', ?_, fun w => ?_⟩
    · refine hrest.trans ?_
      rw [hone]
    · have hw : (s.initCalOne v).vat w = get {} vs w := by rw [hone]; rfl
      rw [hvat', hw, hvat]
      by_cases hv : w = v
      · subst hv
        by_cases hl : w ∈ l
        · simp [hl, Vat.calStart_calStart]
        · simp [hl]
      · simp [hv]

theorem mem_maskBits {n m i : Nat} : i ∈ maskBits n m ↔ i < n ∧ bit m i = true := by
  simp [maskBits]

/-! ### Vats that end -/

/-- Initial calibration of a vat writes its groups, what they report, and the base of its age. -/
theorem State.initVat_leaves (s : State) (v : Nat) (l : List InitIn) : ∃ gs e h a,
    (s.initVat v l).1 = { s with groups := gs, errs := e, host := h, vats := put {} s.vats v { s.vat v with ageBase := a } } ∧
      e.history = s.errs.history := by
  unfold State.initVat
  extract_lets live res pass ranked serve slow a b c
  have ha : CalNotes s a := CalNotes.refl.foldl fun u p hu => by
    split
    · exact hu
    · split
      · exact hu.modGroup
      · split
        · exact hu.modGroup
        · exact hu.modGroup
  obtain ⟨⟨gs, e, h, hb⟩, hhist⟩ : CalNotes s b := ha.foldl fun u p hu => hu.initRecords
  rw [hb] at hhist
  have hvat : b.vat v = s.vat v := by rw [hb]; rfl
  have hage (f : Vat → Vat) (hf : ∃ y, f (s.vat v) = { s.vat v with ageBase := y }) (hc : c = b.modVat v f) :
      ∃ gs e h y, c = { s with groups := gs, errs := e, host := h, vats := put {} s.vats v { s.vat v with ageBase := y } } ∧
        e.history = s.errs.history := by
    obtain ⟨y, hy⟩ := hf
    refine ⟨gs, e, h, y, ?_, hhist⟩
    rw [hc, State.modVat, hvat, hy, hb]
  refine hage _ ?_ rfl
  split
  · exact ⟨_, rfl⟩
  · split
    · exact ⟨_, rfl⟩
    · exact ⟨_, rfl⟩

/-- Vat `v` serves or is retired, or the module has shut down. -/
def Settled (v : Nat) (s : State) : Prop :=
  (s.vat v).state = .idle ∨ (s.vat v).state = .retired ∨ s.power.phase = .shutdown

namespace Settled

variable {v : Nat} {s : State}

theorem same {t : State} (h : Settled v s) (hv : t.vats = s.vats := by rfl) (hp : t.power = s.power := by rfl) : Settled v t := by
  unfold Settled State.vat
  rw [hv, hp]
  exact h

theorem errHost {t : State} (h : Settled v s) (ht : ErrHost s t) : Settled v t := by
  obtain ⟨e, x, rfl⟩ := ht
  exact h.same

theorem foldl {α : Type} {f : State → α → State} {l : List α} (h : Settled v s) (hf : ∀ u a, Settled v u → Settled v (f u a)) :
    Settled v (l.foldl f s) := by
  induction l generalizing s with
  | nil => exact h
  | cons a l ih => exact ih (hf s a h)

theorem retireVat {c o : Nat} : Settled v (s.retireVat v c o) := by
  by_cases h : (s.vat v).state = .retired
  · rw [State.retireVat, if_pos (by simp [h])]
    exact .inr (.inl h)
  · obtain ⟨hst, -⟩ := s.retireVat_leaves c o h
    exact .inr (.inl hst)

/-- A report against the vat retires it, shuts the module down, or leaves it. -/
theorem report {r : Report} (h : Settled v s) (hv : r.vat = some v) (hn : r.named = []) : Settled v (s.report r) := by
  have he := s.escalate_errHost r
  unfold State.report
  generalize s.escalate r = x at he
  obtain ⟨cls, esc, u⟩ := x
  dsimp only at he ⊢
  rw [hn, hv]
  generalize hc : Capture.mk .. = c
  have hr := he.trans (u.route_errHost r.err r.inst cls r.deckle c)
  generalize u.route r.err r.inst cls r.deckle c = w at hr
  split
  · exact .inr (.inr rfl)
  · simp only [List.foldl_nil, ite_self]
    split
    · exact retireVat
    · exact h.errHost hr

theorem retireGroup {p c o : Nat} (h : Settled v s) : Settled v (s.retireGroup v p c o) := by
  unfold State.retireGroup
  extract_lets g held gone
  split
  · exact h
  · split
    · exact h.same
    · split
      · exact h.same
      · exact report (s := s.modGroup v p gone) h.same rfl rfl

theorem verifyGroup {p : Nat} {l : List StuckIn} (h : Settled v s) : Settled v (s.verifyGroup v p l) := by
  unfold State.verifyGroup
  extract_lets t u w
  have hu : Settled v u := by
    unfold u
    split
    · exact h.same
    · exact h.same
  split
  · exact (hu.errHost (u.report_errHost { err := .stuckBudget, inst := v, unit := v, group := p } rfl rfl rfl)).retireGroup
  · exact hu

theorem refill {l : List InitIn} (h : Settled v s) : Settled v (s.refill v l) := by
  refine h.foldl fun u k hu => ?_
  split
  · exact hu
  · split
    · exact hu
    · refine hu.foldl fun w x hw => ?_
      extract_lets y
      have hy : Settled v y := by
        unfold y State.writeGroup
        split
        · exact hw
        · exact hw.same
      split
      next q p hloc =>
        split
        next hq =>
          subst hq
          exact hy.verifyGroup
        next => exact hy
      next => exact hy

end Settled

theorem foldl_eq_self {α β : Type} {f : β → α → β} {b : β} : ∀ l : List α, (∀ a ∈ l, f b a = b) → l.foldl f b = b
  | [], _ => rfl
  | a :: l, h => by
    rw [List.foldl_cons, h a (List.mem_cons_self ..)]
    exact foldl_eq_self l fun x hx => h x (List.mem_cons_of_mem a hx)

/-- Without a current image there is nothing to write back. -/
theorem State.refill_empty (v : Nat) (l : List InitIn) (s : State) (h : ∀ k : Fin 16, (s.slot k.val).current = none) :
    s.refill v l = s := by
  unfold State.refill
  refine foldl_eq_self allSlots fun k hk => ?_
  rw [h ⟨k, List.mem_range.1 hk⟩]

/-- A retirement sets the vat's state and cause, and drops its requests. -/
theorem State.vat_retireVat {s : State} {v : Nat} (c o : Nat) (h : (s.vat v).state ≠ .retired) : (s.retireVat v c o).vat v =
    { s.vat v with state := .retired, retCause := c, runReq := false, idleReq := false, serviceReq := false } := by
  unfold State.retireVat
  rw [if_neg (by simpa using h)]
  dsimp only
  generalize hu : s.modVat v _ = u
  obtain ⟨e, x, ds, sc, ss, r, hw⟩ := u.loseOps_workEnds (fun o => o.unit == v && !o.reissue) o
  rw [show State.vat (u.loseOps _ o) v = u.vat v by rw [hw]; rfl, ← hu, State.vat_modVat_same]

/-! ### The margin record -/

section
variable {s : State} {copy cause n : Nat} {b : Bytes}

theorem State.wantRecord_free (h : s.flashBusy = false) : s.wantRecord n = { s with upd := { s.upd with
    recWait := none, recBusy := some (if nth s.upd.recSeqs 1 < nth s.upd.recSeqs 0 then 1 else 0, n,
      s.recordBytes n (s.upd.recSeq + 1)) } } := by
  unfold State.wantRecord State.beginRecord
  exact if_neg (ne_true_of_eq_false h)

theorem State.wantRecord_busy (h : s.flashBusy = true) : s.wantRecord n = { s with upd := { s.upd with recWait := some n } } := by
  unfold State.wantRecord State.beginRecord
  exact if_pos h

theorem State.beginRecord_idle (h : s.upd.recWait = none) : s.beginRecord = s := by
  unfold State.beginRecord
  rw [h]
end

/-- Settles O41. -/
theorem initialCalibrationAndRecord : Obligations.InitialCalibrationAndRecord := by
  refine ⟨fun s v mask l => ⟨?begin, fun hst => congrArg Host.Outcome.next (if_pos hst), fun hst hpass => ⟨?settles, fun hempty => ?idle⟩,
    fun hst hfail hdie => ?fail⟩, fun s copy cause b => ?record⟩
  case begin =>
    obtain ⟨vs, e, h, hall, hvat⟩ := State.forAll_initCalOne (maskBits 64 mask) s
    obtain ⟨e', h', hreq⟩ : ∃ e h, s.requestInit mask = { s with vats := vs, errs := e, host := h } := by
      unfold State.requestInit
      extract_lets t
      have ht : t = _ := hall
      split
      · obtain ⟨e', h', hr⟩ := t.report_errHost { err := .recordBad } rfl rfl rfl
        exact ⟨e', h', by rw [hr, ht]⟩
      · exact ⟨e, h, ht⟩
    refine ⟨_, congrArg Host.Outcome.next hreq, fun w hw => ?_, rfl⟩
    refine (hvat w).trans ?_
    by_cases hm : bit mask w = true
    · rw [if_pos (mem_maskBits.2 ⟨hw, hm⟩), Vat.calStart]
      exact if_congr (by simp [hm]) rfl rfl
    · rw [if_neg fun hmem => hm (mem_maskBits.1 hmem).2, if_neg fun hno => hm hno.1]
  case settles =>
    have hexec : exec (.initCalDone v l) s = .next ((((s.initVat v.val l).1).modVat v.val (fun x => { x with state := .idle })).refill
        v.val l) := congrArg Host.Outcome.next ((if_neg (not_not.2 hst)).trans (if_pos hpass))
    have hidle : Settled v.val ((s.initVat v.val l).1.modVat v.val (fun x => { x with state := .idle })) :=
      .inl (by rw [State.vat_modVat_same])
    refine ⟨_, hexec, ?_⟩
    rcases hidle.refill (l := l) with h | h | h
    · exact .inl h
    · exact .inr (.inl h)
    · exact .inr (.inr (State.moduleState_shutdown h))
  case idle =>
    obtain ⟨gs, e, h, a, hinit, -⟩ := s.initVat_leaves v.val l
    have hvat (w : Nat) (hw : w ≠ v.val) : (s.initVat v.val l).1.vat w = s.vat w := by
      rw [hinit]
      exact get_put_ne ({} : Vat) s.vats { s.vat v.val with ageBase := a } (Ne.symm hw)
    have hslot (k : Fin 16) : (((s.initVat v.val l).1.modVat v.val (fun x => { x with state := .idle })).slot k.val).current = none := by
      rw [hinit]
      exact hempty k
    have hexec : exec (.initCalDone v l) s = .next ((s.initVat v.val l).1.modVat v.val (fun x => { x with state := .idle })) :=
      congrArg Host.Outcome.next ((if_neg (not_not.2 hst)).trans ((if_pos hpass).trans (State.refill_empty _ _ _ hslot)))
    refine ⟨_, hexec, by rw [State.vat_modVat_same], fun w hw => ?_, ?_⟩
    · rw [State.vat_modVat, if_neg (Ne.symm hw), hvat w hw]
    · rw [hinit]
      rfl
  case fail =>
    obtain ⟨gs, e, h, a, hinit, hhist⟩ := s.initVat_leaves v.val l
    obtain ⟨w, hw⟩ : ∃ w, (s.initVat v.val l).1.modVat v.val (fun x => { x with initFail := true }) = w := ⟨_, rfl⟩
    have hvat : w.vat v.val = { s.vat v.val with ageBase := a, initFail := true } := by
      have hone : (s.initVat v.val l).1.vat v.val = { s.vat v.val with ageBase := a } := by
        rw [hinit]
        exact get_put_same ({} : Vat) s.vats v.val _
      rw [← hw, State.vat_modVat_same, hone]
    have hserve : (w.vat v.val).state ≠ .retired := by
      rw [hvat, show ({ s.vat v.val with ageBase := a, initFail := true } : Vat).state = .calibrating from hst]
      decide
    have hdie' : w.counted (unitDie (dieOf v.val)) = false := by
      refine (State.counted_history ?_ ?_ _).trans hdie
      · rw [← hw, hinit]
        exact hhist
      · rw [← hw, hinit]
        rfl
    obtain ⟨t, ⟨e', h', ht⟩, hrep⟩ := w.report_retires
      { err := .sparesExhausted, inst := v.val, unit := v.val, vat := some v.val, cause := 6 } rfl rfl rfl hserve hdie'
    have hexec : exec (.initCalDone v l) s = .next (t.retireVat v.val 6 0) := by
      refine congrArg Host.Outcome.next ((if_neg (not_not.2 hst)).trans ((if_neg (ne_true_of_eq_false hfail)).trans ?_))
      rw [hw]
      exact hrep
    have htv : t.vat v.val = w.vat v.val := by rw [ht]; rfl
    have hret := State.vat_retireVat (s := t) (v := v.val) 6 0 (by rw [htv]; exact hserve)
    refine ⟨_, hexec, by rw [hret], by rw [hret], by rw [hret, htv, hvat], ?_⟩
    obtain ⟨_, _, _, _, _, _, _, hframe⟩ := t.retireVat_reported v.val 6 0
    rw [hframe, ht, ← hw, hinit]
    rfl
  case record =>
    intro older writes
    refine ⟨⟨fun h => congrArg Host.Outcome.next (State.wantRecord_free h), fun h => congrArg Host.Outcome.next (State.wantRecord_busy h)⟩,
      fun hrun => ⟨fun h => ?_, fun h => ?_⟩, fun hrun => ?_, fun hbusy hwait => ⟨?_, ?_⟩, fun hbusy ok => ?_⟩
    · exact congrArg Host.Outcome.next ((if_neg (ne_true_of_eq_false hrun)).trans (State.wantRecord_free h))
    · exact congrArg Host.Outcome.next ((if_neg (ne_true_of_eq_false hrun)).trans (State.wantRecord_busy h))
    · refine ⟨s.setWwr (pageIndex 9 0), congrArg Host.Outcome.next (if_pos hrun), ?_, rfl⟩
      rw [State.setWwr, State.pageRegs_modPage_same]
    · refine congrArg Host.Outcome.next ?_
      unfold State.recordDone
      rw [hbusy]
      exact State.beginRecord_idle hwait
    · obtain ⟨e, h, hr⟩ := State.report_errHost { s with upd := { s.upd with
          recBusy := none, recs := s.upd.recs.set copy none, recSeqs := s.upd.recSeqs.set copy 0 } }
        { err := .recordWrite, detail := copy } rfl rfl rfl
      have hexec : exec (.recordWriteDone false) s = .next { s with errs := e, host := h, upd := { s.upd with
          recBusy := none, recs := s.upd.recs.set copy none, recSeqs := s.upd.recSeqs.set copy 0 } } := by
        refine congrArg Host.Outcome.next ?_
        unfold State.recordDone
        rw [hbusy]
        refine (congrArg State.beginRecord ((if_neg Bool.false_ne_true).trans hr)).trans ?_
        exact State.beginRecord_idle hwait
      exact ⟨_, hexec, rfl, rfl⟩
    · refine congrArg Host.Outcome.next ?_
      unfold State.recordDone
      rw [hbusy]

end Sys2Proof.Machine

/-! ## Requests of a vat, withdrawal of pages, and the common registers of a page (R18, R133, R494 to R497, R557, R583, R595) -/

namespace Sys2Proof.Machine

set_option Elab.async false

/-! ### Requests of a vat -/

section
variable {s : State} {v : Nat}

/-- RUN on a vat that waits for it. -/
theorem State.requestRun_ready (hst : (s.vat v).state = .idle ∨ (s.vat v).state = .service) (hstress : s.stressOn v = false)
    (hready : (s.vat v).refReady = true) : s.requestRun v = if s.tick.running then s.modVat v (fun x => { x with runReq := true })
      else s.modVat v (fun x => { x with state := .run, runReq := false, serviceReq := false, idleReq := false }) := by
  unfold State.requestRun
  refine (if_neg ?_).trans ((if_neg (by simp [hready])).trans (if_pos ⟨hst, by simp [hstress]⟩))
  rcases hst with h | h <;> simp [h]

theorem State.requestRun_notReady (hst : (s.vat v).state ≠ .retired) (hready : (s.vat v).refReady = false) :
    s.requestRun v = s.corrected .refNotReady v none :=
  (if_neg hst).trans (if_pos (by simp [hready]))

section
variable (hst : (s.vat v).state ≠ .retired)
include hst

theorem State.requestDrain_allowed (hfree : s.refused18 = false) : s.requestDrain v =
    if (s.vat v).state = .run then s.modVat v (fun x => { x with state := .draining, idleReq := true }) else s :=
  (if_neg hst).trans (if_neg (ne_true_of_eq_false hfree))

theorem State.requestDrain_refused (hbar : s.refused18 = true) : s.requestDrain v = s.corrected .serviceRefused v none :=
  (if_neg hst).trans (if_pos hbar)

theorem State.requestService_allowed (hfree : s.refused18 = false) : s.requestService v =
    if (s.vat v).state = .idle then s.modVat v (fun x => { x with state := .service, runReq := false })
    else if (s.vat v).state = .run ∨ (s.vat v).state = .draining then
      s.modVat v (fun x => { x with state := .draining, serviceReq := true })
    else s :=
  (if_neg hst).trans (if_neg (ne_true_of_eq_false hfree))

theorem State.requestService_refused (hbar : s.refused18 = true) : s.requestService v = s.corrected .serviceRefused v none :=
  (if_neg hst).trans (if_pos hbar)
end
end

/-! ### Pages withdrawn -/

/-- The withdrawal of a free page. -/
theorem State.retirePageAt_free {s : State} {k : Nat} (h : s.owner k = 0) : ∃ o e x,
    s.retirePageAt k = { s with pageOut := o, errs := e, host := x } ∧ get 0 o k = 1 ∧
      ∀ j, j ≠ k → get 0 o j = get 0 s.pageOut j := by
  unfold State.retirePageAt
  split
  next hout => exact ⟨_, _, _, rfl, beq_iff_eq.1 hout, fun _ _ => rfl⟩
  next =>
    obtain ⟨e, x, hr⟩ := State.report_errHost { s with pageOut := put 0 s.pageOut k 1 }
      { err := .pageWithdrawn, inst := k / stackPages, addr := k * 65536 } rfl rfl rfl
    refine ⟨put 0 s.pageOut k 1, e, x, ?_, get_put_same 0 s.pageOut k 1, fun j hj => get_put_ne 0 s.pageOut 1 (Ne.symm hj)⟩
    exact hr

/-- Settles O43. -/
theorem inServiceChanges : Obligations.InServiceChanges := by
  intro s v st pg x k
  have hgone {t : VatState} (ht : x.state = t) (hne : t ≠ .retired) : (s.vat v.val).state ≠ .retired := ht ▸ hne
  refine ⟨fun hst hstress => ⟨fun hready hrun => ?runLater, fun hready hrun => ?runNow, fun hready => ?notReady⟩,
    fun hfree => ⟨fun hst => ?drain, fun hst => ?service, fun hst => ?drainService, fun hown => ?pageFree, fun hown hin => ?pageOwned,
      ?unretire⟩, fun hbar hst => ⟨?_, ?_, ?_, ?_⟩, fun hst => ⟨?_, ?_, ?_⟩⟩
  case runLater => exact congrArg Host.Outcome.next ((State.requestRun_ready hst hstress hready).trans (if_pos hrun))
  case runNow =>
    exact ⟨_, congrArg Host.Outcome.next ((State.requestRun_ready hst hstress hready).trans (if_neg (ne_true_of_eq_false hrun))),
      by rw [State.vat_modVat_same], rfl⟩
  case notReady =>
    obtain ⟨e, h, hc⟩ := s.corrected_errHost .refNotReady v.val none 0xFFFFFFFF
    have hserve : (s.vat v.val).state ≠ .retired := hst.elim (fun h => hgone h (by decide)) fun h => hgone h (by decide)
    exact ⟨_, congrArg Host.Outcome.next ((State.requestRun_notReady hserve hready).trans hc), rfl⟩
  case drain => exact congrArg Host.Outcome.next ((State.requestDrain_allowed (hgone hst (by decide)) hfree).trans (if_pos hst))
  case service => exact congrArg Host.Outcome.next ((State.requestService_allowed (hgone hst (by decide)) hfree).trans (if_pos hst))
  case drainService =>
    have hserve : (s.vat v.val).state ≠ .retired := hst.elim (fun h => hgone h (by decide)) fun h => hgone h (by decide)
    have hidle : (s.vat v.val).state ≠ .idle := by
      rcases hst with h | h <;> rw [show (s.vat v.val).state = _ from h] <;> decide
    exact congrArg Host.Outcome.next ((State.requestService_allowed hserve hfree).trans ((if_neg hidle).trans (if_pos hst)))
  case pageFree =>
    obtain ⟨o, e, h, hret, hk, hj⟩ := State.retirePageAt_free hown
    exact ⟨_, congrArg Host.Outcome.next ((if_neg (ne_true_of_eq_false hfree)).trans hret), beq_iff_eq.2 hk, hown, hj, rfl⟩
  case pageOwned =>
    have hget := get_put_same 0 s.pageOut k 2
    have hret : s.retirePageAt k = { s with pageOut := put 0 s.pageOut k 2 } :=
      (if_neg (ne_true_of_eq_false hin)).trans (if_neg hown)
    refine ⟨_, congrArg Host.Outcome.next ((if_neg (ne_true_of_eq_false hfree)).trans hret), hget, ?_, rfl⟩
    rw [State.isOut, hget]
    rfl
  case unretire =>
    exact ⟨_, congrArg Host.Outcome.next (if_neg (ne_true_of_eq_false hfree)), get_put_same 0 s.pageOut k 0, fun j hj =>
      get_put_ne 0 s.pageOut 0 (Ne.symm hj), rfl⟩
  · exact congrArg Host.Outcome.next (State.requestDrain_refused hst hbar)
  · exact congrArg Host.Outcome.next (State.requestService_refused hst hbar)
  · exact congrArg Host.Outcome.next (if_pos hbar)
  · exact congrArg Host.Outcome.next (if_pos hbar)
  · exact congrArg Host.Outcome.next (if_pos hst)
  · exact congrArg Host.Outcome.next (if_pos hst)
  · exact congrArg Host.Outcome.next (if_pos hst)

/-! ### Common registers -/

/-- A field's value in the shadows after a write into them. -/
theorem State.pendingOr_putShadow (s : State) (f : Fld) (c v : Nat) : (s.putShadow f c v).pendingOr f c = v := by
  have hold : (s.shadows.filter (fun x => !(x.fld == fldCode f && x.copy == c))).find? (fun x => x.fld == fldCode f && x.copy == c) =
      none := by
    rw [List.find?_eq_none]
    intro x hx
    simpa only [Bool.not_eq_true, Bool.not_eq_eq_eq_not, Bool.not_true] using (List.mem_filter.1 hx).2
  unfold State.pendingOr State.putShadow
  dsimp only
  rw [List.find?_append, hold]
  simp

/-- Settles O44. -/
theorem commonRegisters : Obligations.CommonRegisters := by
  intro s page fn w hpage
  refine ⟨fun hmay => ?clear, fun hmay => congrArg Host.Outcome.next (if_neg fun h => ne_true_of_eq_false hmay h.2),
    fun hdebug => ?inject, fun hdebug => congrArg Host.Outcome.next ((if_pos hpage).trans (if_neg (ne_true_of_eq_false hdebug))), ?latch,
    ?coolant, ?power⟩
  case clear =>
    refine ⟨_, congrArg Host.Outcome.next (if_pos ⟨hpage, hmay⟩), fun h => ?_, fun h h' => ?_, ?_, ?_, ?_, fun q hq => ?_, rfl⟩
    · rw [State.clearPageErr, State.pageRegs_modPage_same]
      exact if_pos h
    · rw [State.clearPageErr, State.pageRegs_modPage_same]
      exact (if_neg (ne_true_of_eq_false h)).trans (if_neg (ne_true_of_eq_false h'))
    · rw [State.clearPageErr, State.pageRegs_modPage_same]
    · rw [State.clearPageErr, State.pageRegs_modPage_same]
    · rw [State.clearPageErr, State.pageRegs_modPage_same]
    · rw [State.clearPageErr, State.pageRegs_modPage, if_neg (Ne.symm hq)]
  case inject =>
    exact ⟨_, congrArg Host.Outcome.next ((if_pos hpage).trans (if_pos hdebug)), by rw [State.pageRegs_modPage_same], rfl⟩
  case latch =>
    let t := s.modPage page (fun r => { r with latchEn := bit w 63, latchTick := bits w 61 0 })
    have hregs : t.pageRegs page = { s.pageRegs page with latchEn := bit w 63, latchTick := bits w 61 0 } :=
      s.pageRegs_modPage_same page _
    have hexec : exec (.pageLatch page w) s = .next { t with
        shadows := if bit w 62 then s.shadows.filter (fun x => x.page != page) else s.shadows } := by
      refine congrArg Host.Outcome.next ((if_pos hpage).trans ?_)
      unfold State.writeLatch
      dsimp only
      split <;> rfl
    exact ⟨_, hexec, congrArg PageRegs.latchEn hregs, congrArg PageRegs.latchTick hregs, rfl, rfl⟩
  case coolant => exact ⟨_, congrArg Host.Outcome.next (if_pos rfl), s.pendingOr_putShadow .coolantIn 0 (w % 4096), rfl, rfl⟩
  case power =>
    exact ⟨_, congrArg Host.Outcome.next (if_neg Bool.false_ne_true), s.pendingOr_putShadow .pwrLimit 0 w, rfl, rfl⟩

end Sys2Proof.Machine

/-! ## Host register writes, DECK_OPEN and the ring enables (R395 to R398, R558, R596, R597) -/

namespace Sys2Proof.Machine

set_option Elab.async false

/-! ### A write and its register -/

theorem pageOf_vatPage : ∀ (kind : Fin 5) (v : Fin 64), pageOf (pageIndex (0x13 + kind.val) v.val) = some (0x13 + kind.val, v.val) := by
  decide

/-- A write of 8 bytes carries its whole word. -/
theorem regWrite_long {p r w : Nat} (hr : r < 4096) (h8 : r % 8 = 0) :
    regWrite (4096 * p + r) 8 w = some { reg := r, low := true, high := true, word := w % 2 ^ 64 } := by
  unfold regWrite
  rw [if_pos ⟨rfl, by omega⟩, show (4096 * p + r) % 4096 / 8 * 8 = r by omega]

/-- A write of 4 bytes carries the low half of its register. -/
theorem regWrite_short {p r w : Nat} (hr : r < 4096) (h8 : r % 8 = 0) :
    regWrite (4096 * p + r) 4 w = some { reg := r, low := true, high := false, word := w % 2 ^ 32 } := by
  unfold regWrite
  rw [if_neg (by omega), if_pos ⟨rfl, by omega⟩, show (4096 * p + r) % 4096 / 8 * 8 = r by omega]

theorem regWrite_none {off size w : Nat} (h : (size ≠ 4 ∧ size ≠ 8) ∨ off % 4 ≠ 0 ∨ (size = 8 ∧ off % 8 ≠ 0)) :
    regWrite off size w = none := by
  unfold regWrite
  rw [if_neg (by omega), if_neg (by omega), if_neg (by omega)]

theorem execRegisterWrite_none {s : State} {fn : Fin 17} {off size w : Nat} (h : regWrite off size w = none) :
    exec (.registerWrite fn off size w) s = .next s := by
  refine congrArg Host.Outcome.next ?_
  split
  · rfl
  · rw [h]

theorem execRegisterWrite_pf {s : State} {off size w : Nat} {x : RegWrite} (hreach : s.reaches 0 = true)
    (h : regWrite off size w = some x) : exec (.registerWrite 0 off size w) s = .next (s.writePf off x) := by
  refine congrArg Host.Outcome.next ((if_neg (by simp [hreach])).trans ?_)
  rw [h]
  rfl

/-- The PF's write to a vat page's fields. -/
theorem State.writePf_vat {s : State} {kind : Fin 5} {v : Fin 64} {x : RegWrite} (hreg : x.reg = 0x100) (hkind : kind.val < 3) :
    s.writePf (4096 * pageIndex (0x13 + kind.val) v.val + 0x100) x = s.writeFields (0x13 + kind.val) v.val x (fun _ => true) := by
  unfold State.writePf
  rw [show (4096 * pageIndex (0x13 + kind.val) v.val + 0x100) / 4096 = pageIndex (0x13 + kind.val) v.val by omega, pageOf_vatPage]
  dsimp only
  rw [if_neg (by omega), if_neg (by omega), if_neg (by omega), if_neg (by omega), if_pos (by omega)]
  unfold State.writeVatPage
  rw [if_neg (by omega), if_neg (by omega), if_neg (by omega), if_neg (by omega)]

/-- A register with one field in reach of the write. -/
theorem State.writeFields_one {s : State} {kind inst : Nat} {x : RegWrite} {f : Fld}
    (h : allFlds.filter (fun f => (fldInfo f).kind == kind && (fldInfo f).off == x.reg && true &&
      carries x (fldInfo f).hi (fldInfo f).lo) = [f]) (hc : s.copyOf f inst = inst) :
    s.writeFields kind inst x (fun _ => true) = s.writeField f inst (s.fieldValue x f inst) := by
  unfold State.writeFields
  rw [h, List.foldl_cons, List.foldl_nil, hc]

theorem fields_repairRes (w : Nat) : allFlds.filter (fun f => (fldInfo f).kind == 0x14 && (fldInfo f).off == 0x100 && true &&
    carries { reg := 0x100, low := true, high := true, word := w } (fldInfo f).hi (fldInfo f).lo) = [.repairRes] := rfl

theorem fields_ownerSel (w : Nat) : allFlds.filter (fun f => (fldInfo f).kind == 0x12 && (fldInfo f).off == 0x120 && true &&
    carries { reg := 0x120, low := true, high := false, word := w } (fldInfo f).hi (fldInfo f).lo) = [.ownerSel] := rfl

theorem fields_surgeLim (w : Nat) : allFlds.filter (fun f => (fldInfo f).kind == 0x13 && (fldInfo f).off == 0x100 && true &&
    carries { reg := 0x100, low := true, high := false, word := w } (fldInfo f).hi (fldInfo f).lo) = [.surgeLim] := rfl

/-- The value of a field at bit 0 that a whole write gives. -/
theorem bits_merged_long {w cur hi : Nat} (hhi : hi < 32) :
    bits (merged { reg := 0x100, low := true, high := true, word := w % 2 ^ 64 } cur) hi 0 = w % 2 ^ (hi + 1) := by
  have hm : merged { reg := 0x100, low := true, high := true, word := w % 2 ^ 64 } cur = w % 2 ^ 64 := by
    unfold merged
    simp only [if_true]
    omega
  rw [hm, bits, pow_zero, Nat.div_one, Nat.sub_zero]
  exact Nat.mod_mod_of_dvd _ (pow_dvd_pow 2 (by omega))

theorem bits_merged_short {r w cur hi : Nat} (hhi : hi < 32) :
    bits (merged { reg := r, low := true, high := false, word := w % 2 ^ 32 } cur) hi 0 = w % 2 ^ (hi + 1) := by
  have hdvd : 2 ^ (hi + 1) ∣ 2 ^ 32 := pow_dvd_pow 2 (by omega)
  have hm : merged { reg := r, low := true, high := false, word := w % 2 ^ 32 } cur =
      w % 2 ^ 32 + cur / 2 ^ 32 % 2 ^ 32 * 2 ^ 32 := by
    unfold merged
    simp
  rw [hm, bits, pow_zero, Nat.div_one, Nat.sub_zero, Nat.add_mod, Nat.mod_mod_of_dvd _ hdvd,
    (Nat.dvd_iff_mod_eq_zero).1 (dvd_mul_of_dvd_right hdvd _)]
  simp

section
variable (s : State) (x : RegWrite) (c n : Nat)

theorem State.fieldValue_eq {f : Fld} (hf : f ≠ .accAllot) {hi : Nat} (hhi : (fldInfo f).hi = hi) (hlo : (fldInfo f).lo = 0) :
    s.fieldValue x f c = bits (merged x (s.pendingOr f c * 2 ^ 0)) hi 0 := by
  rw [State.fieldValue, fieldBits, if_neg hf, hhi, hlo]

theorem State.writeField_repairRes : s.writeField .repairRes c n = s.putShadow .repairRes c n := rfl
theorem State.writeField_ownerSel : s.writeField .ownerSel c n = s.setReg .ownerSel c n := rfl
theorem State.writeField_surgeLim : s.writeField .surgeLim c n =
    if (s.vat c).state == .run then s.setWwr (pageIndex 0x13 c) else s.putField .surgeLim c n := rfl

theorem State.writePf_mem (h : x.reg = 0x120) :
    s.writePf (4096 * pageIndex 0x12 0 + 0x120) x = s.writeFields 0x12 0 x (fun _ => true) := by
  have hpage : pageOf ((4096 * pageIndex 0x12 0 + 0x120) / 4096) = some (0x12, 0) := by decide
  unfold State.writePf
  rw [hpage]
  dsimp only
  rw [if_neg (by omega), if_neg (by decide), if_neg (by decide), if_pos rfl, State.writeMemPage, if_neg (by omega)]

theorem State.writeVf_sess (d : Nat) (h : x.reg = 0x100) : s.writeVf (d + 1) 0x100 x = s.corrected .vfWriteRo d (some d) := by
  obtain ⟨reg, low, high, word⟩ := x
  cases h
  rfl
end

section
variable {s : State} (v : Fin 64) (w : Nat) (hreach : s.reaches 0 = true)
include hreach

theorem write_repairRes : exec (.registerWrite 0 (4096 * pageIndex 0x14 v.val + 0x100) 8 w) s =
    .next (s.putShadow .repairRes v.val (w % 256)) := by
  rw [execRegisterWrite_pf hreach (regWrite_long (by decide) (by decide))]
  refine congrArg Host.Outcome.next ((State.writePf_vat (kind := 1) (v := v) rfl (by decide)).trans ?_)
  rw [State.writeFields_one (f := .repairRes) (fields_repairRes _) rfl, State.writeField_repairRes,
    State.fieldValue_eq (hi := 7) _ _ _ (by decide) rfl rfl, bits_merged_long (by decide)]
  norm_num

theorem write_ownerSel : exec (.registerWrite 0 (4096 * pageIndex 0x12 0 + 0x120) 4 w) s =
    .next (s.setReg .ownerSel 0 (w % 2 ^ 20)) := by
  rw [execRegisterWrite_pf hreach (regWrite_short (by decide) (by decide)), State.writePf_mem _ _ rfl,
    State.writeFields_one (f := .ownerSel) (fields_ownerSel _) rfl, State.writeField_ownerSel,
    State.fieldValue_eq (hi := 19) _ _ _ (by decide) rfl rfl, bits_merged_short (by decide)]

theorem write_surgeLim : exec (.registerWrite 0 (4096 * pageIndex 0x13 v.val + 0x100) 4 w) s =
    .next (if (s.vat v.val).state == .run then s.setWwr (pageIndex 0x13 v.val) else s.putField .surgeLim v.val (w % 256)) := by
  rw [execRegisterWrite_pf hreach (regWrite_short (by decide) (by decide))]
  refine congrArg Host.Outcome.next ((State.writePf_vat (kind := 0) (v := v) rfl (by decide)).trans ?_)
  rw [State.writeFields_one (f := .surgeLim) (fields_surgeLim _) rfl, State.writeField_surgeLim,
    State.fieldValue_eq (hi := 7) _ _ _ (by decide) rfl rfl, bits_merged_short (by decide)]
  norm_num
end

/-- A VF's write of DECK_SESS, which only the PF may write. -/
theorem write_vfReadOnly {s : State} (d : Fin 16) (w : Nat) (hreach : s.reaches (d.val + 1) = true) :
    exec (.registerWrite ⟨d.val + 1, by omega⟩ 0x100 8 w) s = .next (s.corrected .vfWriteRo d.val (some d.val)) := by
  have hw : regWrite 0x100 8 w = some { reg := 0x100, low := true, high := true, word := w % 2 ^ 64 } :=
    regWrite_long (p := 0) (r := 0x100) (by decide) (by decide)
  refine congrArg Host.Outcome.next ((if_neg (by simp [hreach])).trans ?_)
  rw [hw]
  exact (if_neg (Nat.succ_ne_zero _)).trans (State.writeVf_sess _ _ _ rfl)

/-- Settles O45. -/
theorem registersAndDeckles : Obligations.RegistersAndDeckles := by
  intro s v d fn off size w
  refine ⟨fun hreach => congrArg Host.Outcome.next (if_pos (by simp [hreach])),
    fun h4 h8 => execRegisterWrite_none (regWrite_none (.inl ⟨h4, h8⟩)), fun h => execRegisterWrite_none (regWrite_none (.inr h)),
    fun hreach => ⟨write_repairRes v w hreach, write_ownerSel w hreach, fun hrun => ?locked, fun hrun hlo hhi => ?surge⟩,
    fun hreach => write_vfReadOnly d w hreach,
    fun entropy hn => congrArg Host.Outcome.next ((if_pos rfl).trans (if_neg hn)),
    fun entropy hn => congrArg Host.Outcome.next ((if_neg Bool.false_ne_true).trans (if_neg (by simp [hn]))),
    fun entropy hn => congrArg Host.Outcome.next ((if_neg Bool.false_ne_true).trans (if_pos (by simp [hn]))),
    fun hfn => ⟨congrArg Host.Outcome.next ((if_pos hfn).trans (if_pos rfl)), congrArg Host.Outcome.next ((if_pos hfn).trans (if_pos rfl)),
      fun h1 h2 h3 h4 h5 => ?cq, fun h1 h2 h3 h4 h5 h6 => ?sq, fun h1 => ?closed⟩,
    fun hfn => ⟨congrArg Host.Outcome.next (if_neg (ne_true_of_eq_false hfn)),
      congrArg Host.Outcome.next (if_neg (ne_true_of_eq_false hfn))⟩⟩
  case locked => rw [write_surgeLim v w hreach, if_pos (by simp [hrun])]
  case surge =>
    have hverdict : s.verdict .surgeLim v.val (w % 256) = .ok := if_neg (by omega)
    rw [write_surgeLim v w hreach, if_neg (by simp [hrun]), State.putField, hverdict]
  case cq => exact congrArg Host.Outcome.next ((if_pos hfn).trans ((if_neg (by decide)).trans (if_neg (by simp [h1, h2, h3, h4, h5]))))
  case sq =>
    refine ⟨_, congrArg Host.Outcome.next ((if_pos hfn).trans ((if_neg (by decide)).trans ((if_neg (by simp [h1, h2, h3, h4, h5])).trans
      (if_neg (not_not.2 h6))))), ?_, ?_, rfl⟩
    · exact State.reg_setReg_same (s := s) .sqEn d.val 1
    · rw [State.deckle_modDeckle_same]
  case closed => exact congrArg Host.Outcome.next ((if_pos hfn).trans ((if_neg (by decide)).trans (if_pos (.inl (by simp [h1])))))

end Sys2Proof.Machine

/-! ## Field update: what a session shows, how a write begins and how it fails (R475 to R481) -/

namespace Sys2Proof.Machine

set_option Elab.async false

section
variable {s t u : State}

/-! ### Results -/

/-- The update unit's records, with the outcome UPD_STS shows. -/
def State.shows (s : State) (result cause : Nat) : State :=
  { s with upd := { s.upd with result := result, cause := cause } }

/-- The outcome of a session that ended well reaches the PF as an interrupt alone. -/
theorem State.updResult_none (s : State) (c d : Nat) : ∃ h, s.updResult none c d = { s.shows 0 0 with host := h } := by
  rw [State.updResult, ← State.shows]
  obtain ⟨_, _, _, h⟩ := (s.shows 0 0).pfVector_sends 1
  exact ⟨_, h⟩

/-- A failed outcome is an error of the update page. -/
theorem State.updResult_some (s : State) (e : Err) (c d : Nat) :
    ErrHost (s.shows (errCode e) c) (s.updResult (some e) c d) := by
  rw [State.updResult, State.shows]
  exact State.route_errHost ..

/-! ### Writes that end -/

/-- The update unit after a write that was given up, before its outcome shows. -/
def State.givesUp (s : State) : State :=
  let t := s.setFlash s.upd.kind (s.spareFlash s.upd.kind) { state := .invalid }
  { t with upd := { t.upd with state := .idle, session := s.upd.pldm, buffer := []
                               pldmState := if s.upd.pldm then 2 else 0 } }

theorem State.writeFails_eq (s : State) (e : Option Err) (c : Nat) :
    s.writeFails e c = s.givesUp.updResult e c s.upd.kind := rfl

/-- A write that failed, as its records and the error page show it. -/
theorem State.writeFails_some (s : State) (e : Err) (c : Nat) :
    ErrHost (s.givesUp.shows (errCode e) c) (s.writeFails (some e) c) :=
  s.givesUp.updResult_some e c s.upd.kind

theorem State.writeFails_none (s : State) (c : Nat) : ∃ h, s.writeFails none c = { s.givesUp.shows 0 0 with host := h } :=
  s.givesUp.updResult_none c s.upd.kind

/-- The slot of a write that was given up is INVALID. -/
theorem State.givesUp_slot (s : State) :
    s.givesUp.flashSlot s.upd.kind (s.spareFlash s.upd.kind) = { state := .invalid } := by
  rw [State.givesUp, State.setFlash, State.flashSlot]
  dsimp only
  rw [get_put_same]

/-! ### Writes that begin -/

theorem State.beginWrite_slot (s : State) (k n : Nat) (e : Bytes) :
    (s.beginWrite k n e).flashSlot k (s.spareFlash k) = { state := .writing } := by
  rw [State.beginWrite, State.setFlash, State.flashSlot]
  dsimp only
  rw [get_put_same]

theorem State.allBytes_all (hr : s.upd.state = .receiving) (h : s.upd.len ≤ s.upd.bytes) :
    s.allBytes = { s with upd := { s.upd with state := .verifying, buffer := [] } } :=
  if_pos ⟨hr, h⟩

theorem State.allBytes_part (h : s.upd.state ≠ .receiving ∨ s.upd.bytes < s.upd.len) : s.allBytes = s :=
  if_neg fun ⟨hr, hlen⟩ => h.elim (· hr) (Nat.not_lt.2 hlen)

/-! ### Owner commands -/

/-- A refused owner command shows in SEC_STS and as an error. -/
theorem State.ownerDenied_errHost (s : State) :
    ErrHost { s with sec := { s.sec with lastCmd := 2 } } s.ownerDenied :=
  State.corrected_errHost ..

theorem State.ownerDenied_sec (s : State) : s.ownerDenied.sec = { s.sec with lastCmd := 2 } := by
  obtain ⟨_, _, h⟩ := s.ownerDenied_errHost
  rw [h]

theorem State.ownerDenied_upd (s : State) : s.ownerDenied.upd = s.upd := by
  obtain ⟨_, _, h⟩ := s.ownerDenied_errHost
  rw [h]

section
variable {b : Bytes} {op : Nat} {act : Bytes → Sec → Sec}

theorem State.ownerCommand_other (h1 : 1 ≤ ocOp b) (h6 : ocOp b ≤ 6) (hop : ocOp b ≠ op) :
    s.ownerCommand (.data b) op act = s :=
  if_pos ⟨h1, h6, hop⟩

theorem State.ownerCommand_unknown (hop : 1 ≤ op ∧ op ≤ 6) (h : ocOp b = 0 ∨ 6 < ocOp b) :
    s.ownerCommand (.data b) op act = s.ownerDenied :=
  (if_neg (by omega)).trans (if_pos (.inl (by omega)))

theorem State.ownerCommand_denied (hop : ocOp b = op)
    (h : ownerFormat b = false ∨ (s.ownerFree b = false ∧ s.ownerSigned b = false)) :
    s.ownerCommand (.data b) op act = s.ownerDenied :=
  (if_neg (fun g => g.2.2 hop)).trans (if_pos (.inr (h.imp (by simp [·]) fun ⟨hf, hs⟩ => by simp [hf, hs])))

theorem State.ownerCommand_free (hop : ocOp b = op) (hf : ownerFormat b = true) (h : s.ownerFree b = true) :
    s.ownerCommand (.data b) op act = { s with sec := { act b s.sec with lastCmd := 1 } } :=
  (if_neg (fun g => g.2.2 hop)).trans ((if_neg (by simp [hop, hf, h])).trans (by rw [if_pos h]))

theorem State.ownerCommand_signed (hop : ocOp b = op) (hf : ownerFormat b = true) (h : s.ownerFree b = false)
    (hs : s.ownerSigned b = true) :
    s.ownerCommand (.data b) op act = { s with sec := { act b { s.sec with nonce := none } with lastCmd := 1 } } :=
  (if_neg (fun g => g.2.2 hop)).trans ((if_neg (by simp [hop, hf, h, hs])).trans (by rw [if_neg (by simp [h])]))

end

theorem State.ownerFree_iff (b : Bytes) : s.ownerFree b = true ↔ (ocOp b = 1 ∧ s.sec.owners = []) ∨ ocOp b = 5 := by
  simp [State.ownerFree]

/-- What a signature vouches for: the current nonce, and a key of a set slot over the command. -/
theorem State.ownerSigned_checks {b : Bytes} (h : s.ownerSigned b = true) : s.sec.nonce = some (ocNonce b) ∧
    ecdsaVerify (get [] s.sec.owners (ocSigner b)) (sha384 (b.take 0x98)) (ocSig b) = true := by
  unfold State.ownerSigned at h
  obtain ⟨h, hnonce⟩ := Bool.and_eq_true_iff.1 h
  refine ⟨eq_of_beq hnonce, ?_⟩
  have hkey := (Bool.and_eq_true_iff.1 h).2
  revert hkey
  cases get [] s.sec.owners (ocSigner b) with
  | nil => exact fun h => absurd h Bool.false_ne_true
  | cons x l => exact id

/-- LOCK ends no write where none runs. -/
theorem State.lockEnds_idle (h : s.upd.writing = false) : s.lockEnds = s :=
  if_neg (by simp [h])

theorem State.lockEnds_writing (hw : s.upd.writing = true) (hl : s.sec.locked = true) :
    s.lockEnds = s.writeFails (some .updRefused) 4 :=
  if_pos ⟨hw, hl⟩

theorem beBytes_length (n v : Nat) : (beBytes n v).length = n :=
  List.length_reverse.trans (leBytes_length n v)

/-- The rows of the owner commands: what each carries out, denies and leaves to another operation. -/
theorem State.ownerRow {c : HostRead → Instr} {op : Nat} {act : Bytes → Sec → Sec} {b : Bytes} (hop : 1 ≤ op ∧ op ≤ 6)
    (hc : ∀ r, exec (c r) s = .next (s.ownerCommand r op act)) :
    (ocOp b = op → ownerFormat b = true → s.ownerFree b = true →
      exec (c (.data b)) s = .next { s with sec := { act b s.sec with lastCmd := 1 } }) ∧
    (ocOp b = op → ownerFormat b = true → s.ownerFree b = false → s.ownerSigned b = true →
      exec (c (.data b)) s = .next { s with sec := { act b { s.sec with nonce := none } with lastCmd := 1 } }) ∧
    (ocOp b = op → ownerFormat b = false ∨ (s.ownerFree b = false ∧ s.ownerSigned b = false) →
      exec (c (.data b)) s = .next s.ownerDenied) ∧
    (1 ≤ ocOp b → ocOp b ≤ 6 → ocOp b ≠ op → exec (c (.data b)) s = .next s) ∧
    (ocOp b = 0 ∨ 6 < ocOp b → exec (c (.data b)) s = .next s.ownerDenied) ∧
    exec (c .fail) s = .next s.ownerDenied ∧ exec (c .late) s = .next s := by
  simp only [hc]
  exact ⟨fun h hf hfree => congrArg _ (State.ownerCommand_free h hf hfree),
    fun h hf hfree hs => congrArg _ (State.ownerCommand_signed h hf hfree hs),
    fun h hd => congrArg _ (State.ownerCommand_denied h hd),
    fun h1 h6 h => congrArg _ (State.ownerCommand_other h1 h6 h),
    fun h => congrArg _ (State.ownerCommand_unknown hop h), rfl, rfl⟩

/-- Without a write to end, LOCK is an owner command as the others are. -/
theorem execLock_idle (h : s.upd.writing = false) (r : HostRead) :
    exec (.lock r) s = .next (s.ownerCommand r 5 (fun _ x => { x with locked := true })) := by
  refine congrArg Host.Outcome.next (State.lockEnds_idle ?_)
  have hdenied : s.ownerDenied.upd.writing = false := by rw [s.ownerDenied_upd, h]
  unfold State.ownerCommand
  split
  · exact h
  · exact hdenied
  · split
    · exact h
    · split
      · exact hdenied
      · exact h

end

/-- Settles O53: each owner command through the one rule of its row, LOCK with the write it ends. -/
theorem ownerCommands : Obligations.OwnerCommands := by
  unfold Obligations.OwnerCommands
  intro s b row
  refine ⟨State.ownerRow (op := 1) (act := fun b x => { x with owners := put [] x.owners (ocSlot b) (ocKey b) })
      (by decide) fun _ => rfl,
    State.ownerRow (op := 2) (act := fun b x => { x with owners := put [] x.owners (ocSlot b) [] }) (by decide) fun _ => rfl,
    State.ownerRow (op := 3) (act := fun _ x => { x with reqSig := true }) (by decide) fun _ => rfl,
    State.ownerRow (op := 4) (act := fun _ x => { x with reqSig := false }) (by decide) fun _ => rfl,
    fun h => State.ownerRow (op := 5) (act := fun _ x => { x with locked := true }) (by decide) (execLock_idle h),
    fun hw hop hf => ?ends,
    State.ownerRow (op := 6) (act := fun _ x => { x with locked := false }) (by decide) fun _ => rfl,
    s.ownerDenied_sec, ?denied, (s.ownerFree_iff b).1, s.ownerSigned_checks, ?challenge, rfl⟩
  case ends =>
    obtain ⟨t, ht⟩ : ∃ t, t = { s with sec := { s.sec with locked := true, lastCmd := 1 } } := ⟨_, rfl⟩
    have hrun : s.ownerCommand (.data b) 5 (fun _ x => { x with locked := true }) = t :=
      (State.ownerCommand_free hop hf ((s.ownerFree_iff b).2 (.inr hop))).trans ht.symm
    have hfail : (s.ownerCommand (.data b) 5 (fun _ x => { x with locked := true })).lockEnds =
        t.writeFails (some .updRefused) 4 := by
      rw [hrun]
      subst ht
      exact State.lockEnds_writing hw rfl
    obtain ⟨e, h, hres⟩ := t.writeFails_some .updRefused 4
    have hslot := t.givesUp_slot
    refine ⟨_, congrArg Host.Outcome.next (hfail.trans hres), ?_⟩
    subst ht
    exact ⟨rfl, rfl, rfl, rfl, hslot, rfl, rfl⟩
  case denied =>
    obtain ⟨_, _, h⟩ := s.ownerDenied_errHost
    rw [h]
  case challenge =>
    exact ⟨_, rfl, ⟨_, beBytes_length 48 _, rfl⟩, rfl⟩

end Sys2Proof.Machine

/-! ## Commands of the update page, the bytes of an image and PLDM (R469 to R481) -/

namespace Sys2Proof.Machine

set_option Elab.async false

section
variable {s : State} {c : Instr} {e : Err} {cause d : Nat}

/-! ### UPD_CMD -/

theorem State.cmdTaken_reg (s : State) : s.cmdTaken.reg .imgOp = 0 := s.reg_setReg_same _ _ _

theorem State.cmdTaken_upd (s : State) : s.cmdTaken.upd = s.upd := rfl

theorem State.cmdTaken_frame (s : State) : s.cmdTaken = { s with regs := s.cmdTaken.regs } := rfl

/-- A command that is refused shows its outcome and touches no image. -/
theorem State.cmdTaken_refused (h : exec c s = .next (s.cmdTaken.updResult (some e) cause d)) :
    NextIs (exec c s) (fun t => t.reg .imgOp = 0 ∧ t.upd = { s.upd with result := errCode e, cause := cause } ∧
      t = { s with regs := t.regs, upd := t.upd, errs := t.errs, host := t.host }) := by
  obtain ⟨_, _, ht⟩ := s.cmdTaken.updResult_some e cause d
  exact ⟨_, h.trans (congrArg _ ht), s.cmdTaken_reg, rfl, rfl⟩

/-- A write that begins with no byte to come is complete at once. -/
theorem State.beginWrite_allBytes (s : State) (k len : Nat) (expect : Bytes) :
    ∃ st, st = (if len = 0 then UpdState.verifying else .receiving) ∧
      (s.beginWrite k len expect).allBytes = { s.beginWrite k len expect with upd := { (s.beginWrite k len expect).upd with
        state := st } } := by
  obtain ⟨t, ht⟩ : ∃ t, t = s.beginWrite k len expect := ⟨_, rfl⟩
  have hstate : t.upd.state = .receiving := by rw [ht]; rfl
  have hbytes : t.upd.bytes = 0 := by rw [ht]; rfl
  have hlen : t.upd.len = len := by rw [ht]; rfl
  have hbuf : t.upd.buffer = [] := by rw [ht]; rfl
  rw [← ht]
  refine ⟨_, rfl, ?_⟩
  by_cases h : len = 0
  · rw [if_pos h, State.allBytes_all hstate (by omega), ← hbuf]
  · rw [if_neg h, State.allBytes_part (.inr (by omega)), ← hstate]

/-- A write touches the flash slot that holds no active image and no other. -/
theorem State.beginWrite_otherSlot (s : State) (k len : Nat) (expect : Bytes) {j : Nat} (h : j ≠ k * 2 + s.spareFlash k) :
    get {} (s.beginWrite k len expect).upd.flash j = get {} s.upd.flash j := by
  rw [State.beginWrite, State.setFlash]
  dsimp only
  rw [get_put_ne _ _ _ (Ne.symm h)]

/-! ### WRITE -/

theorem execWrite_busy (hop : s.reg .imgOp = 1) (h : s.upd.session = true ∨ s.upd.state ≠ .idle) :
    exec .write s = .next (s.cmdTaken.updResult (some .updBusy) 0 (s.reg .imgKind)) :=
  congrArg Host.Outcome.next ((if_neg (not_not.2 hop)).trans (if_pos h))

theorem execWrite_cause (hop : s.reg .imgOp = 1) (h : ¬(s.upd.session = true ∨ s.upd.state ≠ .idle))
    (hc : s.updCause ≠ 0) :
    exec .write s = .next (s.cmdTaken.updResult (some .updRefused) s.updCause (s.reg .imgKind)) :=
  congrArg Host.Outcome.next ((if_neg (not_not.2 hop)).trans ((if_neg h).trans (if_pos hc)))

theorem execWrite_kind (hop : s.reg .imgOp = 1) (h : ¬(s.upd.session = true ∨ s.upd.state ≠ .idle))
    (hc : s.updCause = 0) (hk : s.reg .imgKind = 0 ∨ 7 < s.reg .imgKind) :
    exec .write s = .next (s.cmdTaken.updResult (some .imgFormat) 0 (s.reg .imgKind)) :=
  congrArg Host.Outcome.next ((if_neg (not_not.2 hop)).trans ((if_neg h).trans ((if_neg (not_not.2 hc)).trans (if_pos hk))))

theorem execWrite_begins (hop : s.reg .imgOp = 1) (h : ¬(s.upd.session = true ∨ s.upd.state ≠ .idle))
    (hc : s.updCause = 0) (hk : ¬(s.reg .imgKind = 0 ∨ 7 < s.reg .imgKind)) :
    exec .write s = .next (s.cmdTaken.beginWrite (s.reg .imgKind) (s.reg .updLen) s.updExpect).allBytes :=
  congrArg Host.Outcome.next ((if_neg (not_not.2 hop)).trans ((if_neg h).trans ((if_neg (not_not.2 hc)).trans (if_neg hk))))

/-! ### ACTIVATE -/

theorem execActivate_busy (hop : s.reg .imgOp = 2) (h : s.upd.session = true ∨ s.upd.state ≠ .idle) :
    exec .activate s = .next (s.cmdTaken.updResult (some .updBusy) 0 0) :=
  congrArg Host.Outcome.next ((if_neg (not_not.2 hop)).trans (if_pos h))

theorem execActivate_free (hop : s.reg .imgOp = 2) (h : ¬(s.upd.session = true ∨ s.upd.state ≠ .idle)) :
    exec .activate s = .next (s.cmdTaken.beginActivate ((maskBits 7 (s.reg .imgMask)).map (· + 1))) :=
  congrArg Host.Outcome.next ((if_neg (not_not.2 hop)).trans (if_neg h))

theorem State.beginActivate_refused (ks : List Nat) (h : s.updCause ≠ 0) :
    s.beginActivate ks = s.updResult (some .updRefused) s.updCause 0 := if_pos h

theorem State.beginActivate_missing {ks : List Nat} (h : s.updCause = 0) (hn : s.named ks = none) :
    s.beginActivate ks = s.updResult (some .notStaged) 0 0 := by
  rw [State.beginActivate, if_neg (not_not.2 h), hn]

theorem State.beginActivate_begins {ks order : List Nat} {l : List ImgRec} (h : s.updCause = 0) (hn : s.named ks = some l)
    (hstop : l.any s.needsStop = false)
    (ho : fixOrder (fun k => (s.inactiveSlot k).map (fun c => c.image)) 8 ks s.upd.active [] = some order) :
    s.beginActivate ks =
      { s with upd := { s.upd with state := .activating, session := true, order := order, cause := 0 } } := by
  rw [State.beginActivate, if_neg (not_not.2 h), hn]
  dsimp only
  rw [if_neg (by rw [hstop]; exact Bool.false_ne_true), ho]

/-! ### CANCEL -/

theorem execUpdCancel_op (hop : s.reg .imgOp = 3) : exec .updCancel s = .next s.cmdTaken.updCancel :=
  congrArg Host.Outcome.next (if_neg (not_not.2 hop))

theorem State.updCancel_writing (h : s.upd.writing = true) : s.updCancel = (s.writeFails none 0).endUpdate := if_pos h

theorem State.updCancel_activating (h : s.upd.state = .activating) :
    s.updCancel = s.endUpdate.updResult (some .actDeferred) 0 0 := by
  have hw : s.upd.writing = false := by rw [Update.writing, h]; rfl
  exact (if_neg (ne_true_of_eq_false hw)).trans (if_pos h)

end

/-- Settles O56: the branches of UPD_CMD, each refusal by the one rule for refusals. -/
theorem updateCommands : Obligations.UpdateCommands := by
  unfold Obligations.UpdateCommands
  intro s k ks busy refused
  refine ⟨fun hop h => State.cmdTaken_refused (execWrite_busy hop h),
    fun hop h hc => State.cmdTaken_refused (execWrite_cause hop h hc),
    fun hop h hc hk => State.cmdTaken_refused (execWrite_kind hop h hc hk),
    fun hop h hc h1 h7 => ?begins, fun hop => congrArg _ (if_pos hop),
    fun hop h => State.cmdTaken_refused (execActivate_busy hop h),
    fun hop h hc => State.cmdTaken_refused ((execActivate_free hop h).trans (congrArg _ (State.beginActivate_refused _ hc))),
    fun hop h hc hn => State.cmdTaken_refused ((execActivate_free hop h).trans
      (congrArg _ (State.beginActivate_missing hc hn))),
    fun l order hop h hc hn hstop ho => ?activates, fun hop => congrArg _ (if_pos hop), fun hop hw => ?cancels,
    fun hop hstate => ?defers,
    fun hop => congrArg _ (if_pos hop)⟩
  case begins =>
    have hexec := execWrite_begins hop h hc (not_or.2 ⟨by omega, by omega⟩)
    obtain ⟨st, hst, hb⟩ := s.cmdTaken.beginWrite_allBytes k (s.reg .updLen) s.updExpect
    have hslot := s.cmdTaken.beginWrite_slot k (s.reg .updLen) s.updExpect
    exact ⟨_, hexec.trans (congrArg _ hb), s.cmdTaken_reg, hst, rfl, rfl, rfl, rfl, hslot,
      fun j hj => s.cmdTaken.beginWrite_otherSlot k (s.reg .updLen) s.updExpect hj, rfl, rfl, rfl⟩
  case activates =>
    have hexec := (execActivate_free hop h).trans
      (congrArg _ (State.beginActivate_begins (s := s.cmdTaken) hc hn hstop ho))
    exact ⟨_, hexec, s.cmdTaken_reg, rfl, rfl⟩
  case cancels =>
    obtain ⟨_, ht⟩ := s.cmdTaken.writeFails_none 0
    have hexec := (execUpdCancel_op hop).trans (congrArg _ ((State.updCancel_writing (s := s.cmdTaken) hw).trans
      (congrArg State.endUpdate ht)))
    exact ⟨_, hexec, s.cmdTaken_reg, rfl, rfl, rfl, s.cmdTaken.givesUp_slot, rfl, rfl⟩
  case defers =>
    obtain ⟨_, _, ht⟩ := s.cmdTaken.endUpdate.updResult_some .actDeferred 0 0
    have hexec := (execUpdCancel_op hop).trans (congrArg _ ((State.updCancel_activating (s := s.cmdTaken) hstate).trans ht))
    exact ⟨_, hexec, rfl, rfl, rfl, rfl, rfl, rfl, rfl⟩

end Sys2Proof.Machine

/-! ## The bytes of an image, its verification, and PLDM (R469, R475 to R481) -/

namespace Sys2Proof.Machine

set_option Elab.async false

section
variable {s : State} {c : Instr} {e : Err} {cause : Nat} {img : ImageIn} {r : ImgRec}

/-- A write that was given up leaves the images on the chip, and all but the update unit. -/
theorem State.givesUp_leaves (s : State) : s.givesUp.upd.state = .idle ∧ s.givesUp.upd.session = s.upd.pldm ∧
    s.givesUp.upd.active = s.upd.active ∧ s.givesUp.upd.inactive = s.upd.inactive ∧
    s.givesUp = { s with upd := s.givesUp.upd } :=
  ⟨rfl, rfl, rfl, rfl, rfl⟩

/-- A write that fails shows its code and leaves an INVALID slot, and no image on the chip changes. -/
theorem State.writeFails_shows (h : exec c s = .next (s.writeFails (some e) cause)) :
    NextIs (exec c s) (fun t => t.upd.state = .idle ∧ t.upd.session = s.upd.pldm ∧ t.upd.result = errCode e ∧
      t.flashSlot s.upd.kind (s.spareFlash s.upd.kind) = { state := .invalid } ∧ t.upd.active = s.upd.active ∧
      t.upd.inactive = s.upd.inactive ∧ t = { s with upd := t.upd, errs := t.errs, host := t.host }) := by
  obtain ⟨_, _, ht⟩ := s.writeFails_some e cause
  have hslot := s.givesUp_slot
  obtain ⟨hstate, hsession, hactive, hinactive, hframe⟩ := s.givesUp_leaves
  generalize s.givesUp = g at *
  exact ⟨_, h.trans (congrArg _ ht), hstate, hsession, rfl, hslot, hactive, hinactive, by rw [hframe]; rfl⟩

/-! ### UPD_WIN -/

/-- The window takes bytes while a write of the PF receives or pauses. -/
def Update.takes (u : Update) : Prop := (u.state = .receiving ∨ u.state = .paused) ∧ u.pldm = false

theorem Update.takes.guard {u : Update} (h : u.takes) :
    ¬(¬(u.state = .receiving ∨ u.state = .paused) ∨ u.pldm = true) :=
  fun g => g.elim (· h.1) fun hp => Bool.false_ne_true (h.2.symm.trans hp)

theorem execUpdWin_closed {data : BitVec 64} {n : Nat} {ok : Bool} (h : ¬s.upd.takes) :
    exec (.updWin data n ok) s = .next s := by
  refine congrArg Host.Outcome.next (if_pos ?_)
  exact (Classical.not_and_iff_not_or_not.1 h).imp id eq_true_of_ne_false

theorem execUpdWin_flash {data : BitVec 64} {n : Nat} (h : s.upd.takes) (hr : s.upd.state = .receiving) :
    exec (.updWin data n false) s = .next (s.writeFails (some .flashWrite) 0) :=
  congrArg Host.Outcome.next ((if_neg h.guard).trans (if_pos ⟨hr, rfl⟩))

theorem execUpdWin_overrun {data : BitVec 64} {n : Nat} (h : s.upd.takes) (hr : s.upd.state = .receiving)
    (hbuf : updBuffer < (s.upd.buffer.drop n).length + 8) :
    exec (.updWin data n true) s = .next (s.writeFails (some .updOverrun) 0) := by
  have hne : s.upd.state ≠ .paused := by rw [hr]; decide
  exact congrArg Host.Outcome.next ((if_neg h.guard).trans
    ((if_neg fun g => Bool.false_ne_true g.2).trans (if_pos (by rw [if_neg hne]; exact hbuf))))

/-- The state after eight bytes of the window, before a complete image begins its verification. -/
def State.windowBytes (s : State) (buf : Bytes) (data : BitVec 64) : State :=
  { s with upd := { s.upd with buffer := buf ++ leBytes 8 data.toNat, bytes := min s.upd.len (s.upd.bytes + 8) } }

theorem execUpdWin_receives {data : BitVec 64} {n : Nat} (h : s.upd.takes) (hr : s.upd.state = .receiving)
    (hbuf : (s.upd.buffer.drop n).length + 8 ≤ updBuffer) :
    exec (.updWin data n true) s = .next (s.windowBytes (s.upd.buffer.drop n) data).allBytes := by
  have hne : s.upd.state ≠ .paused := by rw [hr]; decide
  refine congrArg Host.Outcome.next ((if_neg h.guard).trans
    ((if_neg fun g => Bool.false_ne_true g.2).trans ?_))
  rw [if_neg hne]
  exact if_neg (Nat.not_lt.2 hbuf)

theorem execUpdWin_paused {data : BitVec 64} {n : Nat} {ok : Bool} (h : s.upd.takes) (hp : s.upd.state = .paused)
    (hbuf : s.upd.buffer.length + 8 ≤ updBuffer) :
    exec (.updWin data n ok) s = .next (s.windowBytes s.upd.buffer data).allBytes := by
  have hne : s.upd.state ≠ .receiving := by rw [hp]; decide
  refine congrArg Host.Outcome.next ((if_neg h.guard).trans
    ((if_neg fun g => hne g.1).trans ?_))
  rw [if_pos hp]
  exact if_neg (Nat.not_lt.2 hbuf)

/-! ### Verification -/

/-- The image as it stands in flash: no more of it than was announced. -/
def State.received (s : State) (img : ImageIn) : ImageIn := { img with bytes := img.bytes.take s.upd.len }

theorem execImageVerifyDone_readBack (h : s.upd.state = .verifying) :
    exec (.imageVerifyDone img false) s = .next (s.writeFails (some .flashWrite) 0) :=
  congrArg Host.Outcome.next ((if_neg (not_not.2 h)).trans (if_pos rfl))

theorem execImageVerifyDone_size (h : s.upd.state = .verifying) (hlen : slotSize s.upd.kind < s.upd.len) :
    exec (.imageVerifyDone img true) s = .next (s.writeFails (some .imgFormat) 0) :=
  congrArg Host.Outcome.next ((if_neg (not_not.2 h)).trans ((if_neg Bool.false_ne_true).trans (if_pos hlen)))

theorem execImageVerifyDone_error (h : s.upd.state = .verifying) (hlen : s.upd.len ≤ slotSize s.upd.kind)
    (hv : s.verifyImage s.upd.kind (s.received img) = .error e) :
    exec (.imageVerifyDone img true) s = .next (s.writeFails (some e) 0) := by
  refine congrArg Host.Outcome.next ((if_neg (not_not.2 h)).trans ((if_neg Bool.false_ne_true).trans
    ((if_neg (Nat.not_lt.2 hlen)).trans ?_)))
  rw [← State.received, hv]

/-- An image that was not the one expected fails after its verification. -/
theorem execImageVerifyDone_other (h : s.upd.state = .verifying) (hlen : s.upd.len ≤ slotSize s.upd.kind)
    (hv : s.verifyImage s.upd.kind (s.received img) = .ok r) (hz : allZero s.upd.expect = false)
    (hd : r.digest ≠ s.upd.expect) :
    exec (.imageVerifyDone img true) s = .next (s.writeFails (some .imgDigest) 0) := by
  refine congrArg Host.Outcome.next ((if_neg (not_not.2 h)).trans ((if_neg Bool.false_ne_true).trans
    ((if_neg (Nat.not_lt.2 hlen)).trans ?_)))
  rw [← State.received, hv]
  exact if_pos ⟨by rw [hz]; rfl, hd⟩

/-- The state that holds a verified image, before its outcome shows. -/
def State.stages (s : State) (r : ImgRec) : State :=
  let n := s.spareFlash s.upd.kind
  let t := s.setFlash s.upd.kind n { state := .valid, image := some { r with fslot := n } }
  { t with upd := { t.upd with
    inactive := put none s.upd.inactive s.upd.kind (some { staged := true, image := { r with fslot := n } })
    state := .idle, session := s.upd.pldm, pldmState := if s.upd.pldm then 2 else 0 } }

theorem execImageVerifyDone_valid (h : s.upd.state = .verifying) (hlen : s.upd.len ≤ slotSize s.upd.kind)
    (hv : s.verifyImage s.upd.kind (s.received img) = .ok r) (hd : allZero s.upd.expect = true ∨ r.digest = s.upd.expect) :
    exec (.imageVerifyDone img true) s = .next ((s.stages r).updResult none 0 s.upd.kind) := by
  refine congrArg Host.Outcome.next ((if_neg (not_not.2 h)).trans ((if_neg Bool.false_ne_true).trans
    ((if_neg (Nat.not_lt.2 hlen)).trans ?_)))
  rw [← State.received, hv]
  exact if_neg fun g => hd.elim (fun hz => by simp [hz] at g) g.2

/-- The verified image is VALID in flash and STAGED on the chip. -/
theorem State.stages_slots (s : State) (r : ImgRec) :
    (s.stages r).flashSlot s.upd.kind (s.spareFlash s.upd.kind) =
      { state := .valid, image := some { r with fslot := s.spareFlash s.upd.kind } } ∧
    (s.stages r).inactiveSlot s.upd.kind =
      some { staged := true, image := { r with fslot := s.spareFlash s.upd.kind } } := by
  constructor
  · rw [State.stages, State.setFlash, State.flashSlot]
    dsimp only
    rw [get_put_same]
  · rw [State.stages, State.setFlash, State.inactiveSlot]
    dsimp only
    rw [get_put_same]

theorem State.stages_leaves (s : State) (r : ImgRec) : (s.stages r).upd.state = .idle ∧
    (s.stages r).upd.session = s.upd.pldm ∧ (s.stages r).upd.active = s.upd.active ∧
    s.stages r = { s with upd := (s.stages r).upd } :=
  ⟨rfl, rfl, rfl, rfl⟩

/-- A write that verified shows no error, and its image is VALID and STAGED. -/
theorem State.stages_shows {c : Instr} (h : exec c s = .next ((s.stages r).updResult none 0 s.upd.kind)) :
    NextIs (exec c s) (fun t => t.upd.state = .idle ∧ t.upd.session = s.upd.pldm ∧ t.upd.result = 0 ∧
      t.upd.active = s.upd.active ∧ t.flashSlot s.upd.kind (s.spareFlash s.upd.kind) =
        { state := .valid, image := some { r with fslot := s.spareFlash s.upd.kind } } ∧
      t.inactiveSlot s.upd.kind = some { staged := true, image := { r with fslot := s.spareFlash s.upd.kind } } ∧
      t = { s with upd := t.upd, host := t.host }) := by
  obtain ⟨_, ht⟩ := (s.stages r).updResult_none 0 s.upd.kind
  obtain ⟨hflash, hchip⟩ := s.stages_slots r
  obtain ⟨hstate, hsession, hactive, hframe⟩ := s.stages_leaves r
  generalize s.stages r = g at *
  exact ⟨_, h.trans (congrArg _ ht), hstate, hsession, rfl, hactive, hflash, hchip, by rw [hframe]; rfl⟩

/-! ### Bytes that end, or do not end, the image -/

theorem State.windowBytes_part {buf : Bytes} {data : BitVec 64} (h : s.upd.bytes + 8 < s.upd.len) :
    (s.windowBytes buf data).allBytes =
      { s with upd := { s.upd with buffer := buf ++ leBytes 8 data.toNat, bytes := s.upd.bytes + 8 } } := by
  have hmin : min s.upd.len (s.upd.bytes + 8) = s.upd.bytes + 8 := Nat.min_eq_right h.le
  rw [State.allBytes_part (.inr (hmin.trans_lt h)), State.windowBytes, hmin]

theorem State.windowBytes_last {buf : Bytes} {data : BitVec 64} (hr : s.upd.state = .receiving)
    (h : s.upd.len ≤ s.upd.bytes + 8) :
    (s.windowBytes buf data).allBytes =
      { s with upd := { s.upd with buffer := [], bytes := s.upd.len, state := .verifying } } := by
  have hmin : min s.upd.len (s.upd.bytes + 8) = s.upd.len := Nat.min_eq_left h
  have hall : (s.windowBytes buf data).allBytes = _ := State.allBytes_all hr hmin.ge
  rw [hall, State.windowBytes, hmin]

theorem State.windowBytes_paused {buf : Bytes} {data : BitVec 64} (hp : s.upd.state = .paused) :
    (s.windowBytes buf data).allBytes = s.windowBytes buf data := by
  refine State.allBytes_part (.inl fun h => ?_)
  rw [State.windowBytes] at h
  exact absurd (hp.symm.trans h) (by decide)

/-! ### Directory writes -/

theorem execDirectoryWritten_some {d : Directory} (h : s.upd.dirBusy = some d) :
    exec .directoryWritten s = .next { s with upd := { s.upd with
      dirs := setAt s.upd.dirs (1 - s.upd.dirCopy) (some d), dirCopy := 1 - s.upd.dirCopy, dirBusy := s.upd.dirQueue.head?
      dirQueue := s.upd.dirQueue.drop 1 } } := by
  refine congrArg Host.Outcome.next ?_
  rw [h]

theorem execDirectoryWritten_none (h : s.upd.dirBusy = none) : exec .directoryWritten s = .next s := by
  refine congrArg Host.Outcome.next ?_
  rw [h]

/-- A window of no write: another state of the update unit, or a session over PLDM. -/
theorem Update.not_takes {u : Update} (h : u.state = .idle ∨ u.state = .verifying ∨ u.state = .activating ∨ u.pldm = true) :
    ¬u.takes := by
  rintro ⟨hst, hpldm⟩
  rcases h with h | h | h | h
  · simp [h] at hst
  · simp [h] at hst
  · simp [h] at hst
  · simp [h] at hpldm

end

/-- Settles O57: the window, the verification and the directory, branch by branch; every failure is the one rule for a
write that fails. -/
theorem updateBytes : Obligations.UpdateBytes := by
  unfold Obligations.UpdateBytes
  intro s data n img u buf k failed
  refine ⟨fun hr hp hbuf => ?receives, fun hp hpldm hbuf ok => ?paused,
    fun hr hp hbuf => State.writeFails_shows (execUpdWin_overrun ⟨.inl hr, hp⟩ hr hbuf),
    fun hr hp => State.writeFails_shows (execUpdWin_flash ⟨.inl hr, hp⟩ hr), fun h ok => execUpdWin_closed (Update.not_takes h),
    fun h => State.writeFails_shows (execImageVerifyDone_readBack h),
    fun h hlen => State.writeFails_shows (execImageVerifyDone_size h hlen),
    fun e h hlen hv => State.writeFails_shows (execImageVerifyDone_error h hlen hv), fun r h hlen hv => ?verified,
    fun h ok => congrArg _ (if_pos h), fun d => execDirectoryWritten_some, execDirectoryWritten_none⟩
  case receives =>
    have hexec := execUpdWin_receives (data := data) ⟨.inl hr, hp⟩ hr hbuf
    exact ⟨fun hlt => hexec.trans (congrArg _ (State.windowBytes_part hlt)),
      fun hle => hexec.trans (congrArg _ (State.windowBytes_last hr hle))⟩
  case paused =>
    exact (execUpdWin_paused ⟨.inr hp, hpldm⟩ hp hbuf).trans (congrArg _ (State.windowBytes_paused hp))
  case verified =>
    exact ⟨fun hz hd => State.writeFails_shows (execImageVerifyDone_other h hlen hv hz hd),
      fun hd => State.stages_shows (execImageVerifyDone_valid h hlen hv hd)⟩

/-- A module whose update session runs. -/
def updating : State := { State.reset with upd := { State.reset.upd with session := true } }

/-- Refutes O58: RequestUpdate while a session runs is answered with PLDM's busy code, as stated, but it also shows UPD_BUSY
in the result of UPD_STS, where the statement has the update page as it was. The counterexample is the module after
reset with a session in progress, whose result is 0 before and UPD_BUSY after. -/
theorem not_pldmUpdate : ¬Obligations.PldmUpdate := by
  unfold Obligations.PldmUpdate
  intro h
  obtain ⟨-, -, -, -, hbusy, -⟩ := h updating [] 0 0 []
  obtain ⟨t, ht, -, hframe⟩ := hbusy (.inl rfl)
  have hexec : exec .requestUpdate updating = .next ((updating.updResult (some .updBusy) 0 0).pldmReply pldmBusy) :=
    congrArg Host.Outcome.next (if_pos (.inl rfl))
  obtain ⟨_, _, hres⟩ := updating.updResult_some .updBusy 0 0
  have hafter : t.upd.result = errCode .updBusy := by
    rw [← Host.Outcome.next.inj (hexec.symm.trans ht), hres]
    rfl
  have hbefore : t.upd.result = 0 := by
    rw [hframe]
    rfl
  exact absurd (hafter.symm.trans hbefore) (by decide)

end Sys2Proof.Machine

/-! ## Sequencer faults and reloads (R498, R504, R505) -/

namespace Sys2Proof.Machine

set_option Elab.async false

section
variable {s : State} {r : Report}

/-! ### The first error counted against a unit -/

/-- An error of class CONTAINED against a unit with none counted is counted there and stays of its class (R498). -/
theorem State.escalate_first (hc : r.cls = none) (h2 : (errInfo r.err).cls = 2)
    (hhub : s.counted (unitHub (errInfo r.err).kind) = false) (hvat : ∀ v, r.vat = some v → s.counted (unitVat v) = false) :
    ∃ t, s.escalate r = (2, false, t) ∧ ErrHost s t ∧
      ∀ u, r.vat ≠ some u → u ≠ unitHub (errInfo r.err).kind → get 0 t.errs.history u = get 0 s.errs.history u := by
  have hcls : r.cls.getD (errInfo r.err).cls = 2 := by rw [hc, h2]; rfl
  have same : ∃ t, (2, false, s) = (2, false, t) ∧ ErrHost s t ∧
      ∀ u, r.vat ≠ some u → u ≠ unitHub (errInfo r.err).kind → get 0 t.errs.history u = get 0 s.errs.history u :=
    ⟨s, rfl, ErrHost.refl s, fun _ _ _ => rfl⟩
  have counts (n : Nat) (hn : ∀ u, r.vat ≠ some u → u ≠ unitHub (errInfo r.err).kind → n ≠ u) :
      ∃ t, (2, false, s.count n) = (2, false, t) ∧ ErrHost s t ∧
        ∀ u, r.vat ≠ some u → u ≠ unitHub (errInfo r.err).kind → get 0 t.errs.history u = get 0 s.errs.history u :=
    ⟨_, rfl, ⟨_, _, rfl⟩, fun u hu hne => by
      rw [State.count]
      dsimp only
      rw [get_put_ne _ _ _ (hn u hu hne)]⟩
  unfold State.escalate
  simp only [hcls]
  split
  · exact same
  · split
    · split
      next v hv =>
        rw [hvat v hv]
        exact counts (unitVat v) fun u hu _ he => hu (hv.trans (congrArg some he))
      · split
        · rw [hhub]
          exact counts (unitHub (errInfo r.err).kind) fun u _ hne he => hne he.symm
        · exact same
    · exact same

/-- A first error that names no session changes the error registers and the host port, and counts against its own unit. -/
theorem State.report_first (hc : r.cls = none) (h2 : (errInfo r.err).cls = 2) (hn : r.named = [])
    (hhub : s.counted (unitHub (errInfo r.err).kind) = false) (hvat : ∀ v, r.vat = some v → s.counted (unitVat v) = false) :
    ErrHost s (s.report r) ∧ ∀ u, r.vat ≠ some u → u ≠ unitHub (errInfo r.err).kind →
      get 0 (s.report r).errs.history u = get 0 s.errs.history u := by
  obtain ⟨t, he, ht, hhist⟩ := State.escalate_first hc h2 hhub hvat
  have hr : ∃ k, s.report r = t.route r.err r.inst 2 r.deckle k := by
    unfold State.report
    simp only [he, hn, List.foldl_nil, ite_self]
    rw [if_neg (by decide)]
    generalize Capture.mk .. = k
    refine ⟨k, ?_⟩
    split
    · exact if_neg (by simp)
    · rfl
  obtain ⟨k, hr⟩ := hr
  rw [hr]
  exact ⟨ht.trans (t.route_errHost ..), fun u hu hne => by rw [t.route_history]; exact hhist u hu hne⟩

/-- A report raised to MODULE_FATAL that names no vat shuts the module down with cause 3 (R458). -/
theorem State.report_shuts (h4 : r.cls = some 4) (hv : r.vat = none) (ht : r.err ≠ .thermTrip) (hp : r.err ≠ .pstageFault) :
    (s.report r).power.phase = .shutdown ∧ (s.report r).therm.lastShut.1 = 3 := by
  have he : s.escalate r = (4, false, s) := by simp [State.escalate, State.gone, h4, hv]
  unfold State.report
  simp only [he, if_true, if_neg ht, if_neg hp]
  exact ⟨rfl, rfl⟩

/-! ### The block of the fault -/

/-- Operations that no unit holds are none lost. -/
theorem State.loseOps_unheld {hold : OpRec → Bool} (h : ∀ o, hold o = false) (order : Nat) : s.loseOps hold order = s := by
  have hlost : ∀ o : OpRec, (o.state == .waiting && hold o) = false := fun o => by rw [h o, Bool.and_false]
  have hnone : s.sched.ops.filter (fun o => o.state == .waiting && hold o) = [] :=
    List.filter_eq_nil_iff.2 fun o _ => ne_true_of_eq_false (hlost o)
  have hsame : s.sched.ops.map (fun o => if (o.state == .waiting && hold o) = true then
      { o.again s.tick.now with failed := true } else o) = s.sched.ops := by
    refine (List.map_congr_left fun o _ => if_neg (ne_true_of_eq_false (hlost o))).trans (List.map_id' _)
  have hdeckles : allDeckles.filter (fun d => ([] : List (Nat × Nat)).any (fun x => x.1 == d)) = [] :=
    List.filter_eq_nil_iff.2 fun _ _ => Bool.false_ne_true
  unfold State.loseOps
  dsimp only
  rw [hnone, hsame, List.foldl_nil, List.foldl_nil, hdeckles]
  rfl

/-- The report of a sequencer fault. -/
def State.seqReport (s : State) (b : SeqBlock) : Report :=
  { err := .seqFault (seqPage b).1, inst := (seqPage b).2, unit := (seqVat b).getD 0x40, vat := seqVat b, order := s.tail }

/-- What the block's own unit does on a fault, after its operations were lost. -/
def State.blockFails (s : State) (b : SeqBlock) : State :=
  match b with
  | .felt p => s.routerFault p.val
  | .test => s.abortStress 0
  | _ => s

theorem execSeqFault_reloads {b : SeqBlock} {t : State} (ht : (s.report (s.seqReport b)).coreOn = true)
    (hb : ((s.report (s.seqReport b)).loseOps (seqHolds b) (s.report (s.seqReport b)).tail).blockFails b = t)
    (hr : t.reloading (seqCode b) = false) :
    exec (.seqFault b) s = .next { t with reloads := put 0 t.reloads (seqCode b) (t.tick.now + 3) } := by
  subst hb
  have hoff : ¬(!(s.report (s.seqReport b)).coreOn) = true := by rw [ht]; decide
  exact congrArg Host.Outcome.next ((if_neg hoff).trans (if_neg (ne_true_of_eq_false hr)))

/-- The report of a reload that failed: the block's unit is lost. -/
def State.reloadReport (s : State) (b : SeqBlock) : Report :=
  { s.seqReport b with cause := 4, cls := some (if (seqVat b).isSome then 3 else 4) }

theorem execSeqReloadDone_fails {b : SeqBlock} (h : s.reloading (seqCode b) = true) :
    exec (.seqReloadDone b false) s = .next (s.report (s.reloadReport b)) :=
  congrArg Host.Outcome.next ((if_neg (by rw [h]; decide)).trans (if_neg Bool.false_ne_true))

/-- An open stress window aborts. -/
theorem State.abortStress_open (c : Nat) (h : s.test.phase = .settle ∨ s.test.phase = .heat ∨ s.test.phase = .run) :
    (s.abortStress c).test.phase = .cool := by
  rw [State.abortStress, if_pos h]

/-- The block itself changes the stress window alone, and that only when it is the test engine. -/
theorem State.blockFails_leaves {b : SeqBlock} (hport : ∀ p : Fin 6, b = .felt p → s.counted (unitPort p.val) = false) :
    ∃ e x, s.blockFails b = { s with errs := e, test := x } ∧ (b ≠ .test → x = s.test) ∧
      (b = .test → s.test.phase = .settle ∨ s.test.phase = .heat ∨ s.test.phase = .run → x.phase = .cool) := by
  cases b with
  | felt p =>
    refine ⟨_, s.test, if_neg (ne_true_of_eq_false (hport p rfl)), fun _ => rfl, fun h => by cases h⟩
  | test =>
    refine ⟨s.errs, (s.abortStress 0).test, ?_, fun h => absurd rfl h, fun _ => State.abortStress_open 0⟩
    unfold State.blockFails State.abortStress
    dsimp only
    split
    · rfl
    · rfl
  | vat _ | sched | hub | sess | kv | strm | ream | err | cal | therm =>
    exact ⟨s.errs, s.test, rfl, fun _ => rfl, fun h => by cases h⟩

end

/-- Settles O46: the first fault of a unit is contained, so that its operations and its window are all that is lost; a
reload that fails retires the vat or shuts the module down. -/
theorem sequencerFaults : Obligations.SequencerFaults := by
  unfold Obligations.SequencerFaults
  intro s b
  refine ⟨fun hon hidle hhub hvat hport => ?fault, fun hidle ok => congrArg _ (if_pos (by rw [hidle]; rfl)),
    fun hload => ⟨fun hrun => ?ticks, fun hrun => ?serves, fun hnone => ?shuts, fun v hv hdie hserve => ?retires⟩⟩
  case fault =>
    obtain ⟨u, hu⟩ : ∃ u, u = s.report (s.seqReport b) := ⟨_, rfl⟩
    obtain ⟨⟨e, x, hrep⟩, hhist⟩ := State.report_first (s := s) (r := s.seqReport b) rfl rfl rfl hhub hvat
    have hlost := u.loseOps_reissues (seqHolds b) u.tail
    obtain ⟨e', x', ds, sc, ss, rj, hops⟩ := u.loseOps_workEnds (seqHolds b) u.tail
    obtain ⟨w, hw⟩ : ∃ w, w = u.loseOps (seqHolds b) u.tail := ⟨_, rfl⟩
    have hport' : ∀ p : Fin 6, b = .felt p → w.counted (unitPort p.val) = false := by
      intro p hp
      have hlast : get 0 u.errs.history (unitPort p.val) = get 0 s.errs.history (unitPort p.val) := by
        rw [hu]
        refine hhist _ ?_ ?_
        · rw [State.seqReport, hp]
          nofun
        · rw [State.seqReport, hp]
          exact fun h => by simp [unitPort, unitHub, seqPage, errInfo] at h; omega
      have hnow : u.tick.now = s.tick.now := by rw [hu, hrep]
      have hwu : w = u := by
        rw [hw, hp]
        exact State.loseOps_unheld (fun _ => rfl) _
      have hcount := hport p hp
      rw [State.counted] at hcount
      rw [hwu, State.counted, hlast, hnow, hcount]
    obtain ⟨e'', test, hblock, hother, hcool⟩ := State.blockFails_leaves (s := w) hport'
    rw [← hw] at hlost hops
    have hus : u = { s with errs := e, host := x } := hu.trans hrep
    have hws : w = { s with errs := e', host := x', deckles := ds, sched := sc, sessions := ss, rejects := rj } := by
      rw [hops, hus]
    have hexec := execSeqFault_reloads (s := s) (b := b) (by rw [hrep]; exact hon) rfl (by
      rw [← hu, ← hw, hblock, hws]
      exact hidle)
    rw [← hu, ← hw, hblock] at hexec
    refine ⟨_, hexec, ?_, ?_, ?_, ?_, ?_⟩
    · rw [get_put_same, hws]
    · intro o ho hwait hhold
      refine (hlost o ho hwait).resolve_right fun h => ?_
      exact Bool.false_ne_true (h.2.symm.trans hhold)
    · intro hb
      rw [hother hb, hws]
    · intro hb hopen
      exact hcool hb (by rw [hws]; exact hopen)
    · rw [hws]
  case ticks =>
    exact congrArg Host.Outcome.next ((if_neg (by rw [hload]; decide)).trans ((if_pos rfl).trans (if_pos hrun)))
  case serves =>
    refine ⟨_, congrArg Host.Outcome.next ((if_neg (by rw [hload]; decide)).trans ((if_pos rfl).trans
      (if_neg (ne_true_of_eq_false hrun)))), ?_, rfl⟩
    rw [State.reloading]
    dsimp only
    rw [get_put_same]
    rfl
  case shuts =>
    obtain ⟨hphase, hcause⟩ := State.report_shuts (s := s) (r := s.reloadReport b)
      (by rw [State.reloadReport, hnone]; rfl) hnone nofun nofun
    exact ⟨_, execSeqReloadDone_fails hload, State.moduleState_shutdown hphase, hcause⟩
  case retires =>
    obtain ⟨t, ⟨e, x, rfl⟩, ht⟩ := s.report_retires (s.reloadReport b) (by rw [State.reloadReport, hv]; rfl) hv rfl hserve hdie
    obtain ⟨hstate, hcause, -, -⟩ := State.retireVat_leaves { s with errs := e, host := x } 4 s.tail hserve
    exact ⟨_, (execSeqReloadDone_fails hload).trans (congrArg _ ht), hstate, hcause⟩

end Sys2Proof.Machine

/-! ## States and lanes of a felt port (R356 to R359) -/

namespace Sys2Proof.Machine

set_option Elab.async false

section
variable {s t : State} {c : Instr} {p : Nat} {f : Port → Port}

/-! ### What an update of one port leaves -/

theorem State.port_modPort_ne {q : Nat} (h : q ≠ p) : (s.modPort p f).port q = s.port q :=
  (s.port_modPort p q f).trans (if_neg (Ne.symm h))

/-- The ports of a state read as they were written, whatever else differs. -/
theorem State.port_of_modPort (t s : State) (p : Nat) (f : Port → Port) (h : t.ports = (s.modPort p f).ports) :
    t.port p = f (s.port p) ∧ ∀ q, q ≠ p → t.port q = s.port q := by
  have hport : ∀ q, t.port q = (s.modPort p f).port q := fun q => by rw [State.port, State.port, h]
  exact ⟨(hport p).trans (s.port_modPort_same p f), fun q hq => (hport q).trans (State.port_modPort_ne hq)⟩

/-- A command that updates one port changes nothing else. -/
theorem State.modPort_next {y : Port} (h : exec c s = .next (s.modPort p f)) (hy : f (s.port p) = y) :
    NextIs (exec c s) (fun t => t.port p = y ∧ (∀ q, q ≠ p → t.port q = s.port q) ∧ t = { s with ports := t.ports }) :=
  by
  obtain ⟨hport, hothers⟩ := State.port_of_modPort _ s p f rfl
  exact ⟨_, h, hport.trans hy, hothers, rfl⟩

/-- A port whose session ends, on its way to another state. -/
def Port.closed (x : Port) (dest : PortState) : Port :=
  { x with state := dest, key := none, txSeq := 0, rxSeq := 0, authTick := 0, time := {}, xfers := [], unacked := []
           timeOut := none, refused := false }

theorem State.proposeLink_torus (s : State) (up : Bool) : ∃ x, s.proposeLink p up = { s with torus := x } ∧
    (s.torus.member ≠ 2 → x = s.torus) := by
  by_cases h : s.torus.member = 2
  · exact ⟨_, State.propose_member h up _, fun hn => absurd h hn⟩
  · exact ⟨s.torus, State.propose_outside h up _, fun _ => rfl⟩

/-- The end of a session closes the port, and may propose that its link is down. -/
theorem State.endLink_closes (s : State) (p : Nat) (dest : PortState) :
    ∃ x, s.endLink p dest = { s.modPort p (·.closed dest) with torus := x } ∧
      ((s.port p).state ≠ .up ∨ s.torus.member ≠ 2 → x = s.torus) := by
  obtain ⟨u, hu⟩ : ∃ u, u = s.modPort p (·.closed dest) := ⟨_, rfl⟩
  obtain ⟨x, hx, hout⟩ := u.proposeLink_torus (p := p) false
  by_cases h : (s.port p).state = .up ∧ (!u.leavePending p) = true
  · refine ⟨x, ?_, fun hor => ?_⟩
    · rw [hu] at h hx
      exact (if_pos h).trans hx
    · rw [hu] at hout
      exact hout (hor.resolve_left (not_not.2 h.1))
  · refine ⟨s.torus, ?_, fun _ => rfl⟩
    rw [hu] at h
    exact if_neg h

/-- An error that only counts ends the session with it. -/
theorem State.reportEnds (s : State) (r : Report) (dest : PortState) (hc : r.cls = none) (h1 : (errInfo r.err).cls = 1)
    (hn : r.named = []) :
    ∃ e h x, (s.report r).endLink p dest = { s.modPort p (·.closed dest) with errs := e, host := h, torus := x } := by
  obtain ⟨e, h, hr⟩ := s.report_errHost r hc h1 hn
  obtain ⟨x, hx, -⟩ := (s.report r).endLink_closes p dest
  exact ⟨e, h, x, by rw [hx, hr]; rfl⟩

/-! ### A lane that fails -/

theorem execLaneFail_mapped {p : Fin 6} {lane : Fin 32}
    (h : (s.port p.val).mapped.contains lane.val = true ∨
      ((s.port p.val).state ≠ .session ∧ (s.port p.val).state ≠ .up)) :
    exec (.laneFail p lane) s = .next s := by
  refine congrArg Host.Outcome.next (if_pos (h.imp_right fun ⟨hs, hu⟩ => ?_))
  simp [hs, hu]

/-- The port with one more lane out. -/
def Port.without (x : Port) (lane : Nat) : Port := { x with mapped := x.mapped ++ [lane] }

theorem execLaneFail_serving {p : Fin 6} {lane : Fin 32} (hup : (s.port p.val).state = .session ∨ (s.port p.val).state = .up)
    (hm : (s.port p.val).mapped.contains lane.val = false) :
    ∃ t, ErrHost (s.modPort p.val (·.without lane.val)) t ∧ exec (.laneFail p lane) s =
      .next (if 2 < ((s.port p.val).without lane.val).out.length then t.portFail p.val else t) := by
  have hrep := (s.modPort p.val (·.without lane.val)).report_errHost
    { err := .laneMapout, inst := p.val, detail := lane.val } rfl rfl rfl
  refine ⟨_, hrep, congrArg Host.Outcome.next ((if_neg ?_).trans ?_)⟩
  · exact fun g => g.elim (ne_true_of_eq_false hm) fun g => by simp [hup] at g
  · obtain ⟨e, h, ht⟩ := hrep
    have hport : (State.port (State.report (s.modPort p.val (·.without lane.val))
        { err := .laneMapout, inst := p.val, detail := lane.val }) p.val) = (s.port p.val).without lane.val := by
      rw [ht]
      exact (State.port_of_modPort _ s p.val (·.without lane.val) rfl).1
    rw [← hport]
    rfl

/-! ### Lanes drained by hand -/

/-- The lanes a drain adds. -/
def Port.adds (x : Port) (mask : Nat) : List Nat := (maskBits 32 mask).filter (fun l => !x.drained.contains l)

/-- A drained lane was drained before or was asked for. -/
theorem Port.mem_drained_adds {x : Port} {mask l : Nat} (h : l ∈ maskBits 32 mask) : l ∈ x.drained ++ x.adds mask := by
  by_cases hl : l ∈ x.drained
  · exact List.mem_append_left _ hl
  · exact List.mem_append_right _ (List.mem_filter.2 ⟨h, by simpa using hl⟩)

theorem Port.adds_some {x : Port} {mask : Nat} : x.adds mask ≠ [] ↔ (!(x.adds mask).isEmpty) = true := by
  rw [Bool.not_eq_true', List.isEmpty_eq_false_iff]

variable {q : Fin 6} {mask : Nat}

theorem execLaneDrain_refused (h : (s.port q.val).adds mask ≠ []) (hr : s.refused18 = true) :
    exec (.laneDrain q mask) s = .next s :=
  congrArg Host.Outcome.next (if_pos ⟨Port.adds_some.1 h, hr⟩)

theorem execLaneDrain_limit (h : (s.port q.val).adds mask ≠ []) (hr : s.refused18 = false)
    (hout : 2 < (Port.out { s.port q.val with drained := (s.port q.val).drained ++ (s.port q.val).adds mask }).length) :
    exec (.laneDrain q mask) s = .next (s.corrected .laneLimit q.val none) :=
  congrArg Host.Outcome.next ((if_neg fun g => ne_true_of_eq_false hr g.2).trans (if_pos ⟨Port.adds_some.1 h, hout⟩))

/-- The port after a drain was taken. -/
def Port.drain (x : Port) (mask : Nat) : Port :=
  { x with drainReg := mask, drained := x.drained ++ x.adds mask
           testing := (x.drained ++ x.adds mask).filter (fun l => !(maskBits 32 mask).contains l) }

theorem execLaneDrain_taken (h : (s.port q.val).adds mask = [] ∨ (s.refused18 = false ∧
      (Port.out { s.port q.val with drained := (s.port q.val).drained ++ (s.port q.val).adds mask }).length ≤ 2)) :
    exec (.laneDrain q mask) s = .next (s.modPort q.val (fun _ => (s.port q.val).drain mask)) := by
  refine congrArg Host.Outcome.next ((if_neg fun ⟨ha, hr⟩ => ?_).trans ((if_neg fun ⟨ha, hout⟩ => ?_).trans rfl))
  · rcases h with h | ⟨h, -⟩
    · exact Port.adds_some.2 ha h
    · exact ne_true_of_eq_false h hr
  · rcases h with h | ⟨-, h⟩
    · exact Port.adds_some.2 ha h
    · exact Nat.not_lt.2 h hout

/-- A lane back in service is out no more. -/
def Port.restore (x : Port) (lane : Nat) : Port :=
  { x with testing := x.testing.filter (· != lane), drained := x.drained.filter (· != lane)
           mapped := x.mapped.filter (· != lane) }

theorem Port.not_mem_out_restore (x : Port) (lane : Nat) : lane ∉ (x.restore lane).out := by
  intro h
  rcases List.mem_append.1 h with h | h
  · exact absurd (List.mem_filter.1 h).2 (by simp)
  · exact absurd (List.mem_filter.1 (List.mem_filter.1 h).1).2 (by simp)

end

/-- Settles O48: each command is one update of its port, with the errors and the proposal that go with a link that ends. -/
theorem feltPorts : Obligations.FeltPorts := by
  unfold Obligations.FeltPorts
  intro s p lane mask x adds portsOnly bad
  refine ⟨fun hen => ?on, fun hen => congrArg _ (if_pos hen), ?off, fun hen hst => ?light, fun h => ?dark,
    fun hst hbad => ?trained, fun h => ?untrained, fun hup hm => ⟨fun hout => ?lane, fun hout => ?fails⟩, execLaneFail_mapped,
    execLaneDrain_refused, execLaneDrain_limit, fun h => ?drains, fun ht => ?passes, fun ht => ?waits⟩
  case on =>
    exact State.modPort_next (congrArg Host.Outcome.next (if_neg (ne_true_of_eq_false hen))) rfl
  case off =>
    obtain ⟨y, hy, hout⟩ := s.endLink_closes p.val .down
    obtain ⟨u, hu⟩ : ∃ u : State, u = { s.modPort p.val (·.closed .down) with torus := y } := ⟨_, rfl⟩
    obtain ⟨hport, hothers⟩ := State.port_of_modPort u s p.val (·.closed .down) (by rw [hu])
    obtain ⟨hlast, hlasts⟩ := State.port_of_modPort _ u p.val
      (fun x => { x with enable := false, mapped := [], testing := [] }) rfl
    refine ⟨_, congrArg Host.Outcome.next (congrArg (fun t : State => t.modPort p.val
      (fun x => { x with enable := false, mapped := [], testing := [] })) (hy.trans hu.symm)), ?_⟩
    beta_reduce
    rw [hlast, hport]
    refine ⟨rfl, rfl, rfl, rfl, fun q hq => (hlasts q hq).trans (hothers q hq), ?_, fun h => ?_⟩
    · rw [hu]
      rfl
    · rw [hu]
      exact hout h
  case light =>
    exact State.modPort_next rfl (if_pos (Bool.and_eq_true_iff.2 ⟨hen, beq_iff_eq.2 hst⟩))
  case dark =>
    refine State.modPort_next rfl (if_neg fun g => ?_)
    obtain ⟨hen, hst⟩ := Bool.and_eq_true_iff.1 g
    exact h.elim (fun h => ne_true_of_eq_false h hen) fun h => h (eq_of_beq hst)
  case trained =>
    exact State.modPort_next rfl (if_pos (Bool.and_eq_true_iff.2 ⟨beq_iff_eq.2 hst, decide_eq_true hbad⟩))
  case untrained =>
    refine State.modPort_next rfl (if_neg fun g => ?_)
    obtain ⟨hst, hle⟩ := Bool.and_eq_true_iff.1 g
    exact h.elim (fun h => h (eq_of_beq hst)) fun h => Nat.not_le.2 h (of_decide_eq_true hle)
  case lane =>
    obtain ⟨t, ⟨e, h, ht⟩, hexec⟩ := execLaneFail_serving hup hm
    refine ⟨_, hexec.trans (congrArg _ ((if_neg (Nat.not_lt.2 hout)).trans ht)), ?_⟩
    obtain ⟨hport, hothers⟩ := State.port_of_modPort { s.modPort p.val (·.without lane.val) with
      errs := e, host := h } s p.val (·.without lane.val) rfl
    exact ⟨hport, hothers, rfl⟩
  case fails =>
    obtain ⟨t, ⟨e, h, ht⟩, hexec⟩ := execLaneFail_serving hup hm
    obtain ⟨e', h', y, hends⟩ := t.reportEnds { err := .portFail, inst := p.val } (p := p.val) .failed rfl rfl rfl
    obtain ⟨u, hu⟩ : ∃ u : State, u = { t.modPort p.val (·.closed .failed) with errs := e', host := h', torus := y } :=
      ⟨_, rfl⟩
    obtain ⟨hport, hothers⟩ := State.port_of_modPort u t p.val (·.closed .failed) (by rw [hu])
    obtain ⟨hlane, hlanes⟩ := State.port_of_modPort t s p.val (·.without lane.val) (by rw [ht])
    refine ⟨u, hexec.trans (congrArg _ ((if_pos hout).trans (hends.trans hu.symm))), ?_⟩
    beta_reduce
    rw [hport, hlane]
    refine ⟨rfl, rfl, rfl, fun q hq => (hothers q hq).trans (hlanes q hq), ?_⟩
    rw [hu, ht]
    rfl
  case drains =>
    obtain ⟨t, ht, hport, hothers, hframe⟩ := State.modPort_next (execLaneDrain_taken h) rfl
    refine ⟨t, ht, ?_⟩
    beta_reduce
    rw [hport]
    exact ⟨fun l hl => Port.mem_drained_adds hl, fun l hl => by simpa using (List.mem_filter.1 hl).2, rfl, rfl, hothers, hframe⟩
  case passes =>
    obtain ⟨t, ht, hport, hothers, hframe⟩ := State.modPort_next (c := .laneTestPass p lane) rfl (if_pos ht)
    refine ⟨t, ht, ?_⟩
    beta_reduce
    rw [hport]
    exact ⟨x.not_mem_out_restore lane.val, fun l hl hd => List.mem_filter.2 ⟨hd, by simpa using hl⟩, rfl, hothers, hframe⟩
  case waits =>
    exact State.modPort_next rfl (if_neg (ne_true_of_eq_false ht))

end Sys2Proof.Machine

/-! ## Link sessions (R373 to R376) -/

namespace Sys2Proof.Machine

set_option Elab.async false

/-! ### One port on its way -/

/-- From `s` to `t` port `p` came to be `y`, and no other port changed. -/
def PortStep (s : State) (p : Nat) (t : State) (y : Port) : Prop := t.port p = y ∧ ∀ q, q ≠ p → t.port q = s.port q

namespace PortStep
variable {s t u : State} {p : Nat} {y : Port}

theorem refl (s : State) (p : Nat) : PortStep s p s (s.port p) := ⟨rfl, fun _ _ => rfl⟩

theorem modPort (h : PortStep s p t y) (f : Port → Port) : PortStep s p (t.modPort p f) (f y) := by
  obtain ⟨hport, hothers⟩ := State.port_of_modPort (t.modPort p f) t p f rfl
  exact ⟨hport.trans (congrArg f h.1), fun q hq => (hothers q hq).trans (h.2 q hq)⟩

theorem frame (h : PortStep s p t y) (hu : u.ports = t.ports) : PortStep s p u y := by
  have hport : ∀ q, u.port q = t.port q := fun q => by rw [State.port, State.port, hu]
  exact ⟨(hport p).trans h.1, fun q hq => (hport q).trans (h.2 q hq)⟩

theorem errHost (h : PortStep s p t y) (hu : ErrHost t u) : PortStep s p u y :=
  h.frame (by obtain ⟨_, _, rfl⟩ := hu; rfl)

end PortStep

section
variable {s t u : State} {p : Nat} {n : NeighIn}

/-! ### What a port sends and the keys it takes -/

/-- A port that sent its part of the session. -/
def Port.greets (x : Port) (h : LinkHello) : Port := { x with hello := some h }

/-- A port with new keys, numbered from 0. -/
def Port.keyed (x : Port) (k : Bytes × Nat × Bytes × Nat) : Port :=
  { x with key := some k, txSeq := 0, rxSeq := 0, unacked := [] }

/-- A port whose session is set up. -/
def Port.joined (x : Port) (node : Nat) : Port := { x with state := .up, neighId := node, time := {}, xfers := [] }

/-- The part of the session this module sends. -/
def State.Greeting (s : State) (h : LinkHello) : Prop :=
  h.node = s.reg .nodeId ∧ h.torus = s.reg .torusId ∧ h.period = s.tick.period ∧ h.nonce.length = 48

theorem State.linkHello_sends (s : State) (p : Nat) (n : NeighIn) :
    ∃ h x, (s.linkHello p n).2 = { s.modPort p (·.greets h) with free := x } ∧ s.Greeting h :=
  ⟨_, _, rfl, rfl, rfl, rfl, beBytes_length 48 _⟩

theorem State.linkKeys_keys (s : State) (p e : Nat) (n : NeighIn) : ∃ k, s.linkKeys p e n = s.modPort p (·.keyed k) :=
  ⟨_, rfl⟩

/-- The checks of R373 read neither the ports nor the random numbers. -/
theorem State.neighBad_frame (p : Nat) (n : NeighIn) (hu : u = { s with ports := u.ports, free := u.free }) :
    u.neighBad p n = s.neighBad p n := by
  rw [hu]
  rfl

/-! ### The session set up, refused and given up -/

/-- What the port does with the neighbour's part once its own was sent. -/
theorem State.linkSession_checked (hst : (s.port p).state = .session) (href : (s.port p).refused = false)
    (hent : n.entropy = true) :
    (∀ e, s.neighBad p n = some e → s.linkSession p n =
      ((s.linkHello p n).2.report { err := e, inst := p }).modPort p (fun x => { x with refused := true })) ∧
    (s.neighBad p n = none → ∃ k, ∀ t, t = (((s.linkHello p n).2.modPort p (·.keyed k)).modPort p (·.joined n.nodeId)) →
      s.linkSession p n = if t.torus.downLinks.contains (t.portLink p) then t.proposeLink p true else t) := by
  obtain ⟨h, x, hhello, -⟩ := s.linkHello_sends p n
  have hbad : (s.linkHello p n).2.neighBad p n = s.neighBad p n := State.neighBad_frame p n (by rw [hhello]; rfl)
  have hguard : ¬((s.port p).state ≠ .session ∨ (s.port p).refused = true) := by simp [hst, href]
  have hrun : s.linkSession p n = match (s.linkHello p n).2.neighBad p n with
      | some e => ((s.linkHello p n).2.report { err := e, inst := p }).modPort p (fun x => { x with refused := true })
      | none =>
        let t := ((s.linkHello p n).2.linkKeys p (s.linkHello p n).1 n).modPort p (·.joined n.nodeId)
        if t.torus.downLinks.contains (t.portLink p) then t.proposeLink p true else t :=
    (if_neg hguard).trans (if_neg (by rw [hent]; decide))
  refine ⟨fun e he => by rw [hrun, hbad, he], fun hnone => ?_⟩
  obtain ⟨k, hk⟩ := (s.linkHello p n).2.linkKeys_keys p (s.linkHello p n).1 n
  refine ⟨k, fun t ht => ?_⟩
  rw [hrun, hbad, hnone]
  dsimp only
  rw [hk, ← ht]

/-- A check that fails is counted and leaves the work alone. -/
theorem State.neighBad_corrected {e : Err} (h : s.neighBad p n = some e) : (errInfo e).cls = 1 := by
  unfold State.neighBad at h
  split at h
  · cases h
    rfl
  · split at h
    · cases h
      rfl
    · cases h

/-- Attestation that fails is the first of the checks. -/
theorem State.neighBad_attest (h : n.chainOk = false ∨ n.sigOk = false ∨ n.debugLocked = false) :
    s.neighBad p n = some .attestFail := by
  refine if_pos ?_
  rcases h with h | h | h <;> simp [h]

/-- A neighbour of another place, torus or period fails a check. -/
theorem State.neighBad_other (h : n.nodeId ≠ s.neighbour p ∨ n.torusId ≠ s.reg .torusId ∨ n.period ≠ s.tick.period) :
    (s.neighBad p n).isSome = true := by
  unfold State.neighBad
  split
  · rfl
  · rw [if_pos (by rcases h with h | h | h <;> simp [h])]
    rfl

/-- A session that ends: the port is in SESSION without a key. -/
theorem State.endsSession {c : Instr} {r : Report} (hc : r.cls = none) (h1 : (errInfo r.err).cls = 1) (hn : r.named = [])
    (h : exec c s = .next ((s.report r).endLink p .session)) :
    NextIs (exec c s) (fun t => (t.port p).state = .session ∧ (t.port p).key = none ∧
      (∀ q, q ≠ p → t.port q = s.port q) ∧
      t = { s with ports := t.ports, torus := t.torus, errs := t.errs, host := t.host }) := by
  obtain ⟨e, x, y, hends⟩ := s.reportEnds r (p := p) .session hc h1 hn
  obtain ⟨hport, hothers⟩ : PortStep s p ((s.report r).endLink p .session) ((s.port p).closed .session) :=
    ((PortStep.refl s p).modPort (·.closed .session)).frame (by rw [hends])
  refine ⟨_, h, ?_, ?_, hothers, by rw [hends]; rfl⟩
  · rw [hport]
    rfl
  · rw [hport]
    rfl

theorem State.rekeyFail_up (h : (s.port p).state = .up) :
    s.rekeyFail p = (s.report { err := .rekeyFail, inst := p }).endLink p .session :=
  if_neg (not_not.2 h)

end

/-- Settles O49: what the module sends is the one greeting; the checks of R373 then set the session up or refuse it, and a
rekey renews its keys or ends it. -/
theorem linkSessions : Obligations.LinkSessions := by
  unfold Obligations.LinkSessions
  intro s p n x others hello ends
  obtain ⟨h, fr, hhello, hgreet⟩ := s.linkHello_sends p.val n
  have hsent : PortStep s p.val (s.linkHello p.val n).2 (x.greets h) :=
    ((PortStep.refl s p.val).modPort (·.greets h)).frame (by rw [hhello])
  refine ⟨fun hst href => ⟨fun hok hent hup => ?sets, fun hok hent hdown hmember => ?proposes, fun e he hent => ?refuses,
      fun hent => ?entropy⟩, fun h => congrArg _ (if_pos h), State.neighBad_attest, State.neighBad_other,
    fun hst href => ?retries, fun h => ?keeps,
    fun hup => ⟨?fails, fun hent hbad => ?unattested, fun hent hchain hsig hlock => ?renews⟩,
    fun hst => congrArg _ (if_pos hst), fun h => ?idle⟩
  case sets =>
    obtain ⟨-, hset⟩ := State.linkSession_checked (p := p.val) hst href hent
    obtain ⟨k, hset⟩ := hset hok
    obtain ⟨t, ht⟩ : ∃ t, t = ((s.linkHello p.val n).2.modPort p.val (·.keyed k)).modPort p.val (·.joined n.nodeId) := ⟨_, rfl⟩
    obtain ⟨hport, hothers⟩ := (hsent.modPort (·.keyed k)).modPort (·.joined n.nodeId)
    rw [← ht] at hport hothers
    have hframe : t = { s with ports := t.ports, free := t.free } := by rw [ht, hhello]; rfl
    have hlink : t.torus.downLinks.contains (t.portLink p.val) = s.torus.downLinks.contains (s.portLink p.val) := by
      rw [hframe]
      rfl
    have hexec := (hset t ht).trans (if_neg (ne_true_of_eq_false (hlink.trans hup)))
    refine ⟨t, congrArg Host.Outcome.next hexec, ?_⟩
    beta_reduce
    rw [hport]
    exact ⟨rfl, rfl, rfl, rfl, rfl, ⟨h, congrArg Port.hello hport, hgreet⟩, hothers, hframe⟩
  case proposes =>
    obtain ⟨-, hset⟩ := State.linkSession_checked (p := p.val) hst href hent
    obtain ⟨k, hset⟩ := hset hok
    obtain ⟨t, ht⟩ : ∃ t, t = ((s.linkHello p.val n).2.modPort p.val (·.keyed k)).modPort p.val (·.joined n.nodeId) := ⟨_, rfl⟩
    obtain ⟨hport, hothers⟩ := (hsent.modPort (·.keyed k)).modPort (·.joined n.nodeId)
    rw [← ht] at hport hothers
    have hframe : t = { s with ports := t.ports, free := t.free } := by rw [ht, hhello]; rfl
    have hlink : t.torus.downLinks.contains (t.portLink p.val) = s.torus.downLinks.contains (s.portLink p.val) := by
      rw [hframe]
      rfl
    have hexec := (hset t ht).trans (if_pos (hlink.trans hdown))
    have hprop := State.propose_member (s := t) (by rw [hframe]; exact hmember) true
      [⟨3, (t.portLink p.val).1, (t.portLink p.val).2⟩]
    obtain ⟨u, hu⟩ : ∃ u, u = t.propose true [⟨3, (t.portLink p.val).1, (t.portLink p.val).2⟩] := ⟨_, rfl⟩
    have hafter : PortStep t p.val u (t.port p.val) := (PortStep.refl t p.val).frame (by rw [hu, hprop])
    refine ⟨u, congrArg Host.Outcome.next (hexec.trans hu.symm), ?_, ⟨h, ?_, hgreet⟩,
      fun q hq => (hafter.2 q hq).trans (hothers q hq), ?_, ?_⟩
    · rw [hafter.1, hport]
      rfl
    · rw [hafter.1, hport]
      rfl
    · rw [hu, hprop, hframe]
      rfl
    · rw [hu, hprop, hframe]
  case refuses =>
    obtain ⟨hbad, -⟩ := State.linkSession_checked (p := p.val) hst href hent
    have hrep := (s.linkHello p.val n).2.report_errHost { err := e, inst := p.val } rfl (State.neighBad_corrected he) rfl
    obtain ⟨hport, hothers⟩ := (hsent.errHost hrep).modPort (fun x => { x with refused := true })
    refine ⟨_, congrArg Host.Outcome.next (hbad e he), ?_⟩
    obtain ⟨_, _, hrep⟩ := hrep
    refine ⟨⟨h, congrArg Port.hello hport, hgreet⟩, hothers, ?_, by rw [hrep, hhello]; rfl⟩
    rw [hport]
    rfl
  case entropy =>
    have hguard : ¬((s.port p.val).state ≠ .session ∨ (s.port p.val).refused = true) :=
      fun g => g.elim (· hst) (ne_true_of_eq_false href)
    exact congrArg Host.Outcome.next ((if_neg hguard).trans (if_pos (by rw [hent]; rfl)))
  case retries =>
    exact State.modPort_next rfl (if_pos (Bool.and_eq_true_iff.2 ⟨beq_iff_eq.2 hst, href⟩))
  case keeps =>
    refine State.modPort_next rfl (if_neg fun g => ?_)
    obtain ⟨hst, href⟩ := Bool.and_eq_true_iff.1 g
    exact h.elim (fun h => h (eq_of_beq hst)) fun h => ne_true_of_eq_false h href
  case fails =>
    exact State.endsSession rfl rfl rfl (congrArg Host.Outcome.next (State.rekeyFail_up hup))
  case unattested =>
    refine State.endsSession rfl rfl rfl (congrArg Host.Outcome.next ((if_neg ?_).trans
      ((if_pos ?_).trans (State.rekeyFail_up hup))))
    · exact fun g => g.elim (· hup) fun g => by simp [hent] at g
    · rcases hbad with h | h | h <;> simp [h]
  case renews =>
    obtain ⟨k, hk⟩ := (s.linkHello p.val n).2.linkKeys_keys p.val (s.linkHello p.val n).1 n
    obtain ⟨hport, hothers⟩ := hsent.modPort (·.keyed k)
    refine ⟨_, congrArg Host.Outcome.next ((if_neg ?_).trans ((if_neg ?_).trans hk)), ?_⟩
    · exact fun g => g.elim (· hup) fun g => by simp [hent] at g
    · simp [hchain, hsig, hlock]
    beta_reduce
    rw [hport]
    exact ⟨hup, rfl, rfl, rfl, ⟨h, congrArg Port.hello hport, hgreet⟩, hothers, by rw [hhello]; rfl⟩
  case idle =>
    exact congrArg Host.Outcome.next (if_pos (h.imp_right fun h => by rw [h]; rfl))

end Sys2Proof.Machine

/-! ## Frames of a felt link (R361 to R376) -/

namespace Sys2Proof.Machine

set_option Elab.async false

/-! ### Requests that end leave the staged bytes of exchanges -/

/-- The bytes staged for exchanges are the same. -/
def SameStaged (s t : State) : Prop := t.sched.staged = s.sched.staged

namespace SameStaged
variable {s t u : State}

theorem refl (s : State) : SameStaged s s := rfl
theorem trans (h : SameStaged s t) (h' : SameStaged t u) : SameStaged s u := Eq.trans h' h
theorem errHost (h : ErrHost s t) : SameStaged s t := by obtain ⟨_, _, rfl⟩ := h; exact refl s
theorem foldl {α : Type} {f : State → α → State} (hf : ∀ t a, SameStaged t (f t a)) (l : List α) (s : State) :
    SameStaged s (l.foldl f s) := by
  induction l generalizing s with
  | nil => exact refl s
  | cons a r ih => exact (hf s a).trans (ih _)

theorem reject (s : State) (d : Nat) (c : Cmd) (e : Err) : SameStaged s (s.reject d c e) := by
  unfold State.reject
  extract_lets +onlyGivenNames x y
  have hy : SameStaged s y := refl s
  split
  · exact hy.trans (errHost (y.corrected_errHost ..))
  · exact hy
theorem dropStep (s : State) (d i : Nat) : SameStaged s (s.dropStep d i) := by
  unfold State.dropStep
  split
  · exact refl s
  · exact refl s
theorem withdraw (s : State) (d i : Nat) : SameStaged s (s.withdraw d i) := by
  refine foldl (fun t x => ?_) _ s
  extract_lets dead
  split
  · exact dropStep t d x.id
  · exact refl t
theorem endActive (s : State) (i st e en : Nat) (l : Bool) (o : Nat) : SameStaged s (s.endActive i st e en l o) := by
  unfold State.endActive
  split
  · exact refl s
  · exact withdraw (s.finish ..) (s.deckOf i) i
theorem startRequest (s : State) (i : Nat) (r : Request) (o : Nat) : SameStaged s (s.startRequest i r o) := by
  unfold State.startRequest
  extract_lets d x toks r'
  split
  · exact reject s d r.cmd _
  · split
    · split
      · exact refl s
      · exact refl s
    · exact refl s
theorem startWaiting (s : State) (i o : Nat) : SameStaged s (s.startWaiting i o) := by
  unfold State.startWaiting
  split
  · split
    · exact refl s
    · exact startRequest (s.modSession i _) i _ o
  · exact refl s
theorem failSession (s : State) (i c o : Nat) : SameStaged s (s.failSession i c o) := by
  unfold State.failSession
  extract_lets +onlyGivenNames d x a b e f
  have hb : SameStaged s b := (withdraw s d i).trans (endActive a i 3 c 0 false o)
  have he : SameStaged s e := by
    unfold e
    split
    · exact hb
    · exact hb
  split
  · exact refl s
  · exact he.trans (startWaiting f i o)

/-- A report of class CONTAINED that names requests ends them alone. -/
theorem report (s : State) (r : Report) (hc : r.cls = none) (h2 : (errInfo r.err).cls = 2)
    (hcount : (errInfo r.err).counts = false) (hvat : r.vat = none) (hw : r.withdrawn = false) :
    SameStaged s (s.report r) := by
  obtain ⟨k, hk⟩ := s.report_contained r hc h2 hcount hvat hw
  rw [hk]
  exact (errHost (s.route_errHost ..)).trans (foldl (fun t i => failSession t i _ _) _ _)

end SameStaged

/-! ### Routes do not depend on the ports -/

theorem State.legOk_ports (s : State) (ps : SMap Port) (d : Nat) (plus : Bool) (k n : Nat) :
    ({ s with ports := ps } : State).legOk d plus k n = s.legOk d plus k n := by
  induction k generalizing n with
  | zero => rfl
  | succ k ih =>
    rw [State.legOk, State.legOk, ih]
    rfl

theorem State.legDir_ports (s : State) (ps : SMap Port) (n d target : Nat) :
    ({ s with ports := ps } : State).legDir n d target = s.legDir n d target := by
  unfold State.legDir
  simp only [State.legOk_ports]
  rfl

theorem State.routeFrom_ports (s : State) (ps : SMap Port) (dest : Nat) (l : List Nat) (n : Nat) (p : Option Nat) :
    ({ s with ports := ps } : State).routeFrom dest l n p = s.routeFrom dest l n p := by
  induction l generalizing n p with
  | nil => rfl
  | cons d r ih => simp only [State.routeFrom, State.legDir_ports, ih]

theorem State.routePort_ports (s : State) (ps : SMap Port) (dest : Nat) :
    ({ s with ports := ps } : State).routePort dest = s.routePort dest :=
  congrArg Option.join (s.routeFrom_ports ps dest _ _ _)

/-! ### What a frame counts -/

/-- A port with one more failed tag. -/
def Port.authFails (x : Port) : Port := { x with authFail := satAdd 32 x.authFail 1, authTick := x.authTick + 1 }

/-- A port with one corrected symbol of a lane. -/
def Port.corrects (x : Port) (lane : Nat) : Port :=
  { x with fecCorr := (x.fecCorr + 1) % 2 ^ 64, symNow := put 0 x.symNow lane (satAdd 32 (get 0 x.symNow lane) 1) }

/-- A port that took the next frame of its sequence, with the acknowledgement the frame carries. -/
def Port.takes (x : Port) (f : FrameIn) : Port :=
  let y := { x with rxSeq := x.rxSeq + 1, rxFrames := (x.rxFrames + 1) % 2 ^ 64 }
  let left := y.unacked.drop (y.unacked.length - (y.txSeq - f.ack))
  { y with unacked := left, sent := if f.replay then y.sent ++ left else y.sent
           retry := if f.replay then satAdd 32 y.retry left.length else y.retry }

/-- Codewords with few symbols in error are corrected. -/
theorem fecBad_few {f : FrameIn} (h : f.errs.length ≤ 2) : fecBad f = false := by
  refine List.any_eq_false.2 fun c _ => ?_
  rw [decide_eq_true_eq]
  exact Nat.not_lt.2 ((List.length_filter_le _ _).trans h)

section
variable {s : State} {p : Nat} {f : FrameIn}

/-- A frame is taken from a port in SESSION or UP whose block does not reload. -/
def State.Listens (s : State) (p : Nat) : Prop :=
  ((s.port p).state = .session ∨ (s.port p).state = .up) ∧ s.reloading (64 + p) = false

theorem State.Listens.guard (h : s.Listens p) :
    ¬((!(decide ((s.port p).state = .session ∨ (s.port p).state = .up))) = true ∨ s.reloading (64 + p) = true) := by
  obtain ⟨hst, hload⟩ := h
  exact fun g => g.elim (fun g => by simp [hst] at g) (ne_true_of_eq_false hload)

theorem State.frameIn_bad (h : s.Listens p) (hf : fecBad f = true) :
    s.frameIn p f = s.modPort p (fun x => { x with fecUncorr := satAdd 32 x.fecUncorr 1 }) :=
  (if_neg h.guard).trans (if_pos hf)

/-- A failed tag counts; the sixteenth of a tick ends the session. -/
theorem State.frameIn_tagBad (h : s.Listens p) (hf : fecBad f = false) (htag : f.tagBad = true) {u : State}
    (hu : u = (s.takeSymbols p f.errs).modPort p (·.authFails)) :
    s.frameIn p f = if 16 ≤ (u.port p).authTick ∧ (u.port p).state = .up then
      (u.report { err := .linkAuth, inst := p }).endLink p .session else u := by
  subst hu
  exact (if_neg h.guard).trans ((if_neg (ne_true_of_eq_false hf)).trans (if_pos htag))

theorem State.frameIn_outOfSequence (h : s.Listens p) (hf : f.errs = []) (htag : f.tagBad = false)
    (hseq : f.seq % 2 ^ 32 ≠ (s.port p).rxSeq % 2 ^ 32) : s.frameIn p f = s := by
  refine (if_neg h.guard).trans ((if_neg (ne_true_of_eq_false (fecBad_few (by rw [hf]; decide)))).trans ?_)
  rw [hf]
  exact (if_neg (ne_true_of_eq_false htag)).trans (if_pos hseq)

/-- The state with the next frame of the port's sequence taken. -/
def State.sequenced (s : State) (p : Nat) (f : FrameIn) : State :=
  (s.modPort p (fun x => { x with rxSeq := x.rxSeq + 1, rxFrames := (x.rxFrames + 1) % 2 ^ 64 })).takeAck p f.ack f.replay

theorem State.sequenced_port (s : State) (p : Nat) (f : FrameIn) :
    PortStep s p (s.sequenced p f) ((s.port p).takes f) :=
  ((PortStep.refl s p).modPort _).modPort _

theorem State.sequenced_frame (s : State) (p : Nat) (f : FrameIn) :
    s.sequenced p f = { s with ports := (s.sequenced p f).ports } := rfl

/-- What the next frame of the sequence asks for on a link that is up. -/
theorem State.frameIn_sequenced (h : s.Listens p) (hf : f.errs = []) (htag : f.tagBad = false)
    (hseq : f.seq % 2 ^ 32 = (s.port p).rxSeq % 2 ^ 32) (hup : (s.port p).state = .up) (hkind : f.kind ≠ 0) (hvc : f.vc ≤ 4) :
    s.frameIn p f =
      if f.vc = 0 then (if f.kind = 2 then (s.sequenced p f).linkControl p f.payload else s.sequenced p f)
      else if f.dest = (s.sequenced p f).reg .nodeId then (if f.kind = 1 then (s.sequenced p f).deliver p f else s.sequenced p f)
      else (s.sequenced p f).forward p f := by
  obtain ⟨hport, -⟩ := s.sequenced_port p f
  have hguard : ¬(((s.sequenced p f).port p).state ≠ .up ∨ f.kind = 0 ∨ 4 < f.vc) := by
    rw [hport]
    exact fun g => g.elim (· hup) fun g => g.elim hkind (Nat.not_lt.2 hvc)
  refine (if_neg h.guard).trans ((if_neg (ne_true_of_eq_false (fecBad_few (by rw [hf]; decide)))).trans ?_)
  rw [hf]
  exact (if_neg (ne_true_of_eq_false htag)).trans ((if_neg (not_not.2 hseq)).trans (if_neg hguard))

/-- Corrected symbols within the lane's limit only count. -/
theorem State.takeSymbols_within (e : Nat × Nat) (h : satAdd 32 (get 0 (s.port p).symNow e.2) 1 ≤ s.reg .laneErrLim p) :
    s.takeSymbols p [e] = s.modPort p (·.corrects e.2) := by
  have hport : ((s.modPort p (·.corrects e.2)).port p) = (s.port p).corrects e.2 := (PortStep.refl s p).modPort _ |>.1
  refine if_neg (Nat.not_lt.2 ?_)
  refine (congrArg (fun x : Port => get 0 x.symNow e.2) hport).trans_le ?_
  rw [Port.corrects]
  dsimp only
  rw [get_put_same]
  exact h

end

end Sys2Proof.Machine

/-! ## Frames that are delivered or forwarded (R365 to R369) -/

namespace Sys2Proof.Machine

set_option Elab.async false

section
variable {s : State} {p : Nat} {f : FrameIn}

/-- A port that notes where the transfer of a frame goes on. -/
def Port.notes (x : Port) (m : SMap Xfer) : Port := { x with xfers := m }

/-- The first frame of a transfer: its exchange, its address and its bytes. -/
def xferExch (f : FrameIn) : Nat := field f.payload 24 4
def xferAddr (f : FrameIn) : Nat := field f.payload 8 8
def xferBytes (f : FrameIn) : Bytes := f.payload.drop 32

/-- An operation of the frame's deckle waits for the exchange. -/
def State.wants (s : State) (f : FrameIn) : Bool :=
  s.sched.ops.any (fun o => o.deckle == f.deckle && o.takes == some (xferExch f))

/-- A first frame of this tick for a member of the torus. -/
def State.Opens (s : State) (f : FrameIn) : Prop :=
  f.first = true ∧ field f.payload 0 1 = 1 ∧ field f.payload 16 8 = s.tick.now ∧ s.torus.member = 2

/-- The report of a transfer outside its deckle's resources. -/
def State.foreignReport (s : State) (p : Nat) (f : FrameIn) : Report :=
  { err := .xferForeign, inst := p, deckle := some f.deckle, addr := (xferAddr f), order := s.tail
    named := match s.sched.ops.find? (fun o => o.deckle == f.deckle && o.takes == some (xferExch f)) with
      | some o => s.opSessions o
      | none => [] }

theorem State.find_wanted (s : State) (f : FrameIn) :
    (s.sched.ops.find? (fun o => o.deckle == f.deckle && o.takes == some (xferExch f))).isSome = s.wants f := by
  rw [State.wants, Bool.eq_iff_iff, List.find?_isSome, List.any_eq_true]

/-- A transfer within its deckle's resources is staged; another is reported and refused. -/
theorem State.deliver_opens (h : s.Opens f) :
    (s.wants f = false ∨ s.webCheck f.deckle (xferAddr f) (xferBytes f).length true = .ok → ∃ g : Port → SMap Xfer, s.deliver p f =
      ({ s with sched := { s.sched with staged := s.sched.staged ++ [⟨f.deckle, xferExch f, xferAddr f, xferBytes f⟩] } } :
        State).modPort p (fun y => y.notes (g y))) ∧
    (s.wants f = true → s.webCheck f.deckle (xferAddr f) (xferBytes f).length true ≠ .ok → ∃ g : Port → SMap Xfer, s.deliver p f =
      ((s.report (s.foreignReport p f)).sendRefusal f).modPort p (fun y => y.notes (g y))) := by
  obtain ⟨hfirst, htyp, htick, hmember⟩ := h
  unfold State.deliver
  extract_lets key none_ first typ x data op v ok sched t named u next
  have hx : x = { addr := xferAddr f, ok := true, exch := xferExch f } := by
    rw [show x = _ from if_pos hfirst, show typ = 1 from htyp, htick, hmember, beq_self_eq_true, beq_self_eq_true, beq_self_eq_true]
    rfl
  have hdata : data = xferBytes f := if_pos hfirst
  have hop : op = s.sched.ops.find? (fun o => o.deckle == f.deckle && o.takes == some (xferExch f)) := by
    unfold op
    rw [hx]
  have hv : v = if s.wants f = true then s.webCheck f.deckle (xferAddr f) (xferBytes f).length true else .ok := by
    unfold v
    rw [hop, s.find_wanted, hx, hdata]
  have hok : ok = (v == .ok) := by
    unfold ok
    rw [hx, Bool.true_and]
  refine ⟨fun h => ⟨fun y => put none_ y.xfers key next, ?_⟩, fun hw hc => ⟨fun y => put none_ y.xfers key next, ?_⟩⟩
  · have hgood : v = .ok := by
      rw [hv]
      exact ite_eq_right_iff.2 fun hw => h.resolve_left (ne_true_of_eq_false · hw)
    have ht : t = { s with sched := { s.sched with
        staged := s.sched.staged ++ [⟨f.deckle, xferExch f, xferAddr f, xferBytes f⟩] } } := by
      unfold t
      rw [if_pos (by rw [hok, hgood]; rfl), hx, hdata]
    have hu : u = t := if_neg (by rw [hgood]; simp)
    rw [← ht, ← hu]
    rfl
  · have hbad : v = s.webCheck f.deckle (xferAddr f) (xferBytes f).length true := hv.trans (if_pos hw)
    have ht : t = s := if_neg (by rw [hok, hbad]; simpa using hc)
    have hu : u = (s.report (s.foreignReport p f)).sendRefusal f := by
      unfold u
      rw [if_pos (by rw [hx, hbad]; simpa using hc), show named = (s.foreignReport p f).named by
        unfold named
        rw [hop, ht]
        rfl, hx, ht]
      rfl
    rw [← hu]
    rfl

/-! ### What a node sends on -/

/-- The frame that goes on through port `q`. -/
def State.passes (s : State) (p q : Nat) (f : FrameIn) : FrameOut :=
  { kind := f.kind, vc := s.outVc (some p) f.vc q, first := f.first, last := f.last, deckle := f.deckle, dest := f.dest
    src := f.src, seq := 0, payload := f.payload }

/-- A port that forwarded one frame more. -/
def Port.forwards (x : Port) : Port := { x with fwdFrames := (x.fwdFrames + 1) % 2 ^ 64 }

theorem State.forward_routed {q : Nat} (hmember : s.torus.member = 2) (hq : s.routePort f.dest = some q) :
    s.forward p f = (s.modPort p (·.forwards)).sendFrame q (s.passes p q f) := by
  refine (if_neg (not_not.2 hmember)).trans ?_
  rw [hq]
  rfl

theorem State.forward_stays (h : s.torus.member ≠ 2 ∨ s.routePort f.dest = none) : s.forward p f = s := by
  by_cases hm : s.torus.member = 2
  · refine (if_neg (not_not.2 hm)).trans ?_
    rw [h.resolve_left (not_not.2 hm)]
  · exact if_pos hm

/-- A port that sent one frame more. -/
def Port.sends (x : Port) (g : FrameOut) : Port :=
  { x with txFrames := (x.txFrames + 1) % 2 ^ 64, txSeq := x.txSeq + 1, sent := x.sent ++ [{ g with seq := x.txSeq % 2 ^ 32 }]
           unacked := x.unacked ++ [{ g with seq := x.txSeq % 2 ^ 32 }] }

theorem State.sendFrame_sends (s : State) (q : Nat) (g : FrameOut) :
    (s.sendFrame q g).port q = (s.port q).sends g ∧ ∀ p, p ≠ q → (s.sendFrame q g).port p = s.port p :=
  ⟨s.port_modPort_same q (·.sends g), fun _ => State.port_modPort_ne⟩

/-- A port's numbers of frames received are those of another state. -/
def SameReceived (s t : State) (p : Nat) : Prop :=
  (t.port p).rxSeq = (s.port p).rxSeq ∧ (t.port p).rxFrames = (s.port p).rxFrames

theorem State.sendFrame_received (s : State) (p q : Nat) (g : FrameOut) : SameReceived s (s.sendFrame q g) p := by
  obtain ⟨hport, hothers⟩ := s.sendFrame_sends q g
  by_cases h : p = q
  · subst h
    rw [SameReceived, hport]
    exact ⟨rfl, rfl⟩
  · rw [SameReceived, hothers p h]
    exact ⟨rfl, rfl⟩

/-- A refusal is one frame on its way back, which no counter of received frames and no memory sees. -/
theorem State.sendRefusal_leaves (s : State) (p : Nat) (f : FrameIn) : SameReceived s (s.sendRefusal f) p ∧
    (s.sendRefusal f).mem = s.mem ∧ (s.sendRefusal f).sched = s.sched := by
  unfold State.sendRefusal
  split
  · exact ⟨⟨rfl, rfl⟩, rfl, rfl⟩
  · exact ⟨s.sendFrame_received p _ _, rfl, rfl⟩

/-- A transfer that is refused stages no byte and writes none. -/
theorem State.refused_leaves (s : State) (p : Nat) (f : FrameIn) (g : Port → SMap Xfer) {t : State}
    (ht : t = ((s.report (s.foreignReport p f)).sendRefusal f).modPort p (fun y => y.notes (g y))) :
    SameReceived s t p ∧ t.mem = s.mem ∧ t.sched.staged = s.sched.staged := by
  obtain ⟨u, hu⟩ : ∃ u, u = s.report (s.foreignReport p f) := ⟨_, rfl⟩
  obtain ⟨_, _, _, _, _, _, hends⟩ := s.report_contained_workEnds (s.foreignReport p f) rfl rfl rfl rfl
  have hstaged : u.sched.staged = s.sched.staged := by
    rw [hu]
    exact SameStaged.report s (s.foreignReport p f) rfl rfl rfl rfl rfl
  have hports : u.port p = s.port p := by rw [hu, hends]; rfl
  have hmem : u.mem = s.mem := by rw [hu, hends]
  obtain ⟨⟨hseq, hframes⟩, hmem', hsched⟩ := u.sendRefusal_leaves p f
  rw [← hu] at ht
  have hport : t.port p = ((u.sendRefusal f).port p).notes (g ((u.sendRefusal f).port p)) := by
    rw [ht]
    exact State.port_modPort_same _ _ _
  refine ⟨⟨?_, ?_⟩, ?_, ?_⟩
  · rw [hport, ← hports]
    exact hseq
  · rw [hport, ← hports]
    exact hframes
  · rw [ht, ← hmem]
    exact hmem'
  · rw [ht, ← hstaged]
    exact congrArg Sched.staged hsched

theorem State.linkControl_leave (h1 : field f.payload 0 1 = 1) (hm : s.torus.present.contains (s.port p).neighId = true) :
    s.linkControl p f.payload = s.propose false [⟨1, 0, (s.port p).neighId⟩] := by
  unfold State.linkControl
  dsimp only
  rw [h1]
  exact if_pos hm

end

/-! ### Virtual channels -/

theorem State.outVc_dateline {s : State} {q vc : Nat} (h : s.dateline q = true) (via : Option Nat) :
    s.outVc via vc q = lowerVc vc + 1 := if_pos h

theorem State.outVc_inside {s : State} {q vc : Nat} (h : s.dateline q = false) :
    s.outVc none vc q = lowerVc vc ∧ ∀ p, s.outVc (some p) vc q = if p / 2 = q / 2 then vc else lowerVc vc :=
  ⟨if_neg (ne_true_of_eq_false h), fun _ => if_neg (ne_true_of_eq_false h)⟩

/-- Settles O50: a frame in its sequence is one update of its port, followed by what its kind asks for. -/
theorem linkFrames : Obligations.LinkFrames := by
  unfold Obligations.LinkFrames
  intro s p f x only counted
  obtain ⟨u, hu⟩ : ∃ u, u = s.sequenced p.val f := ⟨_, rfl⟩
  obtain ⟨hport, hothers⟩ : PortStep s p.val u (x.takes f) := by
    rw [hu]
    exact s.sequenced_port p.val f
  have hframe : u = { s with ports := u.ports } := by
    rw [hu]
    exact s.sequenced_frame p.val f
  refine ⟨fun hst hload => ⟨fun hf => ?bad, fun e he hlim htag hfew => ?symbol, fun hf => ⟨fun htag hfew => ?tag,
      fun htag hmany hup => ?auth, fun htag hseq => congrArg _ (State.frameIn_outOfSequence ⟨hst, hload⟩ hf htag hseq),
      fun htag hseq hup hkind h1 h4 => ⟨fun hdest hfirst htyp htick hmember => ?data, fun q hdest hmember hroute hne => ?passes,
        fun hdest h => ?stays⟩,
      fun htag hseq hup hkind hvc hctl hpresent hmember => ?leave⟩⟩,
    fun hs hu => congrArg _ (if_pos (.inl (by simp only [x] at hs hu; simp [hs, hu]))),
    fun q => ⟨fun h => ⟨State.outVc_dateline h none, State.outVc_dateline h _⟩, fun h => ?inside⟩⟩
  case bad => exact State.modPort_next (congrArg Host.Outcome.next (State.frameIn_bad ⟨hst, hload⟩ hf)) rfl
  case symbol =>
    have hsym := State.takeSymbols_within (p := p.val) e hlim
    obtain ⟨v, hv⟩ : ∃ v, v = (s.takeSymbols p.val f.errs).modPort p.val (·.authFails) := ⟨_, rfl⟩
    have hstep : PortStep s p.val v (x.corrects e.2).authFails := by
      rw [hv, he, hsym]
      exact ((PortStep.refl s p.val).modPort _).modPort _
    have hrun := State.frameIn_tagBad ⟨hst, hload⟩ (fecBad_few (by rw [he]; exact Nat.le_succ 1)) htag hv
    refine ⟨v, congrArg Host.Outcome.next (hrun.trans (if_neg fun g => ?_)), hstep.1, hstep.2, by rw [hv, he, hsym]; rfl⟩
    rw [hstep.1] at g
    exact Nat.not_le.2 (Nat.add_lt_add_right hfew 1) g.1
  case tag =>
    obtain ⟨v, hv⟩ : ∃ v, v = (s.takeSymbols p.val f.errs).modPort p.val (·.authFails) := ⟨_, rfl⟩
    have hstep : PortStep s p.val v x.authFails := by
      rw [hv, hf]
      exact (PortStep.refl s p.val).modPort _
    have hrun := State.frameIn_tagBad ⟨hst, hload⟩ (fecBad_few (by rw [hf]; decide)) htag hv
    refine ⟨v, congrArg Host.Outcome.next (hrun.trans (if_neg fun g => ?_)), hstep.1, hstep.2, by rw [hv, hf]; rfl⟩
    rw [hstep.1] at g
    exact Nat.not_le.2 (Nat.add_lt_add_right hfew 1) g.1
  case auth =>
    obtain ⟨v, hv⟩ : ∃ v, v = (s.takeSymbols p.val f.errs).modPort p.val (·.authFails) := ⟨_, rfl⟩
    have hstep : PortStep s p.val v x.authFails := by
      rw [hv, hf]
      exact (PortStep.refl s p.val).modPort _
    have hvf : v = { s with ports := v.ports } := by rw [hv, hf]; rfl
    have hrun := State.frameIn_tagBad ⟨hst, hload⟩ (fecBad_few (by rw [hf]; decide)) htag hv
    obtain ⟨e, h, y, hends⟩ := v.reportEnds { err := .linkAuth, inst := p.val } (p := p.val) .session rfl rfl rfl
    have hlast := ((PortStep.refl v p.val).modPort (·.closed .session)).frame (u := (v.report
      { err := .linkAuth, inst := p.val }).endLink p.val .session) (by rw [hends])
    refine ⟨_, congrArg Host.Outcome.next (hrun.trans (if_pos ?_)), ?_⟩
    · rw [hstep.1]
      exact ⟨Nat.add_le_add_right hmany 1, hup⟩
    · beta_reduce
      rw [hlast.1]
      refine ⟨rfl, rfl, ?_, ?_⟩
      · rw [hends, hvf]
        rfl
      · rw [hends, hvf]
        rfl
  case data =>
    have hrun := State.frameIn_sequenced ⟨hst, hload⟩ hf htag hseq hup (by omega) h4
    rw [← hu, if_neg (by omega), if_pos (by rw [hframe]; exact hdest), if_pos hkind] at hrun
    obtain ⟨hgood, hbad⟩ := State.deliver_opens (s := u) (p := p.val) (f := f)
      ⟨hfirst, htyp, by rw [hframe]; exact htick, by rw [hframe]; exact hmember⟩
    have hcheck (n : Nat) : u.webCheck f.deckle (xferAddr f) n true = s.webCheck f.deckle (xferAddr f) n true := by
      rw [hframe]
      rfl
    have hwants : u.wants f = s.wants f := by
      rw [hframe]
      rfl
    rw [hcheck, hwants] at hgood hbad
    intro a e data wanted
    refine ⟨fun h => ?_, fun hw hc => ?_⟩
    · obtain ⟨g, hg⟩ := hgood h
      obtain ⟨v, hv⟩ : ∃ v : State, v = { u with sched := { u.sched with
        staged := u.sched.staged ++ [⟨f.deckle, xferExch f, xferAddr f, xferBytes f⟩] } } := ⟨_, rfl⟩
      rw [← hv] at hg
      have hstep : PortStep s p.val (v.modPort p.val (fun y => y.notes (g y))) ((x.takes f).notes (g (x.takes f))) :=
        (PortStep.frame ⟨hport, hothers⟩ (by rw [hv])).modPort (fun y => y.notes (g y))
      refine ⟨_, congrArg Host.Outcome.next (hrun.trans hg), ?_, ?_, hstep.2, ?_⟩
      · rw [hv, hframe]
        rfl
      · simp only [counted, hstep.1]
        exact ⟨rfl, rfl⟩
      · rw [hv, hframe]
        rfl
    · obtain ⟨g, hg⟩ := hbad hw hc
      obtain ⟨⟨hrx, hfr⟩, hmem, hstaged⟩ := u.refused_leaves p.val f g rfl
      refine ⟨_, congrArg Host.Outcome.next (hrun.trans hg), ⟨hrx.trans (by rw [hport]; rfl), hfr.trans (by rw [hport]; rfl)⟩,
        hmem.trans (by rw [hframe]), hstaged.trans (by rw [hframe])⟩
  case passes =>
    have hrun := State.frameIn_sequenced ⟨hst, hload⟩ hf htag hseq hup (by omega) h4
    rw [← hu, if_neg (by omega), if_neg (by rw [hframe]; exact hdest)] at hrun
    have hgo := State.forward_routed (s := u) (p := p.val) (f := f) (q := q) (by rw [hframe]; exact hmember)
      (by rw [hframe]; exact (s.routePort_ports _ _).trans hroute)
    have hvc : u.passes p.val q f = s.passes p.val q f := by
      rw [hframe]
      rfl
    obtain ⟨w, hw⟩ : ∃ w, w = u.modPort p.val (·.forwards) := ⟨_, rfl⟩
    have hstep : PortStep s p.val w (x.takes f).forwards := by
      rw [hw]
      exact PortStep.modPort ⟨hport, hothers⟩ (·.forwards)
    rw [hvc, ← hw] at hgo
    obtain ⟨hout, hrest⟩ := w.sendFrame_sends q (s.passes p.val q f)
    have hin := (hrest p.val (Ne.symm hne)).trans hstep.1
    rw [hstep.2 q hne] at hout
    refine ⟨_, congrArg Host.Outcome.next (hrun.trans hgo), ?_⟩
    simp only [counted, hin, hout]
    refine ⟨⟨rfl, rfl⟩, rfl, rfl, rfl, ?_⟩
    rw [hw, hframe]
    rfl
  case stays =>
    have hrun := State.frameIn_sequenced ⟨hst, hload⟩ hf htag hseq hup (by omega) h4
    rw [← hu, if_neg (by omega), if_neg (by rw [hframe]; exact hdest)] at hrun
    have hgo := State.forward_stays (s := u) (p := p.val) (f := f) (h.imp (fun h => by rw [hframe]; exact h)
      fun h => by rw [hframe]; exact (s.routePort_ports _ _).trans h)
    refine ⟨u, congrArg Host.Outcome.next (hrun.trans hgo), ?_⟩
    simp only [counted, hport]
    exact ⟨⟨rfl, rfl⟩, rfl, hothers, hframe⟩
  case leave =>
    have hrun := State.frameIn_sequenced ⟨hst, hload⟩ hf htag hseq hup (by omega) (by omega)
    rw [← hu, if_pos hvc, if_pos hkind] at hrun
    have hneigh : (u.port p.val).neighId = x.neighId := by rw [hport]; rfl
    have hgo := State.linkControl_leave (s := u) (p := p.val) hctl (by rw [hneigh, hframe]; exact hpresent)
    have hprop := State.propose_member (s := u) (by rw [hframe]; exact hmember) false [⟨1, 0, (u.port p.val).neighId⟩]
    obtain ⟨v, hv⟩ : ∃ v, v = u.propose false [⟨1, 0, (u.port p.val).neighId⟩] := ⟨_, rfl⟩
    rw [← hv] at hprop hgo
    have hin : v.port p.val = x.takes f := (PortStep.frame ⟨hport, hothers⟩ (by rw [hprop])).1
    refine ⟨v, congrArg Host.Outcome.next (hrun.trans hgo), ?_⟩
    simp only [counted, hin]
    refine ⟨⟨rfl, rfl⟩, ?_, ?_⟩
    · rw [hprop, hneigh, hframe]
      rfl
    · rw [hprop, hframe]
  case inside =>
    obtain ⟨hnone, hvia⟩ := State.outVc_inside h
    exact ⟨hnone, fun hd => (hvia _).trans (if_neg hd), fun hd => (hvia _).trans (if_pos hd)⟩

end Sys2Proof.Machine

/-! ## Debug tokens (R432 to R435) -/

namespace Sys2Proof.Machine

set_option Elab.async false

/-! ### Sessions that are closed -/

/-- Session `i` of `t` is closed, and the others are those of `s`. -/
def ClosesOne (s : State) (i : Nat) (t : State) : Prop :=
  (t.session i).state = .closed ∧ ∀ j, j ≠ i → t.session j = s.session j

section
variable (s : State) (i : Nat)

theorem State.session_congr {t u : State} (h : t.sessions = u.sessions) (j : Nat) : t.session j = u.session j :=
  congrArg (fun m => get ({} : Session) m j) h

theorem State.session_modSession_ne {f : Session → Session} {j : Nat} (h : j ≠ i) :
    (s.modSession i f).session j = s.session j :=
  (s.session_modSession i j f).trans (if_neg (Ne.symm h))

theorem State.dropRegion_session {j : Nat} (h : j ≠ i) : (s.dropRegion i).session j = s.session j := by
  unfold State.dropRegion
  extract_lets x held t
  have ht : t.session j = s.session j := by
    unfold t
    split
    · obtain ⟨_, _, _, _, hrel, -⟩ := s.release_leaves (pageRange x.regPages x.kvPages ++ x.ctxPages)
      exact State.session_congr (by rw [hrel]) j
    · rfl
  exact (t.session_modSession_ne i h).trans ht

theorem State.dropImage_session {j : Nat} (h : j ≠ i) : (s.dropImage i).session j = s.session j := by
  unfold State.dropImage
  split
  · rfl
  · exact State.session_modSession_ne _ i h

theorem State.closeSession_closes : ClosesOne s i (s.closeSession i) := by
  unfold State.closeSession
  extract_lets d t u w
  refine ⟨?_, fun j hj => ?_⟩
  · rw [State.session]
    dsimp only
    rw [get_put_same]
  · have hw : w.session j = s.session j := ((State.dropImage_session u i hj).trans (State.dropRegion_session t i hj)).trans
      (State.session_congr (State.withdraw_sessions s i d) j)
    rw [← hw, State.session]
    dsimp only
    rw [get_put_ne _ _ _ (Ne.symm hj)]
    rfl

/-- An unlock closes the session and touches no other. -/
theorem State.unlockSession_closes : ClosesOne s i (s.unlockSession i) := by
  unfold State.unlockSession
  extract_lets x d code t u v w
  obtain ⟨hclosed, hothers⟩ := w.closeSession_closes i
  refine ⟨hclosed, fun j hj => (hothers j hj).trans ?_⟩
  have hv : v.session j = u.session j := State.session_congr
    (State.foldl_sessions (f := fun s c => s.finish d c 3 code 0 false false 0 1) (fun _ _ => rfl) _ u) j
  have hw : w.session j = v.session j := State.session_congr
    (State.foldl_sessions (f := fun s c => s.finish d c 1 0 0 false false 0 2) (fun _ _ => rfl) _ v) j
  rw [hw, hv, (t.endWaiting_session i 3 code 0).1 j hj, (s.endActive_session i 3 code 0 false 0).1 j hj]

end

/-- A session that no entry holds reads as the default. -/
theorem get_absent {α : Type} (d : α) (l : SMap α) (k : Nat) (h : k ∉ l.map (fun x => x.1)) : get d l k = d := by
  induction l with
  | nil => rfl
  | cons x r ih =>
    obtain ⟨j, v⟩ := x
    rw [List.map_cons, List.mem_cons, not_or] at h
    simp [get, Ne.symm h.1, ih h.2]

/-- A list of sessions unlocked is closed, and what was closed stays so. -/
theorem State.unlockSessions_close (l : List Nat) (s : State) :
    ∀ i, i ∈ l ∨ (s.session i).state = .closed → ((l.foldl (fun s i => s.unlockSession i) s).session i).state = .closed := by
  induction l generalizing s with
  | nil => exact fun i h => h.resolve_left (List.not_mem_nil)
  | cons a l ih =>
    intro i h
    obtain ⟨hclosed, hothers⟩ := s.unlockSession_closes a
    refine ih (s.unlockSession a) i ?_
    by_cases hi : i = a
    · subst hi
      exact .inr hclosed
    · rw [hothers i hi]
      exact h.imp_left fun h => (List.mem_cons.1 h).resolve_left hi

theorem State.unlockSessions_all (s : State) :
    ∀ i, (((s.sessions.map (fun x => x.1)).foldl (fun s i => s.unlockSession i) s).session i).state = .closed := by
  refine fun i => State.unlockSessions_close _ s i (Classical.or_iff_not_imp_left.2 fun h => ?_)
  rw [State.session, get_absent _ _ _ h]

/-! ### What an unlock leaves -/

/-- The registers of security, the update unit and power are the same. -/
def SameUnits (s t : State) : Prop := t.sec = s.sec ∧ t.upd = s.upd ∧ t.power = s.power

namespace SameUnits
variable {s t u : State}

theorem refl (s : State) : SameUnits s s := ⟨rfl, rfl, rfl⟩
theorem trans (h : SameUnits s t) (h' : SameUnits t u) : SameUnits s u :=
  ⟨h'.1.trans h.1, h'.2.1.trans h.2.1, h'.2.2.trans h.2.2⟩
theorem workEnds (h : WorkEnds s t) : SameUnits s t := by obtain ⟨_, _, _, _, _, _, rfl⟩ := h; exact refl s
theorem errHost (h : ErrHost s t) : SameUnits s t := workEnds h.workEnds
theorem foldl {α : Type} {f : State → α → State} (hf : ∀ t a, SameUnits t (f t a)) (l : List α) (s : State) :
    SameUnits s (l.foldl f s) := by
  induction l generalizing s with
  | nil => exact refl s
  | cons a r ih => exact (hf s a).trans (ih _)

theorem dropRegion (s : State) (i : Nat) : SameUnits s (s.dropRegion i) := by
  unfold State.dropRegion
  extract_lets x held t
  have ht : SameUnits s t := by
    unfold t
    split
    · obtain ⟨_, _, _, _, hrel, -⟩ := s.release_leaves (pageRange x.regPages x.kvPages ++ x.ctxPages)
      rw [hrel]
      exact refl s
    · exact refl s
  exact ht

theorem dropImage (s : State) (i : Nat) : SameUnits s (s.dropImage i) := by
  unfold State.dropImage
  split
  · exact refl s
  · exact refl s

theorem closeSession (s : State) (i : Nat) : SameUnits s (s.closeSession i) := by
  unfold State.closeSession
  extract_lets d t u w
  exact (((workEnds (s.withdraw_workEnds d i)).trans (dropRegion t i)).trans (dropImage u i) : SameUnits s w)

theorem unlockSession (s : State) (i : Nat) : SameUnits s (s.unlockSession i) := by
  unfold State.unlockSession
  extract_lets x d code t u v w
  have hu : SameUnits s u := workEnds ((s.endActive_workEnds ..).trans (t.endWaiting_workEnds ..))
  have hv : SameUnits u v := foldl (fun t c => workEnds (t.finish_workEnds ..)) _ u
  have hw : SameUnits v w := foldl (fun t c => workEnds (t.finish_workEnds ..)) _ v
  exact ((hu.trans hv).trans hw).trans (closeSession w i)

end SameUnits

/-- The sessions are the same as well. -/
def Quiet (s t : State) : Prop := SameUnits s t ∧ t.sessions = s.sessions

namespace Quiet
variable {s t u : State}

theorem refl (s : State) : Quiet s s := ⟨SameUnits.refl s, rfl⟩
theorem trans (h : Quiet s t) (h' : Quiet t u) : Quiet s u := ⟨h.1.trans h'.1, h'.2.trans h.2⟩
theorem errHost (h : ErrHost s t) : Quiet s t := by obtain ⟨_, _, rfl⟩ := h; exact refl s
theorem sends (h : Sends s t) : Quiet s t := by obtain ⟨_, _, _, rfl⟩ := h; exact refl s
theorem foldl {α : Type} {f : State → α → State} (hf : ∀ t a, Quiet t (f t a)) (l : List α) (s : State) :
    Quiet s (l.foldl f s) := by
  induction l generalizing s with
  | nil => exact refl s
  | cons a r ih => exact (hf s a).trans (ih _)

theorem dropStep (s : State) (d i : Nat) : Quiet s (s.dropStep d i) :=
  ⟨SameUnits.workEnds (s.dropStep_workEnds d i), s.dropStep_sessions d i⟩

theorem dropSteps (s : State) (d : Nat) : Quiet s (s.dropSteps d) := by
  unfold State.dropSteps
  exact foldl (fun t (x : StepRec) => dropStep t d x.id) _ s

theorem newKeys (s : State) (d : Nat) : Quiet s (s.newKeys d) := ⟨⟨rfl, rfl, rfl⟩, rfl⟩

theorem stopTick (s : State) : Quiet s s.stopTick :=
  (sends (s.stopTick_sends) : Quiet { s with tick := s.tick.stopped } s.stopTick)

theorem dropIde (s : State) : Quiet s s.dropIde := by
  have hlost : Quiet s s.ideLost := by
    unfold State.ideLost
    extract_lets was h t x
    split
    · refine trans (trans ?_ (errHost (State.report_errHost _ { err := .ideFail } rfl rfl rfl))) (stopTick _)
      exact refl s
    · exact refl s
  exact hlost

theorem tell (s : State) (d : Nat) (c : Capture) (n fn v : Nat) : Quiet s ((s.toDeckle d c n).raiseVector fn v) :=
  errHost ((s.toDeckle_errHost d c n).trans (State.raiseVector_errHost _ fn v))

end Quiet

/-! ### The unlock -/

section
variable {s : State} {reg scan : Bool}

/-- The state with its sessions closed and the deckles' keys renewed, before the module is unlocked. -/
def State.unlocking (s : State) : State :=
  let s := { s with sec := { s.sec with tokenDue := none } }
  let s := (s.sessions.map (fun x => x.1)).foldl (fun s i => s.unlockSession i) s
  let s := allDeckles.foldl (fun s d => (s.dropSteps d).modDeckle d (fun k => { k with snaps := [], swapUsed := [] })) s
  (allDeckles.filter (fun d => (s.deckle d).opened)).foldl (fun s d => s.newKeys d) s

theorem State.unlocking_leaves (s : State) : SameUnits { s with sec := { s.sec with tokenDue := none } } s.unlocking ∧
    ∀ i, (s.unlocking.session i).state = .closed := by
  unfold State.unlocking
  extract_lets x t u w
  have hu : SameUnits t u := SameUnits.foldl SameUnits.unlockSession _ t
  have hw : Quiet u w := Quiet.foldl
    (f := fun s d => (s.dropSteps d).modDeckle d (fun k => { k with snaps := [], swapUsed := [] }))
    (fun v d => Quiet.trans (Quiet.dropSteps v d) ⟨⟨rfl, rfl, rfl⟩, rfl⟩) _ u
  have hkeys : Quiet w ((allDeckles.filter (fun d => (w.deckle d).opened)).foldl (fun s d => s.newKeys d) w) :=
    Quiet.foldl Quiet.newKeys _ w
  obtain ⟨hunits, hsessions⟩ := hw.trans hkeys
  refine ⟨hu.trans hunits, fun i => ?_⟩
  rw [State.session_congr hsessions i]
  exact t.unlockSessions_all i

/-- The module unlocked, its IDE streams gone, a new attestation key derived, and every deckle told. -/
def State.unlocked (s : State) (reg scan : Bool) : State :=
  let s := { s with sec := { s.sec with spdm := [], unlocked := true, scopeReg := reg, scopeScan := scan } }
  let s := s.dropIde
  let s := s.deriveAlias
  let c : Capture := { code := errCode .debugUnlock, isModule := true, page := 4, tick := s.tick.now }
  let s := allDeckles.foldl (fun s d => (s.toDeckle d c c.code).raiseVector (d + 1) 2) s
  s.report { err := .debugUnlock }

theorem State.debugUnlock_eq (h : s.sec.tokenDue = some (reg, scan)) : s.debugUnlock = s.unlocking.unlocked reg scan := by
  unfold State.debugUnlock State.unlocked State.unlocking
  rw [h]

/-- An unlock sets the scopes and the attestation key, ends the SPDM sessions, and leaves the sessions as they were. -/
theorem State.unlocked_leaves (s : State) (reg scan : Bool) :
    (∃ cdi a, (s.unlocked reg scan).sec = { s.sec with
      spdm := [], unlocked := true, scopeReg := reg, scopeScan := scan, cdi := cdi, alias_ := a }) ∧
    (s.unlocked reg scan).upd = s.upd ∧ (s.unlocked reg scan).power = s.power ∧
    (s.unlocked reg scan).sessions = s.sessions := by
  unfold State.unlocked
  extract_lets x t u v c w
  obtain ⟨⟨usec, uupd, upower⟩, usessions⟩ : Quiet t u := Quiet.dropIde t
  have hw : Quiet v w := Quiet.foldl (fun y d => Quiet.tell y d _ _ _ _) _ v
  obtain ⟨⟨wsec, wupd, wpower⟩, wsessions⟩ :=
    hw.trans (Quiet.errHost (w.report_contained_errHost { err := .debugUnlock } rfl rfl rfl rfl rfl rfl))
  obtain ⟨cdi, a, hv⟩ : ∃ cdi a, v.sec = { u.sec with cdi := cdi, alias_ := a } := ⟨_, _, rfl⟩
  rw [wsec, wupd, wpower, wsessions, hv, usec]
  exact ⟨⟨_, _, rfl⟩, uupd, upower, usessions⟩

end

/-! ### The checks of a token -/

theorem State.tokenOk_checks {s : State} {b : Bytes} (h : s.tokenOk b = true) : s.sec.debugPerm = true ∧
    s.sec.lifecycle ≠ 0 ∧ s.sec.locked = false ∧ s.sec.unlocked = false ∧ s.sec.nonce = some (slice b 0x38 48) ∧
    (s.vkeySlot (dtKey b)).isSome = true := by
  simp only [State.tokenOk, Bool.and_eq_true, Bool.not_eq_true', beq_iff_eq, bne_iff_ne] at h
  obtain ⟨⟨⟨⟨⟨⟨⟨⟨-, hperm⟩, hlife⟩, hlock⟩, hunlocked⟩, -⟩, hnonce⟩, hkey⟩, -⟩ := h
  exact ⟨hperm, hlife, hlock, hunlocked, hnonce, hkey⟩

/-- Settles O54: a token that passes runs the unlock, whose sessions are closed one by one and whose rest leaves them. -/
theorem debugUnlock : Obligations.DebugUnlock := by
  unfold Obligations.DebugUnlock
  intro s b
  refine ⟨State.tokenOk_checks, fun hok hrun => congrArg _ ((if_pos hok).trans (if_pos hrun)), fun hok hrun => ?_,
    fun hbad => ?_, rfl, rfl⟩
  · obtain ⟨t, ht⟩ : ∃ t : State, t = { s with sec := { s.sec with
      nonce := none, tokenDue := some (bit (dtScope b) 0, bit (dtScope b) 1) } } := ⟨_, rfl⟩
    have hexec : exec (.dbgToken (.data b)) s = .next t.debugUnlock := by
      rw [ht]
      exact congrArg Host.Outcome.next ((if_pos hok).trans (if_neg (ne_true_of_eq_false hrun)))
    have hdue := State.debugUnlock_eq (s := t) (by rw [ht])
    obtain ⟨⟨usec, uupd, upower⟩, hclosed⟩ := t.unlocking_leaves
    obtain ⟨⟨cdi, a, hsec⟩, hupd, hpower, hsessions⟩ :=
      t.unlocking.unlocked_leaves (bit (dtScope b) 0) (bit (dtScope b) 1)
    refine ⟨_, hexec.trans (congrArg _ hdue), ?_⟩
    beta_reduce
    rw [hsec, hupd, hpower, usec, uupd, upower]
    refine ⟨rfl, rfl, rfl, ?_, rfl, rfl, fun i => ?_, ?_, ?_, ?_⟩
    · rw [ht]
    · rw [State.session_congr hsessions i]
      exact hclosed i
    · rw [ht]
    · rw [ht]
    · rw [ht]
  · obtain ⟨e, x, ht⟩ := State.corrected_errHost { s with sec := { s.sec with nonce := none } } .debugDenied 0 none 0xFFFFFFFF
    exact ⟨_, congrArg Host.Outcome.next ((if_neg (ne_true_of_eq_false hbad)).trans ht), rfl, rfl⟩

end Sys2Proof.Machine

/-! ## Attestation and IDE keys (R407, R408, R422 to R430) -/

namespace Sys2Proof.Machine

set_option Elab.async false

/-! ### Pieces of equal length -/

theorem slice_append_left {x y : Bytes} {n : Nat} (h : x.length = n) : slice (x ++ y) 0 n = x := by
  have htake : ((x ++ y).drop 0).take n = x := List.take_left' h
  unfold slice
  rw [htake]
  dsimp only
  rw [h, Nat.sub_self, List.replicate_zero, List.append_nil]

theorem slice_append_right {x y : Bytes} {o n m : Nat} (h : x.length = m) : slice (x ++ y) (m + o) n = slice y o n := by
  have hdrop : (x ++ y).drop (m + o) = y.drop o := by rw [← List.drop_drop, List.drop_left' h]
  unfold slice
  rw [hdrop]

/-- Of pieces of one length, put together, each is found at its place. -/
theorem slice_pieces {n : Nat} (l : List Bytes) (hl : ∀ x ∈ l, x.length = n) (i : Nat) (hi : i < l.length) :
    slice (l.foldr (· ++ ·) []) (n * i) n = l[i] := by
  induction l generalizing i with
  | nil => exact absurd hi (Nat.not_lt_zero _)
  | cons x r ih =>
    have hx := hl x List.mem_cons_self
    cases i with
    | zero => exact slice_append_left hx
    | succ i =>
      rw [List.foldr_cons, Nat.mul_succ, Nat.add_comm, slice_append_right hx]
      exact ih (fun y hy => hl y (List.mem_cons_of_mem _ hy)) i (Nat.lt_of_succ_lt_succ hi)

section
variable (s : State)

/-! ### Measurements -/

theorem State.deckleEntry_length (d : Nat) : (s.deckleEntry d).length = 32 := by
  simp [State.deckleEntry]

/-- A requester sees its own deckle, and the PF and management see all. -/
def Requester.sees : Requester → Nat → Bool
  | .vf n, d => n.val == d
  | _, _ => true

theorem State.measurement_layout (q : Requester) : s.measurement q 11 =
    (allDeckles.map (fun d => if Requester.sees q d then s.deckleEntry d else List.replicate 32 0#8)).foldr (· ++ ·) [] := by
  cases q <;> rfl

/-- The layout of each deckle stands at its place, where the requester sees it. -/
theorem State.measurement_entry (q : Requester) (d : Fin 16) : slice (s.measurement q 11) (32 * d.val) 32 =
    if Requester.sees q d.val then s.deckleEntry d.val else List.replicate 32 0#8 := by
  rw [State.measurement_layout, slice_pieces _ _ d.val (by simp [allDeckles])]
  · simp [allDeckles]
  · intro x hx
    obtain ⟨k, -, rfl⟩ := List.mem_map.1 hx
    split
    · exact s.deckleEntry_length k
    · rfl

/-! ### Key exchange -/

/-- The keys of an SPDM session. -/
def spdmKeys (e : Nat) (key script : Bytes) : SpdmSession :=
  { keys := hkdf384 (ecdhShared e key) (sha384 script) (ascii "SPDM") 88 }

theorem execKeyExchange_sets {q : Requester} {key script : Bytes} : ∃ e b x, exec (.keyExchange q key script true) s =
    .next { s with free := x, sec := { s.sec with
      spdm := put {} s.sec.spdm (requesterCode q) (spdmKeys e key script)
      replies := s.sec.replies ++ [(requesterCode q, b)] } } :=
  ⟨_, _, _, rfl⟩

/-! ### IDE streams -/

/-- The stream of the link, or the selective one. -/
def HostPort.ide (h : HostPort) (link : Bool) : Bool × Bool := if link then h.ideLink else h.ideSel

theorem HostPort.ide_setIde (h : HostPort) (link : Bool) (v : Bool × Bool) :
    (h.setIde link v).ide link = v ∧ (h.setIde link v).ide (!link) = h.ide (!link) ∧
    (h.setIde link v).stopIssue = h.stopIssue := by
  cases link
  · exact ⟨rfl, rfl, rfl⟩
  · exact ⟨rfl, rfl, rfl⟩

variable {s}

theorem execIdeKm_locked (act : IdeAct) (h : (get {} s.sec.spdm 0).keys = []) : exec (.ideKm act) s = .next s :=
  congrArg Host.Outcome.next (if_pos h)

theorem execIdeKm_program {link : Bool} (h : (get {} s.sec.spdm 0).keys ≠ []) : ∃ x, exec (.ideKm (.program link)) s =
    .next { s with host := s.host.setIde link (true, (s.host.ide link).2), free := x } :=
  ⟨_, congrArg Host.Outcome.next (if_neg h)⟩

theorem execIdeKm_go {link : Bool} (h : (get {} s.sec.spdm 0).keys ≠ []) : exec (.ideKm (.go link)) s =
    .next (if (s.host.ide link).1 = true then
      { s with host := { s.host.setIde link (true, true) with stopIssue := false } } else s) :=
  congrArg Host.Outcome.next (if_neg h)

theorem execIdeKm_stop {link : Bool} (h : (get {} s.sec.spdm 0).keys ≠ []) : exec (.ideKm (.stop link)) s =
    .next (if (s.host.ide link).2 = true ∧ (!(s.host.ide (!link)).2) = true ∧ s.reg .ideReq = 1 then
      (({ s with host := { s.host.setIde link (false, false) with stopIssue := true } } : State).report
        { err := .ideFail }).stopTick
      else { s with host := s.host.setIde link (false, false) }) := by
  cases link
  · exact congrArg Host.Outcome.next (if_neg h)
  · exact congrArg Host.Outcome.next (if_neg h)

/-- The report of the lost stream and the stop of the tick leave the streams. -/
theorem State.ideFail_stops (s : State) : ∃ e fs rs ps, (s.report { err := .ideFail }).stopTick =
    { s with errs := e, tick := s.tick.stopped, host := { s.host with funcs := fs, pfRecs := rs, posted := ps } } := by
  obtain ⟨e, fs, rs, ps, hr⟩ := s.report_corrected_sends { err := .ideFail } rfl rfl rfl
  obtain ⟨fs', rs', ps', ht⟩ := State.stopTick_sends { s with errs := e, host := { s.host with
    funcs := fs, pfRecs := rs, posted := ps } }
  exact ⟨e, fs', rs', ps', (congrArg State.stopTick hr).trans ht⟩

end

/-- Settles O55: certificates and measurements are one signature over the drawn scalar, the layout is found piece by piece,
and the rows of IDE_KM are updates of one stream. -/
theorem attestation : Obligations.Attestation := by
  unfold Obligations.Attestation
  intro s q nonce key script l slot link answers stream other
  have hother (t : State) : other t = t.host.ide (!link) := by
    cases link
    · rfl
    · rfl
  refine ⟨⟨_, rfl, ⟨_, rfl⟩, rfl⟩, fun hslot => ⟨_, congrArg Host.Outcome.next (if_neg hslot), rfl, rfl⟩,
    ⟨_, rfl, ⟨_, rfl⟩, rfl⟩, fun n d => ?vf, fun d => ⟨s.measurement_entry .pf d, rfl⟩, ?exchange, rfl,
    fun act => execIdeKm_locked act, fun hkeys => ⟨?program, fun hkeyed => ?go, fun hnone => ?noGo, fun h => ?stop,
      fun hsec hlast hreq => ?last⟩⟩
  case vf =>
    rw [s.measurement_entry]
    exact if_congr (beq_iff_eq.trans ⟨fun h => Fin.ext h.symm, fun h => congrArg Fin.val h.symm⟩) rfl rfl
  case exchange =>
    obtain ⟨e, b, x, hexec⟩ := execKeyExchange_sets (s := s) (q := q) (key := key) (script := script)
    refine ⟨_, hexec, ⟨e, ?_⟩, fun c hc => ?_, ?_, rfl⟩
    · dsimp only
      rw [get_put_same, spdmKeys]
    · dsimp only
      rw [get_put_ne _ _ _ (Ne.symm hc)]
    · exact List.length_append
  case program =>
    obtain ⟨x, hexec⟩ := execIdeKm_program (link := link) hkeys
    obtain ⟨hthis, hthat, hissue⟩ := s.host.ide_setIde link (true, (s.host.ide link).2)
    refine ⟨_, hexec, ?_, ?_, hissue, rfl⟩
    · exact hthis
    · rw [hother, hother]
      exact hthat
  case go =>
    obtain ⟨hthis, hthat, -⟩ := s.host.ide_setIde link (true, true)
    refine ⟨_, (execIdeKm_go (link := link) hkeys).trans (congrArg _ (if_pos hkeyed)), hthis, ?_, rfl, rfl⟩
    rw [hother, hother]
    exact hthat
  case noGo =>
    exact (execIdeKm_go (link := link) hkeys).trans (congrArg _ (if_neg (ne_true_of_eq_false hnone)))
  case stop =>
    obtain ⟨hthis, hthat, hissue⟩ := s.host.ide_setIde link (false, false)
    have hguard : ¬((s.host.ide link).2 = true ∧ (!(s.host.ide (!link)).2) = true ∧ s.reg .ideReq = 1) := by
      rintro ⟨hsec, hlast, hreq⟩
      rw [hother] at h
      rcases h with h | h | h
      · exact ne_true_of_eq_false h hsec
      · rw [h] at hlast
        exact Bool.false_ne_true hlast
      · exact h hreq
    refine ⟨_, (execIdeKm_stop (link := link) hkeys).trans (congrArg _ (if_neg hguard)), hthis, ?_, hissue, rfl⟩
    rw [hother, hother]
    exact hthat
  case last =>
    rw [hother] at hlast
    obtain ⟨hthis, hthat, -⟩ := s.host.ide_setIde link (false, false)
    obtain ⟨e, fs, rs, ps, hstop⟩ := State.ideFail_stops { s with host := { s.host.setIde link (false, false) with
      stopIssue := true } }
    have hexec := (execIdeKm_stop (link := link) hkeys).trans (congrArg _ (if_pos ⟨hsec, by rw [hlast]; rfl, hreq⟩))
    refine ⟨_, hexec.trans (congrArg _ hstop), hthis, ?_, rfl, Tick.stopped_in, fun hrun hin => ?_, rfl⟩
    · rw [hother, hother]
      exact hthat
    · exact congrArg Tick.running (Tick.stopped_between hrun hin)

end Sys2Proof.Machine
